-- ==== Sys2Proof/Word.lean ====
section
/-! DEFINITION. The word types of the 880 and its sparse tables. Every structure of the 880 is little-endian (R7). -/

namespace Sys2Proof

/-- A byte of memory, of a frame or of a flit. -/
abbrev Byte := BitVec 8

/-- A BAR0 register (R9). -/
abbrev Word := BitVec 32

/-- A sparse table: the entries of a big array that differ from the array's default value, by rising index.
Every memory of the 880, its register file, its float file and its hardware tables are held so. -/
abbrev SMap (α : Type) := List (Nat × α)

/-- A byte memory: the host's cells, addresses strictly rising, no cell equal to what an unlisted address reads as. -/
abbrev Mem := List Host.Cell

end Sys2Proof
end

