-- ==== Sys2Proof/Syntax.lean ====
section
/-! DEFINITION. The commands of the 880: one constructor per row of spec/opcode_table.json, in the table's order. Each is one
indivisible step of the part (95_what_each_step_holds.md). An operand that stands for something outside the 880 (what arrives, what
is measured, what host software stores in its own memory) is said in notes/assumptions 1 and 4. -/

namespace Sys2Proof

/-- The base address registers a register read may address (R57-R62): BAR0, or BAR2 with its doorbell pages and float windows. -/
inductive Bar where
  | bar0 | bar2
  deriving DecidableEq, Repr

/-- What a write to configuration space changes (R55-R57, R62, R77, R84, R86): controls, the six words of the base address
registers, the error status, whose bits a written 1 clears. -/
inductive ConfigField where
  | maxPayload | relaxedOrdering | completionTimeout | msixEnable | msixMask | initiateFlr
  | maxReadRequest | tag14 | bar (i : Fin 6) | aerStatus
  deriving DecidableEq, Repr

/-- The PCI Express link as its partner lets it train (R4, R54): the rate code of GLB_CAP, the width in lanes, flit mode. -/
structure PcieLink where
  rate : Nat := 6
  width : Nat := 16
  flit : Bool := true
  deriving DecidableEq, Repr

/-- The three banks of the packet path that swap at a boundary (R151, R170, R175). -/
inductive BankKind where
  | feature | rule | ensemble
  deriving DecidableEq, Repr

/-- The on-chip memories whose words are refetched (R161, R175). -/
inductive RuleMem where
  | rule | assoc | tree
  deriving DecidableEq, Repr

/-- A pass in a header lane: its link, its frame's reorder sequence number, first or second pass. -/
structure PassRef where
  link : Fin 24
  seq : Fin 4096
  second : Bool
  deriving DecidableEq, Repr

/-- How a wavelength of a link fails (R352, R355): no signal, no valid codeword, a ring of its transmit or receive side. -/
inductive LaneFault where
  | signal | codeword
  | ring (receive : Bool)
  deriving DecidableEq, Repr

/-- A part of an arriving frame: its bytes, and for each FEC codeword since the last part that was not clean, whether it could be
corrected (R366). -/
structure FrameChunk where
  bytes : List Byte
  fec : List Bool := []
  deriving DecidableEq, Repr

/-- What a Luapo link receives (R365-R367): one flit of 256 bytes as its lanes' decoders deliver it, or a period of codewords, as the
PAM4 levels of each lane in use, in ascending order, two bits a level. -/
inductive FlitIn where
  | flit (bytes : List Byte)
  | words (levels : List Nat)
  deriving DecidableEq, Repr

/-- A unit of the in-service test (R428), by its class and number; a slice of a single-instance block. -/
inductive IstUnit where
  | tile (phys : Fin 68)
  | group (g : Fin 25)
  | bank (b : Fin 2048)
  | headerLane (l : Fin 24)
  | linkLane (link : Fin 40) (wavelength : Fin 8)
  | slice (block : Fin 19)   -- 0 PCI Express controller, 1 timebase, 2 associative memory, 3-18 vector units
  deriving DecidableEq, Repr

/-- What start-up meets (R415-R417): the straps, the rails, what its tests and calibrations find, and how long it takes. -/
structure Findings where
  laGroups : Fin 32
  smbAddr : Fin 4
  pcie : PcieLink := {}
  /-- Rails in mV, and whether clock and VDD_CORE come into range for the BIST within 100 ms (R425). -/
  rails : List Nat
  inRange : Bool
  /-- Units that fail the power-up BIST: kind as in PWR_BIST_LOG, instance. -/
  failed : List (Nat × Nat)
  /-- Aquifer channels that fail three attempts at training; of the others, by channel, the attempts that failed, 0 to 2. -/
  channels : List (Fin 48)
  attempts : List Nat := []
  /-- Power of each laser inlet, 0.01 dBm, 16-bit two's complement. -/
  inlets : List Nat
  /-- Heater codes by link: transmit rings, then receive rings; rings that fail: link, wavelength, receive side. -/
  codes : List (List Nat)
  rings : List (Fin 40 × Fin 8 × Bool)
  /-- Links that fail the self-check. -/
  links : List (Fin 40)
  /-- Core cycles from here to READY or the hold. -/
  cycles : Nat
  deriving DecidableEq, Repr


/-- The commands and events of the 880. -/
inductive Instr where
  /-- STROKE_BOUNDARY (R28): The timebase count reaches the next boundary count and the boundary cycle carries out its eight ordered actions. -/
  | strokeBoundary
  /-- OPENING_BOUNDARY (R469): Strokes start, and the first stroke becomes current without sealing or ticking. -/
  | openingBoundary
  /-- PTP_MEASUREMENT (R21): A Sync, with its Follow_Up and delay measurement, yields an offset that steps, slews, locks or loses the servo. -/
  | ptpMeasurement (ptpNs : Nat) (logInterval : Int)
  /-- PPS_EDGE (R18): A rising edge on PPS_IN is timestamped and used as a measurement against STK_TOD_SEC. -/
  | ppsEdge
  /-- STROKE_MARKER_RECEIVE (R377): A follower takes a usable marker, disciplines its timebase, checks the stroke number and forwards the marker. -/
  | strokeMarkerReceive (link : Fin 40) (flit : List Byte)
  /-- HOLDOVER_ENTRY (R21): No valid measurement for 1.5 expected intervals moves a LOCKED servo to HOLDOVER. -/
  | holdoverEntry
  /-- HOLDOVER_EXPIRY (R22): STK_HOLDOVER expires since the last valid measurement, and the servo enters LOST with bypass latched. -/
  | holdoverExpiry
  /-- STK_ENABLE_SET (R21): Setting STK_CTRL.ENABLE begins a timebase acquisition, or under FREE starts strokes. -/
  | stkEnableSet
  /-- STK_ENABLE_CLEAR (R26): Clearing STK_CTRL.ENABLE stops strokes, latches bypass and raises TIMEBASE_LOST with reason 3. -/
  | stkEnableClear
  /-- STK_PERIOD_WRITE (R24): A write of STK_PERIOD becomes the pending period or is discarded with PERIOD_REJECT. -/
  | stkPeriodWrite (period : Word)
  /-- POWER_MEASUREMENT (R45): Each 1 µs measurement of package power steps the array clock clamp down or up and drives ALERT_N. -/
  | powerMeasurement (watts : Nat) (rails : List Nat)
  /-- REGISTER_WRITE (R11): A host or control-core write to a BAR0 register without its own row is applied under its access code, or discarded. -/
  | registerWrite (host : Bool) (offset : Nat) (enables : BitVec 4) (value : Word)
  /-- SQ_TAIL_WRITE (R66): A doorbell write sets the submission producer index, or is discarded with RING_ERROR. -/
  | sqTailWrite (q : Fin 80) (offset size : Nat) (value : Nat) (stores : List (Nat × List Byte))
  /-- CQ_HEAD_WRITE (R67): A doorbell write releases completion slots, or is discarded with RING_ERROR. -/
  | cqHeadWrite (q : Fin 80) (offset size : Nat) (value : Nat)
  /-- DESCRIPTOR_FETCH (R68): The queue fetches a descriptor and its command list, or refuses it with BAD_DESCRIPTOR. -/
  | descriptorFetch (q : Fin 80) (stores : List (Nat × List Byte))
  /-- COMMAND_ADMIT (R33): A queue starts its next command when its predecessor has completed, its qualifier has passed and budget remains. -/
  | commandAdmit (q : Fin 80)
  /-- COMPLETION_RECORD_WRITE (R78): A completion record is written once a completion slot is free. -/
  | completionRecordWrite (q : Fin 80)
  /-- FLOAT_SET_WRITE (R60): A host 8-byte write in the read-and-set window sets a float. -/
  | floatSetWrite (f : Fin 131072) (offset size : Nat) (value : BitVec 64)
  /-- FLOAT_ADD_WRITE (R60): A host 8-byte write in the add alias adds to a float. -/
  | floatAddWrite (f : Fin 131072) (offset size : Nat) (value : BitVec 64)
  /-- WAIT_SATISFIED (R83): A float update makes a waiting WAIT's value reached and the WAIT completes. -/
  | waitSatisfied (q : Fin 80)
  /-- NOP (R74): The command does nothing beyond its signal and notify. -/
  | nop (q : Fin 80)
  /-- WAIT (R74): The command waits until a float is at least V. -/
  | wait (q : Fin 80)
  /-- SET (R74): The command sets a float. -/
  | set (q : Fin 80)
  /-- ARM (R74): The command writes a float's tick increment. -/
  | arm (q : Fin 80)
  /-- TIMESTAMP (R74): The command writes the timebase count and stroke number to host memory. -/
  | timestamp (q : Fin 80)
  /-- COPY (R75): PMP COPY moves data among host, Cistern, Aquifer and Luapo. -/
  | copy (q : Fin 80) (stores : List (Nat × List Byte))
  /-- TRANSPOSE (R286): PMP TRANSPOSE moves a matrix with rows and columns exchanged. -/
  | transpose (q : Fin 80)
  /-- HOST_REQUEST_TIMEOUT (R86): A host-memory request is not completed within the completion timeout and fails its command with HOST_ERROR. -/
  | hostRequestTimeout (q : Fin 80)
  /-- QUEUE_ENABLE (R80): Setting HIF_QCTRLq.ENABLE starts or resumes a queue, or is refused for a misaligned base. -/
  | queueEnable (q : Fin 80)
  /-- QUEUE_DISABLE (R80): Clearing HIF_QCTRLq.ENABLE stops the queue and aborts its current list. -/
  | queueDisable (q : Fin 80)
  /-- QUEUE_STOP (R80): Setting STOP halts the queue and completes waiting commands and the rest of the list ABORTED. -/
  | queueStop (q : Fin 80)
  /-- QUEUE_RESUME (R80): Clearing STOP resumes the queue with the next unfetched descriptor. -/
  | queueResume (q : Fin 80)
  /-- QUEUE_RESET (R80): RESET returns a halted or disabled queue's indices and phase to their initial values, or is discarded. -/
  | queueReset (q : Fin 80)
  /-- DMA_HALT_CLEAR (R86): Clearing DMA_HALT resumes a queue halted by a refused ring access. -/
  | dmaHaltClear (q : Fin 80)
  /-- DMA_WINDOW_WRITE (R85): A write to a DMA window entry governs later requests, or is discarded if locked or overflowing. -/
  | dmaWindowWrite (n : Fin 256) (part : Fin 4) (value : Word)
  /-- HIF_LOCK (R85): Setting HIF_LOCK.LOCK makes the DMA window table and HIF_BAR4_CTRL read-only until reset. -/
  | hifLock
  /-- EVT_RING_ENABLE (R87): Setting HIF_EVT_CTRL.ENABLE puts the event ring in use, or is refused with RING_ERROR. -/
  | evtRingEnable
  /-- EVT_HEAD_WRITE (R88): Host software advances the event-ring consumer index and frees slots. -/
  | evtHeadWrite (value : Word)
  /-- EVENT_LOSS (R88): When space returns after drops, EVENT_LOSS is written and HIF_EVT_LOST is cleared. -/
  | eventLoss
  /-- EVT_HALT_CLEAR (R86): Clearing GLB_STATUS.EVT_HALT resumes event writing. -/
  | evtHaltClear
  /-- IRQ_HOLDOFF_EXPIRY (R84): The oldest IRQ record of a ring has waited HOLDOFF × 100 ns and the ring fires its vector. -/
  | irqHoldoffExpiry (ring : Fin 81)
  /-- MSIX_UNMASK (R84): Unmasking an MSI-X vector with its pending bit set fires it. -/
  | msixUnmask (vector : Fin 256)
  /-- BAR4_READ (R62): A host read through BAR4 returns corrected data, Unsupported Request or Completer Abort. -/
  | bar4Read (offset size : Nat)
  /-- BAR4_WRITE (R61): A host write through BAR4 replaces or read-modify-writes a Cistern word, or is discarded. -/
  | bar4Write (offset : Nat) (data : List Byte)
  /-- GLB_RESET (R55): Writing the key to GLB_RESET resets the whole 880. -/
  | glbReset (key : Word)
  /-- FUNCTION_LEVEL_RESET (R55): A PCI Express Function Level Reset resets the whole 880. -/
  | functionLevelReset
  /-- FRAME_RECEIVE (R99): A frame arriving on an Ethernet link is written into the standpipe, or discarded as foreign or bad in MODE 2. -/
  | frameReceive (link : Fin 24) (first : Bool) (chunk : FrameChunk) (fin : Option Bool)
  /-- STANDPIPE_FLUSH (R106): Writing FLUSH empties a standpipe and discards its frames. -/
  | standpipeFlush (link : Fin 24)
  /-- LINK_MODE_WRITE (R93): A write of WH_LINK_CTRLn.MODE applies only while the link is not up and its pair allows it. -/
  | linkModeWrite (link : Fin 24) (mode : Fin 4)
  /-- HEAD_DEAL (R119): The dealer deals a ready first or second pass to the next in-service header lane and fixes its epochs. -/
  | headDeal
  /-- FLOW_LOOKUP (R130): The pass reads buckets and context, hits and updates the context, or misses. -/
  | flowLookup (p : PassRef)
  /-- FLOW_INSERT_PORT (R131): The insert port inserts a missed key into a free slot and writes its context, or queues it for the relocator. -/
  | flowInsertPort
  /-- INSERT_WAIT_TIMEOUT (R133): A pass that waits more than 64 cycles for the insert port or relocator proceeds without a context. -/
  | insertWaitTimeout (p : PassRef)
  /-- RELOCATION_CHAIN (R135): The relocator plans and executes a chain of moves to place a new key, or fails with REHASH_REQUEST. -/
  | relocationChain
  /-- FEATURE_PROGRAM (R147): The profile's feature program computes 128 features in 32 cycles. -/
  | featureProgram (p : PassRef)
  /-- RULE_CLASSIFY (R163): The rule stage walks the rule tree or searches the associative memory and yields a rule result. -/
  | ruleClassify (p : PassRef)
  /-- RULE_WORD_REFETCH (R161): An uncorrectable rule, associative or tree memory word is fetched again from the bank image while the pass waits. -/
  | ruleWordRefetch (p : PassRef) (mem : RuleMem) (word : Nat)
  /-- TREE_ISSUE (R177): A tree group issues the next pass's ensemble from its tree queue and votes. -/
  | treeIssue (lane : Fin 24)
  /-- VERDICT_STAGE (R178): A final result enters the verdict stage and is composed into a verdict. -/
  | verdictStage (p : PassRef)
  /-- VERDICT_DEADLINE (R158): No final result 1,591 cycles after dealing makes the verdict stage take the default action with LATE. -/
  | verdictDeadline (link : Fin 24) (seq : Fin 4096)
  /-- REORDER_RELEASE (R121): Verdicts whose predecessors are released go to the verdict queue in sequence order. -/
  | reorderRelease (link : Fin 24)
  /-- VERDICT_FRAME_HOLD_EXPIRY (R184): The oldest verdict record has waited HOLD cycles and a verdict frame is sent. -/
  | verdictFrameHoldExpiry (link : Fin 24)
  /-- EGRESS_ENQUEUE (R192): A forwarded frame is metered and enqueued in its class, or tail- or policer-dropped. -/
  | egressEnqueue
  /-- EGRESS_SELECT (R201): When the transmitter can take a frame, the scheduler picks an eligible class and egress starts the frame. -/
  | egressSelect (link : Fin 24)
  /-- EGRESS_FRAME_END (R102): Egress reads a frame's last byte and the frame is released from its standpipe. -/
  | egressFrameEnd (link : Fin 24)
  /-- GATE_ENTRY_CHANGE (R206): A gate-list entry's interval ends and the next entry's gate states take effect. -/
  | gateEntryChange (link : Fin 24)
  /-- GATE_LIST_TAKEOVER (R207): The pending gate list takes over at its takeover tick. -/
  | gateListTakeover (link : Fin 24)
  /-- GCL_COMMIT (R207): Writing EG_GCL_CTRLn.COMMIT starts validation of the staging list. -/
  | gclCommit (link : Fin 24)
  /-- GCL_VALIDATION_DONE (R207): Gate-list validation ends with STAGED or REFUSED. -/
  | gclValidationDone (link : Fin 24)
  /-- AGING_SCAN (R139): The aging scanner reads a context and starts its expiry or orphan end. -/
  | agingScan (ctx : Fin 8388608)
  /-- FLOW_END (R139): 4,096 cycles after a slot is cleared, the context ends, FLOW_END is raised and the index is freed. -/
  | flowEnd
  /-- FLOW_END_RING_ENABLE (R140): Setting WH_FE_CTRL.EN puts the flow-end ring in use, or is discarded. -/
  | flowEndRingEnable
  /-- FLOW_INSERT (R154): TBL FLOW_INSERT inserts a key through the insert port. -/
  | flowInsert (q : Fin 16)
  /-- FLOW_DELETE (R154): TBL FLOW_DELETE clears a flow's slot and ends its context. -/
  | flowDelete (q : Fin 16)
  /-- FLOW_READ (R154): TBL FLOW_READ copies contexts to host memory. -/
  | flowRead (q : Fin 16)
  /-- DEV_WRITE (R150): TBL DEV_WRITE applies deviation records to flow contexts. -/
  | devWrite (q : Fin 16)
  /-- REHASH_START (R137): TBL REHASH_START sets new seeds and begins a rehash. -/
  | rehashStart (q : Fin 16)
  /-- REHASH_STEP (R137): TBL REHASH_STEP migrates bucket indices to the new set. -/
  | rehashStep (q : Fin 16)
  /-- SENDER_READ (R154): TBL SENDER_READ copies sender entries to host memory. -/
  | senderRead (q : Fin 16)
  /-- SENDER_WRITE (R154): TBL SENDER_WRITE inserts or rebinds a sender address. -/
  | senderWrite (q : Fin 16)
  /-- SENDER_DELETE (R154): TBL SENDER_DELETE removes a sender entry. -/
  | senderDelete (q : Fin 16)
  /-- TABLE_CLEAR (R154): TBL TABLE_CLEAR frees every flow context or sender entry. -/
  | tableClear (q : Fin 16)
  /-- STAGING_BANK_WRITE (R152): A write to a staging bank is applied and disarms the bank, or is discarded while retiring or copying. -/
  | stagingBankWrite (offset : Nat) (value : Word)
  /-- FBANK_ARM (R152): WH_FBANK_CTRL.ARM starts validation of the staging feature bank. -/
  | fbankArm
  /-- FBANK_DISARM (R152): WH_FBANK_CTRL.DISARM clears ARMED. -/
  | fbankDisarm
  /-- FBANK_COPY (R153): WH_FBANK_CTRL.COPY copies the active feature bank into staging. -/
  | fbankCopy
  /-- RBANK_ARM (R170): WH_RBANK_CTRL.ARM starts validation of the staging rule bank. -/
  | rbankArm
  /-- RBANK_DISARM (R170): WH_RBANK_CTRL.DISARM clears ARMED. -/
  | rbankDisarm
  /-- RBANK_COPY (R170): WH_RBANK_CTRL.COPY copies the active rule bank into staging. -/
  | rbankCopy
  /-- EBANK_ARM (R175): WH_EBANK_CTRL.ARM starts validation of the staging ensemble bank. -/
  | ebankArm
  /-- EBANK_DISARM (R175): WH_EBANK_CTRL.DISARM clears ARMED. -/
  | ebankDisarm
  /-- EBANK_COPY (R175): WH_EBANK_CTRL.COPY copies the active ensemble bank into staging. -/
  | ebankCopy
  /-- BANK_VALIDATION_DONE (R152): Validation of a staging feature, rule or ensemble bank ends with ARMED or REFUSED. -/
  | bankValidationDone (bank : BankKind)
  /-- BANK_COPY_DONE (R153): A bank COPY ends and COPYING clears. -/
  | bankCopyDone (bank : BankKind)
  /-- BANK_RETIRED (R153): A former active bank retires once no frame in flight carries its epoch. -/
  | bankRetired (bank : BankKind)
  /-- RULE_LOAD (R169): TBL RULE_LOAD copies a rule-set image into the staging rule bank. -/
  | ruleLoad (q : Fin 16) (stores : List (Nat × List Byte))
  /-- ENS_LOAD (R169): TBL ENS_LOAD loads an ensemble section into the staging ensemble bank. -/
  | ensLoad (q : Fin 16) (stores : List (Nat × List Byte))
  /-- TREE_GROUP_FAIL (R171): A tree group fails or is taken for test, its passes take the default action and the spare is loaded. -/
  | treeGroupFail (group : Fin 25)
  /-- SPARE_GROUP_LOADED (R171): The spare tree group finishes loading and serves the lane. -/
  | spareGroupLoaded
  /-- ENSEMBLE_RUN (R181): TRB ENSEMBLE_RUN scores input records with a batch ensemble. -/
  | ensembleRun (q : Fin 16)
  /-- POLICER_WRITE (R213): TBL POLICER_WRITE checks and writes policer entries. -/
  | policerWrite (q : Fin 16) (stores : List (Nat × List Byte))
  /-- POLICER_READ (R213): TBL POLICER_READ writes policer entries with buckets and counts. -/
  | policerRead (q : Fin 16)
  /-- MATMUL (R233): MAT MATMUL runs blocks of words on the partition's tiles. -/
  | matmul (q : Fin 16) (faults : List (Fin 4 × List Nat))
  /-- CONV (R234): MAT CONV runs a convolution by address generation. -/
  | conv (q : Fin 16) (faults : List (Fin 4 × List Nat))
  /-- MOVE (R235): MAT MOVE copies data between tile buffers and the Cistern or Aquifer. -/
  | move (q : Fin 16)
  /-- TILE_FAIL (R244): A tile fails, its running command completes UNIT_FAULT and UNIT_FAILED is raised. -/
  | tileFail (tile : Fin 68)
  /-- MX_RETIRE (R244): Writing MX_RETIRE.GO fails an active physical tile. -/
  | mxRetire (tile : Fin 128)
  /-- SPARE_TILE_READY (R244): A spare tile's buffer initialisation ends and it awaits the next boundary. -/
  | spareTileReady
  /-- TILE_MIRROR_DONE (R246): The mirror copy of a tile under test completes. -/
  | tileMirrorDone
  /-- VECTOR_UNIT_FAIL (R244): A vector unit fails and its partition is failed. -/
  | vectorUnitFail (part : Fin 16)
  /-- QUANT (R265): VEC QUANT quantises rows to codes with per-row scales. -/
  | quant (q : Fin 16)
  /-- REQUANT (R261): VEC REQUANT requantises 32-bit sums to codes or floats. -/
  | requant (q : Fin 16)
  /-- MAP (R265): VEC MAP applies a function with a fused multiply-add and product. -/
  | map (q : Fin 16)
  /-- REDUCE (R265): VEC REDUCE reduces each row to one binary32 value. -/
  | reduce (q : Fin 16)
  /-- CAPTURE_DRAIN (R275): 1,600 cycles after a seal the bank is written to the capture ring and the capture float advances. -/
  | captureDrain
  /-- CAP_CTRL (R278): TBL CAP_CTRL sets up the capture ring for a boundary. -/
  | capCtrl (q : Fin 16)
  /-- CAP_MAP_LOAD (R279): TBL CAP_MAP_LOAD loads a pending capture map. -/
  | capMapLoad (q : Fin 16) (stores : List (Nat × List Byte))
  /-- CTX_OPEN (R281): TBL CTX_OPEN binds a context to the active model as COLD. -/
  | ctxOpen (q : Fin 16)
  /-- CTX_CLOSE (R281): TBL CTX_CLOSE frees a range of contexts. -/
  | ctxClose (q : Fin 16)
  /-- CTX_READ (R281): TBL CTX_READ writes context entries to host memory. -/
  | ctxRead (q : Fin 16)
  /-- CTX_ADVANCE (R281): TBL CTX_ADVANCE records a seal taken in by contexts of a model. -/
  | ctxAdvance (q : Fin 16)
  /-- MODEL_CFG (R298): TBL MODEL_CFG sets a model bank's regions and limits. -/
  | modelCfg (q : Fin 16)
  /-- PRIME (R300): TBL PRIME checks and loads an image into a model bank. -/
  | prime (q : Fin 16) (stores : List (Nat × List Byte))
  /-- COMMIT (R305): TBL COMMIT arms a primed bank and its per-frame banks for a stroke. -/
  | commit (q : Fin 16)
  /-- ABANDON (R308): TBL ABANDON returns a primed or armed bank to EMPTY. -/
  | abandon (q : Fin 16)
  /-- MODEL_SELECT (R309): TBL MODEL_SELECT checks and records a bank's mapping. -/
  | modelSelect (q : Fin 16)
  /-- MODEL_READ (R304): TBL MODEL_READ writes a bank record. -/
  | modelRead (q : Fin 16)
  /-- RETIRE (R307): TBL RETIRE sets a DRAINING bank's retire stroke. -/
  | retire (q : Fin 16)
  /-- PAGE_CORRECTION (R325): An uncorrectable word locks its page, which is decoded and written back or poisoned. `mem` is 0 for the
  Cistern, 1 for the Aquifer, and 2 for the capture banks, whose words have no page code and are marked (R277): `page` 0 for the bank
  sealed first, 1 for the bank of the current stroke, and each word by its place in the order of R276. -/
  | pageCorrection (mem : Fin 3) (page : Nat) (upsets : List (Nat × Nat × Bool))
  /-- SCRUB_READ (R336): The patrol scrubber reads a Cistern or Aquifer page with its page code. -/
  | scrubRead (mem : Fin 2) (upsets : List (Nat × Nat × Bool)) (columns : Nat)
  /-- CI_REMAP_WORD (R337): CI_REMAP_CMD.GO without RETIRE remaps a Cistern word. -/
  | ciRemapWord (addr : Fin 268435456)
  /-- CI_RETIRE_BANK (R339): CI_REMAP_CMD.GO with RETIRE starts retiring a bank into a spare bank. -/
  | ciRetireBank (addr : Fin 268435456)
  /-- BANK_RETIRE_COPY_DONE (R339): A bank retirement or test mirror copy ends and the spare takes the bank's number. -/
  | bankRetireCopyDone (bank : Fin 2048)
  /-- AQ_REMAP_PAGE (R338): AQ_REMAP_CMD.GO remaps an Aquifer page. -/
  | aqRemapPage (page : Fin 268435456)
  /-- AQUIFER_CHANNEL_RETIRE (R334): Repeated link-ECC or retraining failures retire an Aquifer channel. -/
  | aquiferChannelRetire (channel : Fin 48)
  /-- AQUIFER_ZQ_TRACKING (R333): Every 100 ms a channel repeats ZQ calibration and DQS-oscillator tracking. -/
  | aquiferZqTracking (channel : Fin 48) (passed : Bool) (ecc : Nat)
  /-- FAULT_INJECT_ARM (R470): A write of CI_INJECT_CTRL or AQ_INJECT_CTRL arms an injection on a word. -/
  | faultInjectArm (mem : Fin 2) (value : Word)
  /-- LINK_ENABLE (R341): Setting LK_CTRLn.ENABLE starts bringing a link up. -/
  | linkEnable (link : Fin 40)
  /-- LINK_DISABLE (R341): Host software clears LK_CTRLn.ENABLE and the link parks. -/
  | linkDisable (link : Fin 40)
  /-- PARK (R381): Writing LK_CTRLn.PARK clears ENABLE and parks the link. -/
  | park (link : Fin 40)
  /-- RECAL (R352): Writing LK_CTRLn.RECAL recalibrates a link's rings and clears its dark masks. -/
  | recal (link : Fin 40)
  /-- CLAMP_CLR (R354): Writing LK_CTRLn.CLAMP_CLR starts re-enabling a shuttered link's feed rings. -/
  | clampClr (link : Fin 40)
  /-- CLAMP_RELIGHT_STEP (R354): Each 1 ms the next wavelength's feed ring is re-enabled. -/
  | clampRelightStep (link : Fin 40)
  /-- LINK_UP (R342): A link reaches UP and LINK_UP is raised. -/
  | linkUp (link : Fin 40)
  /-- LINK_DOWN (R342): A link leaves UP, LINK_DOWN is raised and its queued frames are dropped. -/
  | linkDown (link : Fin 40)
  /-- LOSS_OF_LIGHT (R344): Total received power falls below the LOS level. -/
  | lossOfLight (link : Fin 40) (power : BitVec 16)
  /-- APR_RELEASE (R348): 10 ms after every such link has cleared LOS, APR_N is released. -/
  | aprRelease (inlet : Fin 10)
  /-- INLET_LOW (R347): An inlet's power falls below +19.0 dBm and its links go down. -/
  | inletLow (inlet : Fin 10) (power : BitVec 16)
  /-- LANE_FAIL (R355): A wavelength fails and is marked DARK with its feed ring detuned. -/
  | laneFail (link : Fin 40) (wavelength : Fin 8) (fault : LaneFault)
  /-- LANE_SETTLE_EXPIRY (R356): After 2 ms without change the link retrains at a fallback rate and LANE_LOST is raised. -/
  | laneSettleExpiry (link : Fin 40)
  /-- RING_HOP (R351): A heater above code 3,900 moves the ring to the next resonance order. -/
  | ringHop (link : Fin 40) (wavelength : Fin 8) (receive : Bool) (found : Option (Fin 4096))
  /-- OPTICAL_CLAMP_TRIP (R353): The fused comparator trips, the link is shuttered and OPTICAL_CLAMP and VALVE_TRIP are raised. -/
  | opticalClampTrip (link : Fin 40) (power : BitVec 16)
  /-- ENGAGE (R362): Writing ENGAGE moves a pair toward in-line or direct attachment, or is refused. -/
  | engage (pair : Fin 12)
  /-- RELEASE (R361): Writing RELEASE moves a pair toward bypass. -/
  | release (pair : Fin 12)
  /-- BYPASS_MOVE_DONE (R361): SENSE confirms a switch move and the pair enters its next state with BYPASS_CHANGE. -/
  | bypassMoveDone (pair : Fin 12)
  /-- PAIR_TRAINING_TIMEOUT (R361): TIMEOUT ms in TRAINING moves the pair to bypass. -/
  | pairTrainingTimeout (pair : Fin 12)
  /-- AUTO_REVERT (R361): A link of an INLINE pair down for 1 ms moves the pair to bypass. -/
  | autoRevert (pair : Fin 12)
  /-- BYPASS_SENSE_TIMEOUT (R364): SENSE not confirming within 200 µs repeats the pulse, then marks the pair STUCK. -/
  | bypassSenseTimeout (pair : Fin 12)
  /-- FLIT_RECEIVE (R367): A Luapo flit is checked, acknowledged, credited, forwarded or discarded. -/
  | flitReceive (link : Fin 40) (input : FlitIn)
  /-- NAK (R371): A received NAK makes the sender resend from the named sequence number. -/
  | nak (link : Fin 40) (flit : List Byte)
  /-- REPLAY_TIMEOUT (R371): No ACK advance for 2,000 ns makes the sender replay from its oldest unacknowledged flit. -/
  | replayTimeout (link : Fin 40)
  /-- MESSAGE_WRITE (R369): A complete Luapo message is written locally and its remote signal applied. -/
  | messageWrite (link : Fin 40)
  /-- INIT (R375): A received INIT flit advances link bring-up to UP. -/
  | init (link : Fin 40) (flit : List Byte)
  /-- DELAY_REQ (R376): Every 1 ms an UP link sends a DELAY_REQ. -/
  | delayReq (link : Fin 40)
  /-- DELAY_RESP (R376): A received DELAY_RESP yields a one-way delay value. -/
  | delayResp (link : Fin 40) (flit : List Byte)
  /-- ROUTE_WRITE (R374): TBL ROUTE_WRITE writes routing-table entries. -/
  | routeWrite (q : Fin 16) (stores : List (Nat × List Byte))
  /-- ROUTE_READ (R374): TBL ROUTE_READ reads routing-table entries. -/
  | routeRead (q : Fin 16)
  /-- FW_REPLACE (R387): SEC_FW_CTRL.GO with SOURCE 0 stages a module from the Cistern for checking. -/
  | fwReplace (cold : Bool)
  /-- FW_RECOVERY_LOAD (R386): SEC_FW_CTRL.GO with SOURCE 1 checks a recovery-buffer module and writes its slot. -/
  | fwRecoveryLoad
  /-- REC_START (R386): SEC_REC_CTRL.START empties the recovery buffer. -/
  | recStart
  /-- REC_DATA (R386): A write of SEC_REC_DATA appends a word to the recovery buffer. -/
  | recData (value : Word)
  /-- FW_CHECK_DONE (R387): Module verification ends with acceptance or refusal. -/
  | fwCheckDone
  /-- FW_HANDOVER (R389): At the handover boundary CC0 quiesces the core and loads the new code. -/
  | fwHandover (body : List Byte)
  /-- FW_START (R389): The new module signals START and FW_HANDOVER result 0 is raised. -/
  | fwStart
  /-- FW_QUIESCE_TIMEOUT (R391): Quiesce not complete by its limit abandons the handover. -/
  | fwQuiesceTimeout
  /-- FW_START_TIMEOUT (R391): START not signalled by its limit restarts the old module cold. -/
  | fwStartTimeout
  /-- FW_STORE_WRITE_DONE (R392): The new module's store slot write ends and BUSY clears. -/
  | fwStoreWriteDone
  /-- WATCHDOG (R393): A core's watchdog expires, the core stops and is restarted, with bypass for CC0 and CC1. -/
  | watchdog (core : Fin 8)
  /-- LC_CONSENT (R396): Writing the consent key to SEC_LC_CONSENT consents to the next life-cycle GO. -/
  | lcConsent (value : Word)
  /-- LC_GO (R398): SEC_LC_CTRL.GO starts the check of a life-cycle token. -/
  | lcGo (target : Fin 8)
  /-- LIFECYCLE_CHANGE (R398): An accepted transition burns its fuses and raises LIFECYCLE_CHANGE. -/
  | lifecycleChange (healthy : Bool)
  /-- OWNER_ENROL (R399): Writing the key to SEC_OWNER_CTRL enrols the owner key, or is refused. -/
  | ownerEnrol (value : Word)
  /-- ATTESTATION_GO (R401): SEC_ATT_CTRL.GO requests an attestation report. -/
  | attestationGo
  /-- ATTESTATION_DONE (R401): The signed report is written and DONE is set. -/
  | attestationDone
  /-- RV_LOCK (R406): Writing RV_LOCK.LOCK locks the RV registers and power limit. -/
  | rvLock
  /-- LINK_ALLOW_WRITE (R405): A write of RV_LINK_ALLOW parks disallowed links and raises VALVE_TRIP. -/
  | linkAllowWrite (high : Bool) (value : Word)
  /-- DROP_BUDGET_WINDOW (R403): While strokes are not running, each 250,000-cycle window restarts the drop-budget counts. -/
  | dropBudgetWindow
  /-- ORIGINATION_WINDOW_END (R404): The end of a 1 ms window raises VALVE_TRIP for frames refused by the origination cap. -/
  | originationWindowEnd
  /-- POWER_ON (R414): Rails come up and internal reset begins; VID and VID_OK are driven. -/
  | powerOn
  /-- RESET_N (R457): A low pulse on RESET_N resets the module. -/
  | resetN (low : Nat)
  /-- STARTUP (R415): After internal reset release the start-up steps run and READY asserts, or the device holds. -/
  | startup (found : Findings)
  /-- RAIL_WARN_CROSS (R419): A rail falls below its warning level, a window opens and clocks stretch. -/
  | railWarnCross (rail : Fin 9) (mv : Nat)
  /-- BROWNOUT_HALVING (R420): 2 µs below the warning level halves the array and vector clocks. -/
  | brownoutHalving (rail : Fin 9)
  /-- BROWNOUT (R422): 50 µs above the warning level closes the window, restores clocks and raises BROWNOUT. -/
  | brownout (rail : Fin 9)
  /-- RAIL_RESET_LEVEL (R423): A rail at its reset level drives bypass, drops READY and enters internal reset. -/
  | railResetLevel (rail : Fin 9) (mv : Nat)
  /-- VDDC_SET_MOVE (R409): Health firmware moves the VDD_CORE set point through the VID interface. -/
  | vddcSetMove (mv : Nat)
  /-- JUNCTION_SAMPLE (R431): The junction sensors update PWR_TJ and raise THERMAL_WARN. -/
  | junctionSample (tenths : BitVec 16)
  /-- THERMAL_TRIP (R432): 115 °C junction enters the safe state. -/
  | thermalTrip (tenths : BitVec 16)
  /-- CLK_REF_LOSS (R463): CLK_REF absent or off frequency causes a fault reset with bypass latched. -/
  | clkRefLoss
  /-- PE_REFCLK_LOSS (R468): PE_REFCLK stops and the PCI Express link goes down. -/
  | peRefclkLoss
  /-- FULL_BIST_REQUEST (R427): Writing the key to PWR_BIST_CTRL runs a full BIST, or is refused. -/
  | fullBistRequest (key : Word) (coreMv : Nat)
  /-- FULL_BIST_END (R427): A full BIST ends in an internal reset with cause 6. -/
  | fullBistEnd (failed : List (Nat × Nat)) (coreMv : Nat)
  /-- IST_STEP (R428): An in-service test step takes a unit out of service, tests it and returns it or fails it. -/
  | istStep (unit : IstUnit) (fault : Bool) (coreMv : Nat)
  /-- IST_SLICE_ABORT (R429): A request to a single-instance block under test aborts the slice. -/
  | istSliceAbort (block : Fin 19)
  /-- FREEZE_PIN (R437): FREEZE_N held low freezes the 880. -/
  | freezePin
  /-- FREEZE (R437): Writing DBG_CTRL.FREEZE freezes the 880. -/
  | freeze
  /-- FREEZE_EVENT_TRIGGER (R437): The 880 raises the trigger event code and freezes. -/
  | freezeEventTrigger
  /-- PREFREEZE_END (R442): 100 µs after the source the remaining links drop, events are written and the clocks stop. -/
  | prefreezeEnd
  /-- DBG_CAP_GO (R444): DBG_CAP_GO starts a readout, or is refused. -/
  | dbgCapGo
  /-- CAPTURE_READOUT_DONE (R444): The last capture record leaves and DONE is set. -/
  | captureReadoutDone
  /-- DBG_RELEASE (R449): Writing the key to DBG_RELEASE resets a frozen 880. -/
  | dbgRelease (key : Word)
  /-- EXTEST (R448): JTAG EXTEST drives pins while frozen or in reset. -/
  | extest (levels : List Bool) (shift : List Bool)
  /-- IDCODE (R448): JTAG IDCODE selects the identification register. -/
  | idcode
  /-- SAMPLE_PRELOAD (R448): JTAG SAMPLE/PRELOAD samples or preloads the boundary register. -/
  | samplePreload (levels : List Bool) (shift : List Bool)
  /-- DBG_ACCESS (R448): JTAG DBG_ACCESS reads or writes a DBG register. -/
  | dbgAccess (value : Word) (offset : Fin 65536) (write : Bool)
  /-- SCAN_DUMP (R448): JTAG SCAN_DUMP routes a scan chain to the capture port. -/
  | scanDump (chain : Fin 256)
  /-- JTAG_BYPASS (R448): JTAG BYPASS, or an undefined code, selects the bypass register. -/
  | jtagBypass (code : Fin 256) (shift : List Bool)
  /-- SET_ENDPOINT_ID (R466): MCTP Set Endpoint ID assigns the endpoint ID. -/
  | setEndpointId (inst : Fin 32) (operation : Fin 4) (eid : BitVec 8)
  /-- GET_ENDPOINT_ID (R466): MCTP Get Endpoint ID returns the endpoint ID. -/
  | getEndpointId (inst : Fin 32)
  /-- GET_MCTP_VERSION_SUPPORT (R466): MCTP Get MCTP Version Support returns versions. -/
  | getMctpVersionSupport (inst : Fin 32) (type : BitVec 8)
  /-- GET_MESSAGE_TYPE_SUPPORT (R466): MCTP Get Message Type Support returns message types. -/
  | getMessageTypeSupport (inst : Fin 32)
  /-- GETTID (R466): PLDM GetTID returns the terminus ID. -/
  | gettid (inst : Fin 32)
  /-- GETPLDMVERSION (R466): PLDM GetPLDMVersion returns a version. -/
  | getpldmversion (inst : Fin 32) (handle : BitVec 32) (flag : BitVec 8) (type : BitVec 8)
  /-- GETPLDMTYPES (R466): PLDM GetPLDMTypes returns supported types. -/
  | getpldmtypes (inst : Fin 32)
  /-- GETPLDMCOMMANDS (R466): PLDM GetPLDMCommands returns supported commands. -/
  | getpldmcommands (inst : Fin 32) (type : BitVec 8) (version : BitVec 32)
  /-- GETPDRREPOSITORYINFO (R467): PLDM GetPDRRepositoryInfo describes the PDR repository. -/
  | getpdrrepositoryinfo (inst : Fin 32)
  /-- GETPDR (R467): PLDM GetPDR returns a PDR. -/
  | getpdr (inst : Fin 32) (record : BitVec 32) (handle : BitVec 32) (flag : BitVec 8) (count : BitVec 16) (change : BitVec 16)
  /-- GETSENSORREADING (R467): PLDM GetSensorReading returns a numeric sensor reading. -/
  | getsensorreading (inst : Fin 32) (sensor : BitVec 16)
  /-- GETSTATESENSORREADINGS (R467): PLDM GetStateSensorReadings returns state sensor readings. -/
  | getstatesensorreadings (inst : Fin 32) (sensor : BitVec 16)
  /-- UNSUPPORTED_PLDM_CMD (R466): An unsupported command is answered with ERROR_UNSUPPORTED_PLDM_CMD. -/
  | unsupportedPldmCmd (inst : Fin 32) (type : BitVec 8) (command : BitVec 8)
  /-- REGISTER_READ (R10): A host read of a BAR0 register returns its value, latching the high half on a _LO read and resetting read-sensitive fields such as PWR_NOW.PEAK. -/
  | registerRead (bar : Bar) (host : Bool) (offset size : Nat)
  /-- CONFIG_SPACE_WRITE (R56): A host write to PCI Express configuration space sets Max_Payload_Size, Relaxed Ordering enable and other controls that govern later host-memory writes. -/
  | configSpaceWrite (field : ConfigField) (value : Nat)
  /-- HOST_COMPLETION_ERROR (R86): The host completes a request of the 880 with an error and the command that issued it fails with HOST_ERROR. -/
  | hostCompletionError (q : Fin 80)
  /-- ORIGINATED_FRAME_SEND (R404): The 880 originates a frame, such as a PTP message, on a link, where the origination cap sends or refuses it and it enters class ORIG_TC. -/
  | originatedFrameSend (link : Fin 24) (frame : List Byte)
  /-- LANE_LOCK (R366): A lane locks after 3 consecutive codewords with consistent headers, and once all lanes are locked and deskewed, the link moves from LOCKING through DESKEW to INIT. `levels` are the PAM4 levels of the lane's last 3 codewords. -/
  | laneLock (link : Fin 40) (wavelength : Fin 8) (levels : Nat)
  /-- LOS_CLEAR (R344): Total received power rises above −14.0 dBm and LOS clears, starting the APR release delay. -/
  | losClear (link : Fin 40) (power : BitVec 16)
  /-- INLET_POWER_RESTORED (R347): An inlet's total power rises to +19.0 dBm or more and LOW clears, so its enabled links may be brought up. -/
  | inletPowerRestored (inlet : Fin 10) (power : BitVec 16)
  /-- RECAL_DONE (R352): A recalibration ends within 10 ms and the link is brought up again if its ENABLE is 1, or stays PARKED. -/
  | recalDone (link : Fin 40) (codes : List Nat) (fails : List (Fin 8 × Bool))
  /-- CORE_RESTARTED (R393): A core restarted cold after a watchdog expiry begins running, leaving the restarting state within 5 ms. -/
  | coreRestarted (core : Fin 8)
  /-- OWNER_KEY_BURNT (R399): The owner-key digest burn ends within 50 ms, ENROLLED is set and module checks require the owner signature from then on. -/
  | ownerKeyBurnt
  /-- RAIL_ABOVE_WARNING (R421): A rail in a brownout window rises back above its warning level, clearing BELOW_WARN and starting the 50 µs count that closes the window. -/
  | railAboveWarning (rail : Fin 9) (mv : Nat)
  /-- CLK_REF_RESTORED (R463): CLK_REF returns within tolerance and the 10 ms count that ends the held internal reset starts. -/
  | clkRefRestored
  /-- DBG_CLK_LOSS (R468): DBG_CLK stops and the DBG block, the capture port and the management endpoint stop answering. -/
  | dbgClkLoss
  deriving DecidableEq, Repr

end Sys2Proof
end

