-- ==== Sys2Proof/WellFormed.lean ====
section
/-! DEFINITION. Well-formed commands: operands that their types leave wider than the part admits. Every other operand is bounded
by its type. -/

namespace Sys2Proof

/-- Bytes of BAR0 (R15). -/
def barBytes : Nat := 0x4000000

/-- A naturally aligned access of 1, 2, 4 or 8 bytes inside `n` bytes. -/
def accessOk (n offset size : Nat) : Bool :=
  [1, 2, 4, 8].contains size && offset % size == 0 && decide (offset + size ≤ n)

/-- An access of any size and alignment inside `n` bytes: BAR2 answers each (R59, R60). -/
def inBar (n offset size : Nat) : Bool := decide (1 ≤ size) && decide (offset + size ≤ n)

/-- Bytes of BAR2 (R57). -/
def bar2Bytes : Nat := 0x400000

/-- Host software's stores lie in the 64-bit address space. -/
def storesOk (stores : List (Nat × List Byte)) : Bool := stores.all fun w => decide (w.1 + w.2.length ≤ 2 ^ 64)

/-- A page of the Cistern (memory 0, R321) or of the Aquifer (memory 1, R332). -/
def pageOk (mem : Fin 2) (page : Nat) : Bool := decide (page < if mem = 0 then 2 ^ 20 else 384 * 2 ^ 19)

/-- Upset bits of a word of a page: word, flipped stored bits, hard or soft. -/
def upsetOk (mem : Fin 2) (u : Nat × Nat × Bool) : Bool :=
  if mem = 0 then decide (u.1 < 260) && decide (u.2.1 < 2 ^ 137)
  else decide (u.1 ≤ 64) && decide (u.2.1 < 2 ^ (if u.1 = 64 then 1024 else 266))

/-- The heater codes of one link: eight transmit and eight receive rings, 12 bits each (R349). -/
def codesOk (codes : List Nat) : Bool := codes.length == 16 && codes.all (· < 4096)

/-- A unit as PWR_BIST_LOG names it (R426). -/
def failureOk (f : Nat × Nat) : Bool := decide (1 ≤ f.1) && decide (f.1 ≤ 9) && decide (f.2 < 2 ^ 16)

/-- A rate and a width that an Endpoint of PCI Express 6.0 trains to; 64 GT/s needs flit mode (R54, GLB_CAP). -/
def pcieOk (l : PcieLink) : Bool :=
  decide (1 ≤ l.rate) && decide (l.rate ≤ 6) && [1, 2, 4, 8, 16].contains l.width && (l.flit || decide (l.rate < 6))

/-- What start-up meets is complete. -/
def foundOk (f : Findings) : Bool :=
  pcieOk f.pcie && f.rails.length == 9 && f.rails.all (· < 2 ^ 16) && f.failed.all failureOk && f.inlets.length == 10 && f.inlets.all (· < 2 ^ 16)
    && f.codes.length == 40 && f.codes.all codesOk

/-- The PLDM commands that the endpoint supports (R466). -/
def pldmSupported (type command : Nat) : Bool :=
  (type == 0 && [2, 3, 4, 5].contains command) || (type == 2 && [0x11, 0x21, 0x50, 0x51].contains command)

/-- A command's operands are ones that the part can meet. -/
def Instr.wf : Instr → Bool
  | .ptpMeasurement ptpNs logInterval => decide (ptpNs < 2 ^ 64) && decide (-128 ≤ logInterval) && decide (logInterval ≤ 127)
  | .strokeMarkerReceive _ flit => flit.length == 256
  | .powerMeasurement watts rails => decide (watts < 2 ^ 16) && rails.length == 9 && rails.all (· < 2 ^ 16)
  | .registerWrite _ offset _ _ => decide (offset < barBytes)
  | .sqTailWrite _ offset size value stores =>
    inBar 0x1000 offset size && decide (value < 2 ^ (8 * size)) && storesOk stores
  | .cqHeadWrite _ offset size value => inBar 0x1000 offset size && decide (value < 2 ^ (8 * size))
  | .descriptorFetch _ stores => storesOk stores
  | .floatSetWrite _ offset size _ => decide (offset < 8) && decide (1 ≤ size)
  | .floatAddWrite _ offset size _ => decide (offset < 8) && decide (1 ≤ size)
  | .copy _ stores => storesOk stores
  | .bar4Read offset size => decide (offset + size ≤ 2 ^ 30) && decide (1 ≤ size)
  | .bar4Write offset data => decide (offset + data.length ≤ 2 ^ 30) && decide (1 ≤ data.length)
  | .frameReceive _ _ chunk _ => decide (chunk.bytes.length ≤ 16384)
  | .ruleWordRefetch _ _ word => decide (word < 2 ^ 23)
  | .stagingBankWrite offset _ => decide (offset < barBytes) && offset % 4 == 0
  | .ruleLoad _ stores => storesOk stores
  | .ensLoad _ stores => storesOk stores
  | .policerWrite _ stores => storesOk stores
  | .matmul _ faults => faults.all fun f => f.2.all (· < 2 ^ 21)
  | .conv _ faults => faults.all fun f => f.2.all (· < 2 ^ 21)
  | .capMapLoad _ stores => storesOk stores
  | .prime _ stores => storesOk stores
  | .pageCorrection mem page upsets =>
    if mem = 2 then decide (page < 2) && upsets.all (·.1 < 200704)
    else let m : Fin 2 := if mem = 1 then 1 else 0
      pageOk m page && upsets.all fun u => upsetOk m u
  | .scrubRead mem upsets columns => (upsets.all fun u => upsetOk mem u) && decide (columns < 2 ^ (if mem = 0 then 8 else 16))
  | .flitReceive _ input => (match input with
    | .flit bytes => bytes.length == 256
    | .words levels => decide (levels.length ≤ 8) && levels.all fun l => decide (l < 2 ^ 10880))
  | .nak _ flit => flit.length == 256
  | .init _ flit => flit.length == 256
  | .delayResp _ flit => flit.length == 256
  | .routeWrite _ stores => storesOk stores
  | .resetN low => decide (0 < low)
  | .startup found => foundOk found
  | .railWarnCross _ mv => decide (mv < 2 ^ 16)
  | .railResetLevel _ mv => decide (mv < 2 ^ 16)
  | .vddcSetMove mv => decide (600 ≤ mv) && decide (mv ≤ 800)
  | .fullBistRequest _ coreMv => decide (coreMv < 2 ^ 16)
  | .fullBistEnd failed coreMv => decide (coreMv < 2 ^ 16) && failed.all failureOk
  | .istStep _ _ coreMv => decide (coreMv < 2 ^ 16)
  | .extest levels _ => levels.length == 31
  | .samplePreload levels _ => levels.length == 31
  | .jtagBypass code _ => !([0, 1, 2, 0x20, 0x21].contains code.val)
  | .unsupportedPldmCmd _ type command => !pldmSupported type.toNat command.toNat
  | .registerRead bar _ offset size => if bar = .bar0 then accessOk barBytes offset size else inBar bar2Bytes offset size
  | .configSpaceWrite _ value => decide (value < 2 ^ 32)
  | .laneLock _ _ levels => decide (levels < 2 ^ 16320)
  | .lossOfLight _ power => decide (power.toInt < -1600)
  | .losClear _ power => decide (-1400 < power.toInt)
  | .inletLow _ power => decide (power.toInt < 1900)
  | .inletPowerRestored _ power => decide (1900 ≤ power.toInt)
  | .opticalClampTrip _ power => decide (900 ≤ power.toInt)
  | .originatedFrameSend _ frame => decide (60 ≤ frame.length) && decide (frame.length ≤ 16380)
  | .recalDone _ codes _ => codesOk codes
  | .railAboveWarning _ mv => decide (mv < 2 ^ 16)
  | .strokeBoundary | .openingBoundary | .ppsEdge | .holdoverEntry | .holdoverExpiry | .stkEnableSet | .stkEnableClear
  | .stkPeriodWrite _ | .commandAdmit _ | .completionRecordWrite _ | .waitSatisfied _ | .nop _ | .wait _ | .set _
  | .arm _ | .timestamp _ | .transpose _ | .hostRequestTimeout _ | .queueEnable _ | .queueDisable _ | .queueStop _
  | .queueResume _ | .queueReset _ | .dmaHaltClear _ | .dmaWindowWrite _ _ _ | .hifLock | .evtRingEnable
  | .evtHeadWrite _ | .eventLoss | .evtHaltClear | .irqHoldoffExpiry _ | .msixUnmask _ | .glbReset _
  | .functionLevelReset | .standpipeFlush _ | .linkModeWrite _ _ | .headDeal | .flowLookup _ | .flowInsertPort
  | .insertWaitTimeout _ | .relocationChain | .featureProgram _ | .ruleClassify _ | .treeIssue _ | .verdictStage _
  | .verdictDeadline _ _ | .reorderRelease _ | .verdictFrameHoldExpiry _ | .egressEnqueue | .egressSelect _
  | .egressFrameEnd _ | .gateEntryChange _ | .gateListTakeover _ | .gclCommit _ | .gclValidationDone _ | .agingScan _
  | .flowEnd | .flowEndRingEnable | .flowInsert _ | .flowDelete _ | .flowRead _ | .devWrite _ | .rehashStart _
  | .rehashStep _ | .senderRead _ | .senderWrite _ | .senderDelete _ | .tableClear _ | .fbankArm | .fbankDisarm
  | .fbankCopy | .rbankArm | .rbankDisarm | .rbankCopy | .ebankArm | .ebankDisarm | .ebankCopy | .bankValidationDone _
  | .bankCopyDone _ | .bankRetired _ | .treeGroupFail _ | .spareGroupLoaded | .ensembleRun _ | .policerRead _ | .move _
  | .tileFail _ | .mxRetire _ | .spareTileReady | .tileMirrorDone | .vectorUnitFail _ | .quant _ | .requant _ | .map _
  | .reduce _ | .captureDrain | .capCtrl _ | .ctxOpen _ | .ctxClose _ | .ctxRead _ | .ctxAdvance _ | .modelCfg _
  | .commit _ | .abandon _ | .modelSelect _ | .modelRead _ | .retire _ | .ciRemapWord _ | .ciRetireBank _
  | .bankRetireCopyDone _ | .aqRemapPage _ | .aquiferChannelRetire _ | .aquiferZqTracking _ _ _ | .faultInjectArm _ _
  | .linkEnable _ | .linkDisable _ | .park _ | .recal _ | .clampClr _ | .clampRelightStep _ | .linkUp _ | .linkDown _
  | .aprRelease _ | .laneFail _ _ _ | .laneSettleExpiry _ | .ringHop _ _ _ _
  | .engage _ | .release _ | .bypassMoveDone _ | .pairTrainingTimeout _ | .autoRevert _
  | .bypassSenseTimeout _ | .replayTimeout _ | .messageWrite _ | .delayReq _ | .routeRead _ | .fwReplace _
  | .fwRecoveryLoad | .recStart | .recData _ | .fwCheckDone | .fwHandover _ | .fwStart | .fwQuiesceTimeout
  | .fwStartTimeout | .fwStoreWriteDone | .watchdog _ | .lcConsent _ | .lcGo _ | .lifecycleChange _ | .ownerEnrol _
  | .attestationGo | .attestationDone | .rvLock | .linkAllowWrite _ _ | .dropBudgetWindow | .originationWindowEnd
  | .powerOn | .brownoutHalving _ | .brownout _ | .junctionSample _ | .thermalTrip _ | .clkRefLoss | .peRefclkLoss
  | .istSliceAbort _ | .freezePin | .freeze | .freezeEventTrigger | .prefreezeEnd | .dbgCapGo | .captureReadoutDone
  | .dbgRelease _ | .idcode | .dbgAccess _ _ _ | .scanDump _ | .setEndpointId _ _ _ | .getEndpointId _
  | .getMctpVersionSupport _ _ | .getMessageTypeSupport _ | .gettid _ | .getpldmversion _ _ _ _ | .getpldmtypes _
  | .getpldmcommands _ _ _ | .getpdrrepositoryinfo _ | .getpdr _ _ _ _ _ _ | .getsensorreading _ _
  | .getstatesensorreadings _ _ | .hostCompletionError _
  | .coreRestarted _ | .ownerKeyBurnt | .clkRefRestored | .dbgClkLoss => true

end Sys2Proof
end

