-- ==== Sys2Proof/Machine/Basics.lean ====
section
/-! DEFINITION. Bit fields, little-endian bytes and sparse tables: the plain functions every block of the model uses. -/

namespace Sys2Proof.Machine

/-- Bits `[lo + w - 1 : lo]` of a number. -/
def bits (v lo w : Nat) : Nat := v / 2 ^ lo % 2 ^ w

/-- Bit `i` of a number. -/
def bit (v i : Nat) : Bool := v / 2 ^ i % 2 == 1

/-- `v` with bits `[lo + w - 1 : lo]` replaced by the low `w` bits of `x`. -/
def setBits (v lo w x : Nat) : Nat :=
  v - bits v lo w * 2 ^ lo + (x % 2 ^ w) * 2 ^ lo

/-- A `w`-bit two's complement value as an integer. -/
def sInt (w v : Nat) : Int :=
  let u := v % 2 ^ w
  if u < 2 ^ (w - 1) then (u : Int) else (u : Int) - (2 ^ w : Nat)

/-- An integer as a `w`-bit two's complement value. -/
def uInt (w : Nat) (i : Int) : Nat := (i % ((2 ^ w : Nat) : Int)).toNat

/-- An integer held between two bounds. -/
def clampInt (lo hi i : Int) : Int := max lo (min hi i)

/-- 1 for true, 0 for false. -/
def b2n (b : Bool) : Nat := if b then 1 else 0

/-- Division rounded up. -/
def ceilDiv (a b : Nat) : Nat := (a + b - 1) / b

/-- A saturating 32-bit count (the counters of the register tables). -/
def sat32 (n : Nat) : Nat := min n 0xFFFFFFFF

/-- The little-endian number that a run of bytes spells (R7). -/
def bytesNat : List Byte → Nat
  | [] => 0
  | b :: bs => b.toNat + 256 * bytesNat bs

/-- The low `n` bytes of a number, least significant first (R7). -/
def natBytes : Nat → Nat → List Byte
  | 0, _ => []
  | n + 1, v => BitVec.ofNat 8 v :: natBytes n (v / 256)

/-- `n` zero bytes. -/
def zeros (n : Nat) : List Byte := List.replicate n 0

/-- Byte `i` of a run of bytes, 0 past its end. -/
def byteAt (bs : List Byte) (i : Nat) : Nat := (bs.getD i 0).toNat

/-- The little-endian field of `n` bytes at offset `o` of a structure. -/
def fieldAt (bs : List Byte) (o n : Nat) : Nat := bytesNat ((bs.drop o).take n)

/-- A run of bytes with those at offset `o` replaced by `new`. -/
def putBytes (bs : List Byte) (o : Nat) (new : List Byte) : List Byte :=
  bs.take o ++ new ++ bs.drop (o + new.length)

/-- A structure with the `n`-byte field at offset `o` set to `v`. -/
def putField (bs : List Byte) (o n v : Nat) : List Byte := putBytes bs o (natBytes n v)

/-- A run of bytes cut or zero-padded to `n` bytes. -/
def padTo (n : Nat) (bs : List Byte) : List Byte := (bs ++ zeros (n - bs.length)).take n

/-- Whether all bytes are 0: the check of a reserved field. -/
def allZero (bs : List Byte) : Bool := bs.all (· == 0)

/-- The exclusive or of two runs of bytes. -/
def xorBytes (a b : List Byte) : List Byte := List.zipWith (· ^^^ ·) a b

/-- The entry of a sparse table at `k`; `d` where it is not listed. -/
def sget {α : Type} (d : α) : SMap α → Nat → α
  | [], _ => d
  | (j, v) :: m, k => if j = k then v else sget d m k

/-- A sparse table with entry `k` put in its place by key, over one that stands there. -/
def sput {α : Type} : SMap α → Nat → α → SMap α
  | [], k, v => [(k, v)]
  | (j, w) :: m, k, v =>
    if k < j then (k, v) :: (j, w) :: m
    else if k = j then (k, v) :: m
    else (j, w) :: sput m k v

/-- A sparse table with entry `k` set to `v`; an entry equal to the default is removed, and the order kept. -/
def sset {α : Type} [DecidableEq α] (d : α) (m : SMap α) (k : Nat) (v : α) : SMap α :=
  if v = d then m.filter fun e => e.1 != k else sput m k v

/-- The canonical form of a sparse table: keys strictly rising, no entry equal to the default. -/
def swf {α : Type} [DecidableEq α] (d : α) : SMap α → Bool
  | [] => true
  | [(_, v)] => decide (v ≠ d)
  | (j, v) :: (k, w) :: m => decide (v ≠ d) && decide (j < k) && swf d ((k, w) :: m)

/-- A sparse table with entry `k` passed through `f`. -/
def smod {α : Type} [DecidableEq α] (d : α) (m : SMap α) (k : Nat) (f : α → α) : SMap α :=
  sset d m k (f (sget d m k))

/-- One byte of a memory: an unlisted address reads 0. -/
def Memory.byte (m : Mem) (a : Nat) : Byte := sget 0 m a

/-- A memory with one byte written. -/
def Memory.setByte (m : Mem) (a : Nat) (v : Byte) : Mem := sset 0 m a v

/-- `n` bytes of a memory from address `a`. -/
def Memory.read (m : Mem) (a n : Nat) : List Byte := (List.range n).map fun i => Memory.byte m (a + i)

/-- A memory with a run of bytes written at address `a`. -/
def Memory.write (m : Mem) (a : Nat) : List Byte → Mem
  | [] => m
  | b :: bs => Memory.write (Memory.setByte m a b) (a + 1) bs

/-- The canonical form of a memory: addresses strictly rising, no listed byte 0. -/
def Memory.wf (m : Mem) : Bool := swf 0 m

/-- The first `some` of a function over a list. -/
def firstSome {α β : Type} (f : α → Option β) : List α → Option β
  | [] => none
  | a :: as => match f a with
    | some b => some b
    | none => firstSome f as

/-- The elements of a list for which `p` holds, counted. -/
def countIf {α : Type} (p : α → Bool) (l : List α) : Nat := (l.filter p).length

/-- A list with element `i` passed through `f`; unchanged past the end. -/
def modAt {α : Type} (l : List α) (i : Nat) (f : α → α) : List α :=
  match l, i with
  | [], _ => []
  | a :: as, 0 => f a :: as
  | a :: as, i + 1 => a :: modAt as i f

/-- Insertion into a list kept in rising order of `key`, after equal keys. -/
def insertBy {α : Type} (key : α → Nat) (x : α) : List α → List α
  | [] => [x]
  | y :: ys => if key x < key y then x :: y :: ys else y :: insertBy key x ys

/-- A list in rising order of `key`, equal keys kept in order. -/
def sortBy {α : Type} (key : α → Nat) (l : List α) : List α := l.foldl (fun acc x => insertBy key x acc) []

end Sys2Proof.Machine
end

