-- ==== Sys2Proof/Machine/Codes.lean ====
section
/-! DEFINITION. The word code and the page code of the Cistern, the Aquifer and the tile buffers (R317-R322, R332), and
CRC-32C (R126). -/

namespace Sys2Proof.Machine

/-- The three coded memories; a tile buffer by its tile. -/
inductive MemId where
  | cis | aq | buf (tile : Nat)
  deriving DecidableEq, Repr

/-- Bytes of a word: 16, in the Aquifer 32 (R332). -/
def MemId.wordBytes : MemId → Nat
  | .aq => 32
  | _ => 16

/-- Data bits of a word. -/
def MemId.dataBits (m : MemId) : Nat := 8 * m.wordBytes

/-- Check bits with a position: c0-c7, in the Aquifer c0-c8; the overall bit comes after them. -/
def MemId.checkBits : MemId → Nat
  | .aq => 9
  | _ => 8

/-- Words of a page. -/
def MemId.pageWords : MemId → Nat
  | .aq => 64
  | _ => 256

/-- Symbol columns of a page. -/
def MemId.columns (m : MemId) : Nat := m.wordBytes / 2

/-- The syndrome of the poison pattern: 255, in the Aquifer 511 (R319, R332). -/
def MemId.poisonSyn (m : MemId) : Nat := 2 ^ m.checkBits - 1

/-- Highest position of the word code: 136, in the Aquifer 265. -/
def MemId.topPos (m : MemId) : Nat := m.dataBits + m.checkBits

/-- The position of data bit `i`: the (i + 1)-th integer of 3 or more that is no power of two (R317). `m` counts the
powers of two below it. -/
def dataPosFrom (i : Nat) : Nat → Nat → Nat
  | 0, m => i + 1 + m
  | n + 1, m => if i + 1 + m < 2 ^ m then i + 1 + m else dataPosFrom i n (m + 1)

def dataPos (i : Nat) : Nat := dataPosFrom i 10 2

/-- The position of stored bit `i` of a word: data bits first, then the check bits; the overall bit has none. -/
def bitPos (m : MemId) (i : Nat) : Nat :=
  if i < m.dataBits then dataPos i
  else if i < m.dataBits + m.checkBits then 2 ^ (i - m.dataBits) else 0

/-- The set bits of a number below `n`. -/
def setBitsOf (n v : Nat) : List Nat := if v = 0 then [] else (List.range n).filter fun i => bit v i

/-- Syndrome and overall parity of a stored word whose bits `mask` are wrong (R318): both codes are linear. -/
def syndrome (m : MemId) (mask : Nat) : Nat × Nat :=
  let on := setBitsOf (m.dataBits + m.checkBits + 1) mask
  (on.foldl (fun a i => a ^^^ bitPos m i) 0, on.length % 2)

/-- The check bits c0 up of a data word (R317), the overall bit on top. -/
def wordCheck (m : MemId) (d : Nat) : Nat :=
  let on := setBitsOf m.dataBits d
  let c := on.foldl (fun a i => a ^^^ dataPos i) 0
  c + 2 ^ m.checkBits * ((on.length + (setBitsOf m.checkBits c).length) % 2)

/-- What a read of a word finds (R318). -/
inductive WordOut where
  | clean | fixed (pos : Nat) | bad | poison
  deriving DecidableEq, Repr

/-- The outcome table of R318 (R332 for the Aquifer) for a word stored with syndrome `base` and even parity whose bits `mask` are
wrong since; `.fixed 0` is a wrong overall bit, which has no position. -/
def wordOutFrom (base : Nat) (m : MemId) (mask : Nat) : WordOut :=
  let (s0, p) := syndrome m mask
  let s := base ^^^ s0
  if s = 0 then (if p = 1 then .fixed 0 else .clean)
  else if p = 1 then (if s ≤ m.topPos then .fixed s else .bad)
  else if s = m.poisonSyn then .poison else .bad

/-- The outcome for a word stored with matching codes. -/
def wordOut (m : MemId) (mask : Nat) : WordOut := wordOutFrom 0 m mask

/-- The data bit at a position, if one lies there. -/
def dataAt (m : MemId) (pos : Nat) : Option Nat := (List.range m.dataBits).find? fun i => dataPos i == pos

/-- The data bits that a word is delivered wrong in, when its read finds `out` and its stored bits `mask` are wrong: none where the
word code fails, since the page code then recovers the word (R325), under a stuck cell at every read (R470). -/
def errOf (m : MemId) (out : WordOut) (mask : Nat) : Nat :=
  let d := mask % 2 ^ m.dataBits
  match out with
  | .fixed s => match dataAt m s with
    | some i => d ^^^ 2 ^ i
    | none => d
  | .bad => 0
  | _ => d

/-- The same for a word stored with matching codes. -/
def deliveredErr (m : MemId) (mask : Nat) : Nat := errOf m (wordOut m mask) mask

/-- The stored-bit mask of a word whose data bits `d` are wrong under fresh, matching codes. -/
def silentMask (m : MemId) (d : Nat) : Nat := d + 2 ^ m.dataBits * wordCheck m d

/-! ## The page code (R321-R323) -/

/-- Multiplication by α in GF(2^16) with x^16 + x^12 + x^3 + x + 1. -/
def gfTimesX (a : Nat) : Nat :=
  let b := 2 * a
  if b < 65536 then b else (b ^^^ 0x1100B) % 65536

/-- Multiplication in GF(2^16). -/
def gfMulFrom : Nat → Nat → Nat → Nat
  | 0, _, _ => 0
  | n + 1, a, b => (if b % 2 = 1 then a else 0) ^^^ gfMulFrom n (gfTimesX a) (b / 2)

def gfMul (a b : Nat) : Nat := gfMulFrom 16 a b

/-- The check vector of a column shifted by one word and reduced by g(x): r(x) × x mod g(x). -/
def rsShift (r : List Nat) : List Nat :=
  let top := r.getD 3 0
  [gfMul top 0x40, r.getD 0 0 ^^^ gfMul top 0x78, r.getD 1 0 ^^^ gfMul top 0x36, r.getD 2 0 ^^^ gfMul top 0xF]

/-- R_w = x^(w+4) mod g(x) (R323). -/
def rsR : Nat → List Nat
  | 0 => [0x40, 0x78, 0x36, 0xF]
  | w + 1 => rsShift (rsR w)

/-- The check symbols of a column of data symbols, word 0 first (R322), by Horner's rule from the last word down. -/
def rsCheck (col : List Nat) : List Nat :=
  col.reverse.foldl (fun r d =>
    let s := rsShift r
    List.zipWith (fun a b => a ^^^ gfMul d b) s [0x40, 0x78, 0x36, 0xF]) [0, 0, 0, 0]

/-- The page code's update for a symbol of word `w` that changes by `delta` (R323). -/
def rsDelta (r : List Nat) (w delta : Nat) : List Nat := List.zipWith (fun a b => a ^^^ gfMul delta b) r (rsR w)

/-! ## CRC-32C (R126) -/

/-- Bits of a byte into a reflected CRC register of the given polynomial. -/
def crcStep (poly : Nat) : Nat → Nat → Nat
  | 0, c => c
  | n + 1, c => crcStep poly n (if c % 2 = 1 then (c / 2) ^^^ poly else c / 2)

/-- A reflected CRC with a final XOR of all ones in 32 bits. -/
def crcOf (poly seed : Nat) (bs : List Byte) : Nat :=
  (bs.foldl (fun c b => crcStep poly 8 (c ^^^ b.toNat)) seed) ^^^ 0xFFFFFFFF

/-- CRC-32C with the initial value replaced by a seed and the final XOR kept (R126). -/
def crc32c (seed : Nat) (bs : List Byte) : Nat := crcOf 0x82F63B78 seed bs

/-- The Ethernet frame check sequence of IEEE 802.3: CRC-32, least significant byte first (log 11). -/
def fcs (bs : List Byte) : List Byte := natBytes 4 (crcOf 0xEDB88320 0xFFFFFFFF bs)

/-- A frame with its check sequence appended. -/
def withFcs (bs : List Byte) : List Byte := bs ++ fcs bs

/-- CRC-64 of a flit's bytes 0-247: polynomial 0x42F0_E1EB_A9EA_3693 reflected, initial value and final XOR all ones (R367). -/
def crc64 (bs : List Byte) : Nat :=
  (bs.foldl (fun c b => crcStep 0xC96C5795D7870F42 8 (c ^^^ b.toNat)) 0xFFFFFFFFFFFFFFFF) ^^^ 0xFFFFFFFFFFFFFFFF

end Sys2Proof.Machine
end

