-- ==== Sys2Proof/Config.lean ====
section
/-! DEFINITION. What an implementation fixes, and the free values: constants without a body, of which no proof can learn
a value. Each is named in a row of notes/assumptions. -/

namespace Sys2Proof

/-- A value the spec leaves open, one for each time one is needed: `State.fresh` is the argument and rises by one at each
use (log 10). A width is taken from it by the reader. -/
opaque Config.free : Nat → Nat

/-- How late the read side of a standpipe sees what has been written of a frame, in core cycles up to 2, and how late the writer
sees space freed at a time, in ticks up to 3 (R109): the spec gives the greatest lag only (log 34). -/
opaque Config.readLag : Nat → Nat
opaque Config.writeLag : Nat → Nat

/-- Gorpor's JEP106 manufacturer code (R448): the spec does not give its number. -/
opaque Config.jep106 : Nat

/-- Gorpor's assigned PCI vendor identifier (R54): the spec does not give its number. -/
opaque Config.vendorId : Nat

/-- The version of an MCTP message type and of a PLDM type that the management endpoint answers (R466): not given. -/
opaque Config.mctpVersion : Nat → BitVec 32
opaque Config.pldmVersion : Nat → BitVec 32

/-- Bytes of a platform descriptor record that the spec does not give (R467): record handle, byte. -/
opaque Config.pdrByte : Nat → Nat → BitVec 8

/-- Bytes of the repository information that the spec does not give (R467): update times and transfer timeout. -/
opaque Config.pdrInfo : Nat → BitVec 8

end Sys2Proof
end

