-- ==== Sys2Proof/Machine/RegNames.lean ====
section
/-! DEFINITION. The names of the BAR0 registers and of their fields (R9, R15, R63), written from the register tables of
spec/: one `R.` name per register (its BAR0 offset) and one `F.` name per field. -/

namespace Sys2Proof.Machine

/-- A field of a 32-bit register: the register's BAR0 offset, the field's lowest bit and its width. -/
structure Fld where
  reg : Nat
  lo  : Nat
  w   : Nat
  deriving DecidableEq, Repr

abbrev R.STK_CTRL : Nat := 0x10000
abbrev F.STK_CTRL_ENABLE : Fld := ⟨R.STK_CTRL, 0, 1⟩
abbrev F.STK_CTRL_SOURCE : Fld := ⟨R.STK_CTRL, 1, 3⟩
abbrev F.STK_CTRL_PTP_LINK : Fld := ⟨R.STK_CTRL, 4, 5⟩
abbrev F.STK_CTRL_ROLE : Fld := ⟨R.STK_CTRL, 9, 2⟩
abbrev R.STK_STATUS : Nat := 0x10004
abbrev F.STK_STATUS_STATE : Fld := ⟨R.STK_STATUS, 0, 3⟩
abbrev F.STK_STATUS_PERIOD_PENDING : Fld := ⟨R.STK_STATUS, 3, 1⟩
abbrev F.STK_STATUS_PERIOD_REJECT : Fld := ⟨R.STK_STATUS, 4, 1⟩
abbrev R.STK_PERIOD : Nat := 0x10008
abbrev F.STK_PERIOD_PERIOD : Fld := ⟨R.STK_PERIOD, 0, 32⟩
abbrev R.STK_ACTIVE_PERIOD : Nat := 0x1000c
abbrev F.STK_ACTIVE_PERIOD_PERIOD : Fld := ⟨R.STK_ACTIVE_PERIOD, 0, 32⟩
abbrev R.STK_NOW_LO : Nat := 0x10010
abbrev F.STK_NOW_LO_NOW : Fld := ⟨R.STK_NOW_LO, 0, 32⟩
abbrev R.STK_NOW_HI : Nat := 0x10014
abbrev F.STK_NOW_HI_NOW : Fld := ⟨R.STK_NOW_HI, 0, 32⟩
abbrev R.STK_BASE_LO : Nat := 0x10018
abbrev F.STK_BASE_LO_BASE : Fld := ⟨R.STK_BASE_LO, 0, 32⟩
abbrev R.STK_BASE_HI : Nat := 0x1001c
abbrev F.STK_BASE_HI_BASE : Fld := ⟨R.STK_BASE_HI, 0, 32⟩
abbrev R.STK_ORIGIN_LO : Nat := 0x10020
abbrev F.STK_ORIGIN_LO_ORIGIN : Fld := ⟨R.STK_ORIGIN_LO, 0, 32⟩
abbrev R.STK_ORIGIN_HI : Nat := 0x10024
abbrev F.STK_ORIGIN_HI_ORIGIN : Fld := ⟨R.STK_ORIGIN_HI, 0, 32⟩
abbrev R.STK_TIME_LO : Nat := 0x10028
abbrev F.STK_TIME_LO_TIME : Fld := ⟨R.STK_TIME_LO, 0, 32⟩
abbrev R.STK_TIME_HI : Nat := 0x1002c
abbrev F.STK_TIME_HI_TIME : Fld := ⟨R.STK_TIME_HI, 0, 32⟩
abbrev R.STK_PERIOD_AT_LO : Nat := 0x10030
abbrev F.STK_PERIOD_AT_LO_AT : Fld := ⟨R.STK_PERIOD_AT_LO, 0, 32⟩
abbrev R.STK_PERIOD_AT_HI : Nat := 0x10034
abbrev F.STK_PERIOD_AT_HI_AT : Fld := ⟨R.STK_PERIOD_AT_HI, 0, 32⟩
abbrev R.STK_HOLDOVER : Nat := 0x10038
abbrev F.STK_HOLDOVER_MS : Fld := ⟨R.STK_HOLDOVER, 0, 16⟩
abbrev R.STK_STEP_LIMIT : Nat := 0x1003c
abbrev F.STK_STEP_LIMIT_NS : Fld := ⟨R.STK_STEP_LIMIT, 0, 32⟩
abbrev R.STK_TOD_SEC : Nat := 0x10040
abbrev F.STK_TOD_SEC_SEC : Fld := ⟨R.STK_TOD_SEC, 0, 32⟩
abbrev R.STK_MARKER_LINKS : Nat := 0x10044
abbrev F.STK_MARKER_LINKS_LINKS : Fld := ⟨R.STK_MARKER_LINKS, 0, 32⟩
abbrev R.STK_BUDGET (a : Nat) : Nat := 0x10100 + 0x4 * a
abbrev F.STK_BUDGET_BUDGET (a : Nat) : Fld := ⟨(R.STK_BUDGET a), 0, 32⟩
abbrev R.STK_QPOL (a : Nat) : Nat := 0x10300 + 0x4 * a
abbrev F.STK_QPOL_POLICY (a : Nat) : Fld := ⟨(R.STK_QPOL a), 0, 1⟩
abbrev F.STK_QPOL_PRIO (a : Nat) : Fld := ⟨(R.STK_QPOL a), 4, 3⟩
abbrev R.STK_QUSED (a : Nat) : Nat := 0x10500 + 0x4 * a
abbrev F.STK_QUSED_USED (a : Nat) : Fld := ⟨(R.STK_QUSED a), 0, 32⟩
abbrev R.GLB_ID : Nat := 0x0
abbrev F.GLB_ID_PART : Fld := ⟨R.GLB_ID, 0, 16⟩
abbrev F.GLB_ID_STEPPING : Fld := ⟨R.GLB_ID, 16, 8⟩
abbrev F.GLB_ID_FAMILY : Fld := ⟨R.GLB_ID, 24, 8⟩
abbrev R.GLB_STATUS : Nat := 0x4
abbrev F.GLB_STATUS_READY : Fld := ⟨R.GLB_STATUS, 0, 1⟩
abbrev F.GLB_STATUS_FAULT_HOLD : Fld := ⟨R.GLB_STATUS, 1, 1⟩
abbrev F.GLB_STATUS_EVT_HALT : Fld := ⟨R.GLB_STATUS, 2, 1⟩
abbrev F.GLB_STATUS_FROZEN : Fld := ⟨R.GLB_STATUS, 3, 1⟩
abbrev F.GLB_STATUS_STAGE : Fld := ⟨R.GLB_STATUS, 4, 4⟩
abbrev F.GLB_STATUS_LIFECYCLE : Fld := ⟨R.GLB_STATUS, 8, 3⟩
abbrev R.GLB_CAP : Nat := 0x8
abbrev F.GLB_CAP_ACTIVE_TILES : Fld := ⟨R.GLB_CAP, 0, 7⟩
abbrev F.GLB_CAP_SPARES_LEFT : Fld := ⟨R.GLB_CAP, 7, 3⟩
abbrev F.GLB_CAP_PCIE_RATE : Fld := ⟨R.GLB_CAP, 10, 4⟩
abbrev F.GLB_CAP_PCIE_WIDTH : Fld := ⟨R.GLB_CAP, 14, 5⟩
abbrev F.GLB_CAP_FLIT : Fld := ⟨R.GLB_CAP, 19, 1⟩
abbrev R.GLB_SCRATCH : Nat := 0xc
abbrev F.GLB_SCRATCH_DATA : Fld := ⟨R.GLB_SCRATCH, 0, 32⟩
abbrev R.GLB_SERIAL_LO : Nat := 0x10
abbrev F.GLB_SERIAL_LO_SERIAL : Fld := ⟨R.GLB_SERIAL_LO, 0, 32⟩
abbrev R.GLB_SERIAL_HI : Nat := 0x14
abbrev F.GLB_SERIAL_HI_SERIAL : Fld := ⟨R.GLB_SERIAL_HI, 0, 32⟩
abbrev R.GLB_RESET : Nat := 0x20
abbrev F.GLB_RESET_KEY : Fld := ⟨R.GLB_RESET, 0, 32⟩
abbrev R.HIF_QCTRL (a : Nat) : Nat := 0x20000 + 0x40 * a
abbrev F.HIF_QCTRL_ENABLE (a : Nat) : Fld := ⟨(R.HIF_QCTRL a), 0, 1⟩
abbrev F.HIF_QCTRL_STOP (a : Nat) : Fld := ⟨(R.HIF_QCTRL a), 1, 1⟩
abbrev F.HIF_QCTRL_RESET (a : Nat) : Fld := ⟨(R.HIF_QCTRL a), 2, 1⟩
abbrev F.HIF_QCTRL_SQ_LOG2 (a : Nat) : Fld := ⟨(R.HIF_QCTRL a), 3, 5⟩
abbrev F.HIF_QCTRL_CQ_LOG2 (a : Nat) : Fld := ⟨(R.HIF_QCTRL a), 8, 5⟩
abbrev F.HIF_QCTRL_VECTOR (a : Nat) : Fld := ⟨(R.HIF_QCTRL a), 16, 8⟩
abbrev F.HIF_QCTRL_IRQ_EN (a : Nat) : Fld := ⟨(R.HIF_QCTRL a), 24, 1⟩
abbrev R.HIF_QSTATUS (a : Nat) : Nat := 0x20004 + 0x40 * a
abbrev F.HIF_QSTATUS_RUNNING (a : Nat) : Fld := ⟨(R.HIF_QSTATUS a), 0, 1⟩
abbrev F.HIF_QSTATUS_HALTED (a : Nat) : Fld := ⟨(R.HIF_QSTATUS a), 1, 1⟩
abbrev F.HIF_QSTATUS_DMA_HALT (a : Nat) : Fld := ⟨(R.HIF_QSTATUS a), 2, 1⟩
abbrev F.HIF_QSTATUS_CONFIG_ERR (a : Nat) : Fld := ⟨(R.HIF_QSTATUS a), 3, 1⟩
abbrev F.HIF_QSTATUS_WAITING (a : Nat) : Fld := ⟨(R.HIF_QSTATUS a), 4, 1⟩
abbrev F.HIF_QSTATUS_CQ_STALL (a : Nat) : Fld := ⟨(R.HIF_QSTATUS a), 5, 1⟩
abbrev R.HIF_QSQBASE_LO (a : Nat) : Nat := 0x20008 + 0x40 * a
abbrev F.HIF_QSQBASE_LO_BASE (a : Nat) : Fld := ⟨(R.HIF_QSQBASE_LO a), 0, 32⟩
abbrev R.HIF_QSQBASE_HI (a : Nat) : Nat := 0x2000c + 0x40 * a
abbrev F.HIF_QSQBASE_HI_BASE (a : Nat) : Fld := ⟨(R.HIF_QSQBASE_HI a), 0, 32⟩
abbrev R.HIF_QCQBASE_LO (a : Nat) : Nat := 0x20010 + 0x40 * a
abbrev F.HIF_QCQBASE_LO_BASE (a : Nat) : Fld := ⟨(R.HIF_QCQBASE_LO a), 0, 32⟩
abbrev R.HIF_QCQBASE_HI (a : Nat) : Nat := 0x20014 + 0x40 * a
abbrev F.HIF_QCQBASE_HI_BASE (a : Nat) : Fld := ⟨(R.HIF_QCQBASE_HI a), 0, 32⟩
abbrev R.HIF_QSQHEAD (a : Nat) : Nat := 0x20018 + 0x40 * a
abbrev F.HIF_QSQHEAD_INDEX (a : Nat) : Fld := ⟨(R.HIF_QSQHEAD a), 0, 16⟩
abbrev R.HIF_QCQTAIL (a : Nat) : Nat := 0x2001c + 0x40 * a
abbrev F.HIF_QCQTAIL_INDEX (a : Nat) : Fld := ⟨(R.HIF_QCQTAIL a), 0, 16⟩
abbrev R.HIF_QIRQ (a : Nat) : Nat := 0x20020 + 0x40 * a
abbrev F.HIF_QIRQ_COUNT (a : Nat) : Fld := ⟨(R.HIF_QIRQ a), 0, 16⟩
abbrev F.HIF_QIRQ_HOLDOFF (a : Nat) : Fld := ⟨(R.HIF_QIRQ a), 16, 16⟩
abbrev R.HIF_QLAST (a : Nat) : Nat := 0x20024 + 0x40 * a
abbrev F.HIF_QLAST_STATUS (a : Nat) : Fld := ⟨(R.HIF_QLAST a), 0, 8⟩
abbrev F.HIF_QLAST_CMD_INDEX (a : Nat) : Fld := ⟨(R.HIF_QLAST a), 8, 15⟩
abbrev R.HIF_EVT_CTRL : Nat := 0x22000
abbrev F.HIF_EVT_CTRL_ENABLE : Fld := ⟨R.HIF_EVT_CTRL, 0, 1⟩
abbrev F.HIF_EVT_CTRL_LOG2 : Fld := ⟨R.HIF_EVT_CTRL, 3, 5⟩
abbrev F.HIF_EVT_CTRL_VECTOR : Fld := ⟨R.HIF_EVT_CTRL, 8, 8⟩
abbrev F.HIF_EVT_CTRL_IRQ_EN : Fld := ⟨R.HIF_EVT_CTRL, 16, 1⟩
abbrev R.HIF_EVT_BASE_LO : Nat := 0x22004
abbrev F.HIF_EVT_BASE_LO_BASE : Fld := ⟨R.HIF_EVT_BASE_LO, 0, 32⟩
abbrev R.HIF_EVT_BASE_HI : Nat := 0x22008
abbrev F.HIF_EVT_BASE_HI_BASE : Fld := ⟨R.HIF_EVT_BASE_HI, 0, 32⟩
abbrev R.HIF_EVT_HEAD : Nat := 0x2200c
abbrev F.HIF_EVT_HEAD_INDEX : Fld := ⟨R.HIF_EVT_HEAD, 0, 16⟩
abbrev R.HIF_EVT_TAIL : Nat := 0x22010
abbrev F.HIF_EVT_TAIL_INDEX : Fld := ⟨R.HIF_EVT_TAIL, 0, 16⟩
abbrev R.HIF_EVT_LOST : Nat := 0x22014
abbrev F.HIF_EVT_LOST_COUNT : Fld := ⟨R.HIF_EVT_LOST, 0, 32⟩
abbrev R.HIF_EVT_IRQ : Nat := 0x22018
abbrev F.HIF_EVT_IRQ_COUNT : Fld := ⟨R.HIF_EVT_IRQ, 0, 16⟩
abbrev F.HIF_EVT_IRQ_HOLDOFF : Fld := ⟨R.HIF_EVT_IRQ, 16, 16⟩
abbrev R.HIF_EVT_MASK (a : Nat) : Nat := 0x22040 + 0x4 * a
abbrev F.HIF_EVT_MASK_MASK (a : Nat) : Fld := ⟨(R.HIF_EVT_MASK a), 0, 32⟩
abbrev R.HIF_LOCK : Nat := 0x23000
abbrev F.HIF_LOCK_LOCK : Fld := ⟨R.HIF_LOCK, 0, 1⟩
abbrev R.HIF_BAR4_CTRL : Nat := 0x23004
abbrev F.HIF_BAR4_CTRL_ENABLE : Fld := ⟨R.HIF_BAR4_CTRL, 0, 1⟩
abbrev R.HIF_BAR4_BAY : Nat := 0x23008
abbrev F.HIF_BAR4_BAY_BAY : Fld := ⟨R.HIF_BAR4_BAY, 0, 4⟩
abbrev R.HIF_DMAW_0 (a : Nat) : Nat := 0x28000 + 0x10 * a
abbrev F.HIF_DMAW_0_BASE_LO (a : Nat) : Fld := ⟨(R.HIF_DMAW_0 a), 12, 20⟩
abbrev R.HIF_DMAW_4 (a : Nat) : Nat := 0x28004 + 0x10 * a
abbrev F.HIF_DMAW_4_BASE_HI (a : Nat) : Fld := ⟨(R.HIF_DMAW_4 a), 0, 32⟩
abbrev R.HIF_DMAW_8 (a : Nat) : Nat := 0x28008 + 0x10 * a
abbrev F.HIF_DMAW_8_PAGES (a : Nat) : Fld := ⟨(R.HIF_DMAW_8 a), 0, 32⟩
abbrev R.HIF_DMAW_C (a : Nat) : Nat := 0x2800c + 0x10 * a
abbrev F.HIF_DMAW_C_READ (a : Nat) : Fld := ⟨(R.HIF_DMAW_C a), 0, 1⟩
abbrev F.HIF_DMAW_C_WRITE (a : Nat) : Fld := ⟨(R.HIF_DMAW_C a), 1, 1⟩
abbrev R.FLT_TICK (a : Nat) : Nat := 0x40000 + 0x4 * a
abbrev F.FLT_TICK_TICK_EVEN (a : Nat) : Fld := ⟨(R.FLT_TICK a), 0, 16⟩
abbrev F.FLT_TICK_TICK_ODD (a : Nat) : Fld := ⟨(R.FLT_TICK a), 16, 16⟩
abbrev R.WH_LINK_CTRL (a : Nat) : Nat := 0x100000 + 0x100 * a
abbrev F.WH_LINK_CTRL_MODE (a : Nat) : Fld := ⟨(R.WH_LINK_CTRL a), 0, 2⟩
abbrev F.WH_LINK_CTRL_PRIV (a : Nat) : Fld := ⟨(R.WH_LINK_CTRL a), 4, 1⟩
abbrev R.WH_LINK_DEFAULT (a : Nat) : Nat := 0x100004 + 0x100 * a
abbrev F.WH_LINK_DEFAULT_ACTION (a : Nat) : Fld := ⟨(R.WH_LINK_DEFAULT a), 0, 2⟩
abbrev F.WH_LINK_DEFAULT_TC (a : Nat) : Fld := ⟨(R.WH_LINK_DEFAULT a), 4, 3⟩
abbrev F.WH_LINK_DEFAULT_MARK_CODE (a : Nat) : Fld := ⟨(R.WH_LINK_DEFAULT a), 8, 8⟩
abbrev R.WH_STP_CTRL (a : Nat) : Nat := 0x100008 + 0x100 * a
abbrev F.WH_STP_CTRL_FLUSH (a : Nat) : Fld := ⟨(R.WH_STP_CTRL a), 0, 1⟩
abbrev F.WH_STP_CTRL_CUT (a : Nat) : Fld := ⟨(R.WH_STP_CTRL a), 8, 7⟩
abbrev R.WH_STP_MAXLEN (a : Nat) : Nat := 0x10000c + 0x100 * a
abbrev F.WH_STP_MAXLEN_BYTES (a : Nat) : Fld := ⟨(R.WH_STP_MAXLEN a), 0, 15⟩
abbrev R.WH_STP_FILL (a : Nat) : Nat := 0x100010 + 0x100 * a
abbrev F.WH_STP_FILL_BYTES (a : Nat) : Fld := ⟨(R.WH_STP_FILL a), 0, 18⟩
abbrev R.WH_REORDER_FILL (a : Nat) : Nat := 0x100014 + 0x100 * a
abbrev F.WH_REORDER_FILL_ENTRIES (a : Nat) : Fld := ⟨(R.WH_REORDER_FILL a), 0, 13⟩
abbrev R.WH_STP_FULL_DROPS (a : Nat) : Nat := 0x100018 + 0x100 * a
abbrev F.WH_STP_FULL_DROPS (a : Nat) : Fld := ⟨(R.WH_STP_FULL_DROPS a), 0, 32⟩
abbrev R.WH_STP_FLUSH_DROPS (a : Nat) : Nat := 0x10001c + 0x100 * a
abbrev F.WH_STP_FLUSH_DROPS (a : Nat) : Fld := ⟨(R.WH_STP_FLUSH_DROPS a), 0, 32⟩
abbrev R.WH_STP_ERR_DROPS (a : Nat) : Nat := 0x100020 + 0x100 * a
abbrev F.WH_STP_ERR_DROPS (a : Nat) : Fld := ⟨(R.WH_STP_ERR_DROPS a), 0, 32⟩
abbrev R.WH_STP_MARK_LOST (a : Nat) : Nat := 0x100024 + 0x100 * a
abbrev F.WH_STP_MARK_LOST (a : Nat) : Fld := ⟨(R.WH_STP_MARK_LOST a), 0, 32⟩
abbrev R.WH_PARSE_NOPROF (a : Nat) : Nat := 0x100028 + 0x100 * a
abbrev F.WH_PARSE_NOPROF (a : Nat) : Fld := ⟨(R.WH_PARSE_NOPROF a), 0, 32⟩
abbrev R.WH_PARSE_SHORT (a : Nat) : Nat := 0x10002c + 0x100 * a
abbrev F.WH_PARSE_SHORT (a : Nat) : Fld := ⟨(R.WH_PARSE_SHORT a), 0, 32⟩
abbrev R.WH_PARSE_FRAG (a : Nat) : Nat := 0x100030 + 0x100 * a
abbrev F.WH_PARSE_FRAG (a : Nat) : Fld := ⟨(R.WH_PARSE_FRAG a), 0, 32⟩
abbrev R.WH_LA_BAD (a : Nat) : Nat := 0x100034 + 0x100 * a
abbrev F.WH_LA_BAD (a : Nat) : Fld := ⟨(R.WH_LA_BAD a), 0, 32⟩
abbrev R.WH_LA_FOREIGN (a : Nat) : Nat := 0x100038 + 0x100 * a
abbrev F.WH_LA_FOREIGN (a : Nat) : Fld := ⟨(R.WH_LA_FOREIGN a), 0, 32⟩
abbrev R.WH_SUMP : Nat := 0x102000
abbrev F.WH_SUMP_LINK : Fld := ⟨R.WH_SUMP, 0, 5⟩
abbrev F.WH_SUMP_VALID : Fld := ⟨R.WH_SUMP, 31, 1⟩
abbrev R.WH_INTAKE_STATUS : Nat := 0x102004
abbrev F.WH_INTAKE_STATUS_DESC_REJECT : Fld := ⟨R.WH_INTAKE_STATUS, 0, 1⟩
abbrev R.WH_LANES : Nat := 0x102008
abbrev F.WH_LANES_IN_SERVICE : Fld := ⟨R.WH_LANES, 0, 24⟩
abbrev R.WH_PROFILE_SEL_0 (a : Nat) : Nat := 0x104000 + 0x10 * a
abbrev F.WH_PROFILE_SEL_0_LINKS (a : Nat) : Fld := ⟨(R.WH_PROFILE_SEL_0 a), 0, 24⟩
abbrev R.WH_PROFILE_SEL_4 (a : Nat) : Nat := 0x104004 + 0x10 * a
abbrev F.WH_PROFILE_SEL_4_ETYPE1 (a : Nat) : Fld := ⟨(R.WH_PROFILE_SEL_4 a), 0, 16⟩
abbrev F.WH_PROFILE_SEL_4_ETYPE2 (a : Nat) : Fld := ⟨(R.WH_PROFILE_SEL_4 a), 16, 16⟩
abbrev R.WH_PROFILE_SEL_8 (a : Nat) : Nat := 0x104008 + 0x10 * a
abbrev F.WH_PROFILE_SEL_8_PROFILE (a : Nat) : Fld := ⟨(R.WH_PROFILE_SEL_8 a), 0, 6⟩
abbrev F.WH_PROFILE_SEL_8_E2_ANY (a : Nat) : Fld := ⟨(R.WH_PROFILE_SEL_8 a), 8, 1⟩
abbrev F.WH_PROFILE_SEL_8_VALID (a : Nat) : Fld := ⟨(R.WH_PROFILE_SEL_8 a), 31, 1⟩
abbrev R.WH_PROF_CTRL (a : Nat) : Nat := 0x108000 + 0x400 * a
abbrev F.WH_PROF_CTRL_VALID (a : Nat) : Fld := ⟨(R.WH_PROF_CTRL a), 0, 1⟩
abbrev F.WH_PROF_CTRL_RECIRC (a : Nat) : Fld := ⟨(R.WH_PROF_CTRL a), 1, 1⟩
abbrev F.WH_PROF_CTRL_FRAG_MODE (a : Nat) : Fld := ⟨(R.WH_PROF_CTRL a), 2, 2⟩
abbrev F.WH_PROF_CTRL_FRAG_OFF (a : Nat) : Fld := ⟨(R.WH_PROF_CTRL a), 4, 7⟩
abbrev F.WH_PROF_CTRL_NFIELDS (a : Nat) : Fld := ⟨(R.WH_PROF_CTRL a), 16, 6⟩
abbrev R.WH_PROF_FIELD_0 (a b : Nat) : Nat := 0x108100 + 0x400 * a + 0x8 * b
abbrev F.WH_PROF_FIELD_0_DESC (a b : Nat) : Fld := ⟨(R.WH_PROF_FIELD_0 a b), 0, 32⟩
abbrev R.WH_PROF_FIELD_4 (a b : Nat) : Nat := 0x108104 + 0x400 * a + 0x8 * b
abbrev F.WH_PROF_FIELD_4_MASK (a b : Nat) : Fld := ⟨(R.WH_PROF_FIELD_4 a b), 0, 32⟩
abbrev R.WH_FT_CTRL : Nat := 0x200000
abbrev F.WH_FT_CTRL_LEARN : Fld := ⟨R.WH_FT_CTRL, 0, 1⟩
abbrev F.WH_FT_CTRL_AGE : Fld := ⟨R.WH_FT_CTRL, 1, 1⟩
abbrev R.WH_FT_STATUS : Nat := 0x200004
abbrev F.WH_FT_STATUS_REHASH : Fld := ⟨R.WH_FT_STATUS, 0, 1⟩
abbrev F.WH_FT_STATUS_ACTIVE_SET : Fld := ⟨R.WH_FT_STATUS, 1, 1⟩
abbrev F.WH_FT_STATUS_RELOC_BUSY : Fld := ⟨R.WH_FT_STATUS, 2, 1⟩
abbrev R.WH_FT_SEEDB : Nat := 0x200008
abbrev F.WH_FT_SEEDB : Fld := ⟨R.WH_FT_SEEDB, 0, 32⟩
abbrev R.WH_FT_SEEDF : Nat := 0x20000c
abbrev F.WH_FT_SEEDF : Fld := ⟨R.WH_FT_SEEDF, 0, 32⟩
abbrev R.WH_FT_NEW_SEEDB : Nat := 0x200010
abbrev F.WH_FT_NEW_SEEDB : Fld := ⟨R.WH_FT_NEW_SEEDB, 0, 32⟩
abbrev R.WH_FT_NEW_SEEDF : Nat := 0x200014
abbrev F.WH_FT_NEW_SEEDF : Fld := ⟨R.WH_FT_NEW_SEEDF, 0, 32⟩
abbrev R.WH_FT_CURSOR : Nat := 0x200018
abbrev F.WH_FT_CURSOR : Fld := ⟨R.WH_FT_CURSOR, 0, 20⟩
abbrev R.WH_FT_USED : Nat := 0x20001c
abbrev F.WH_FT_USED : Fld := ⟨R.WH_FT_USED, 0, 24⟩
abbrev R.WH_FT_INSERTS : Nat := 0x200040
abbrev F.WH_FT_INSERTS : Fld := ⟨R.WH_FT_INSERTS, 0, 32⟩
abbrev R.WH_FT_CHAIN_FAIL : Nat := 0x200044
abbrev F.WH_FT_CHAIN_FAIL : Fld := ⟨R.WH_FT_CHAIN_FAIL, 0, 32⟩
abbrev R.WH_FT_RELOC_BUSY : Nat := 0x200048
abbrev F.WH_FT_RELOC_BUSY : Fld := ⟨R.WH_FT_RELOC_BUSY, 0, 32⟩
abbrev R.WH_FT_INSERT_BUSY : Nat := 0x20004c
abbrev F.WH_FT_INSERT_BUSY : Fld := ⟨R.WH_FT_INSERT_BUSY, 0, 32⟩
abbrev R.WH_FT_FULL : Nat := 0x200050
abbrev F.WH_FT_FULL : Fld := ⟨R.WH_FT_FULL, 0, 32⟩
abbrev R.WH_FT_FALSE_MATCH : Nat := 0x200054
abbrev F.WH_FT_FALSE_MATCH : Fld := ⟨R.WH_FT_FALSE_MATCH, 0, 32⟩
abbrev R.WH_FT_EXPIRED : Nat := 0x200058
abbrev F.WH_FT_EXPIRED : Fld := ⟨R.WH_FT_EXPIRED, 0, 32⟩
abbrev R.WH_FT_ORPHANS : Nat := 0x20005c
abbrev F.WH_FT_ORPHANS : Fld := ⟨R.WH_FT_ORPHANS, 0, 32⟩
abbrev R.WH_FT_POISON_REINIT : Nat := 0x200060
abbrev F.WH_FT_POISON_REINIT : Fld := ⟨R.WH_FT_POISON_REINIT, 0, 32⟩
abbrev R.WH_FT_DEV_SKIP : Nat := 0x200064
abbrev F.WH_FT_DEV_SKIP : Fld := ⟨R.WH_FT_DEV_SKIP, 0, 32⟩
abbrev R.WH_FE_CTRL : Nat := 0x200080
abbrev F.WH_FE_CTRL_EN : Fld := ⟨R.WH_FE_CTRL, 0, 1⟩
abbrev F.WH_FE_CTRL_LOG2 : Fld := ⟨R.WH_FE_CTRL, 8, 5⟩
abbrev R.WH_FE_BASE_LO : Nat := 0x200084
abbrev F.WH_FE_BASE_LO : Fld := ⟨R.WH_FE_BASE_LO, 0, 32⟩
abbrev R.WH_FE_BASE_HI : Nat := 0x200088
abbrev F.WH_FE_BASE_HI : Fld := ⟨R.WH_FE_BASE_HI, 0, 32⟩
abbrev R.WH_FE_PROD : Nat := 0x20008c
abbrev F.WH_FE_PROD : Fld := ⟨R.WH_FE_PROD, 0, 21⟩
abbrev R.WH_FE_CONS : Nat := 0x200090
abbrev F.WH_FE_CONS : Fld := ⟨R.WH_FE_CONS, 0, 21⟩
abbrev R.WH_FE_DROPS : Nat := 0x200094
abbrev F.WH_FE_DROPS : Fld := ⟨R.WH_FE_DROPS, 0, 32⟩
abbrev R.WH_SND_CTRL : Nat := 0x200100
abbrev F.WH_SND_CTRL_LEARN : Fld := ⟨R.WH_SND_CTRL, 0, 1⟩
abbrev F.WH_SND_CTRL_WINDOW : Fld := ⟨R.WH_SND_CTRL, 8, 8⟩
abbrev F.WH_SND_CTRL_K : Fld := ⟨R.WH_SND_CTRL, 16, 8⟩
abbrev R.WH_SND_SEED : Nat := 0x200104
abbrev F.WH_SND_SEED : Fld := ⟨R.WH_SND_SEED, 0, 32⟩
abbrev R.WH_SND_USED : Nat := 0x200108
abbrev F.WH_SND_USED : Fld := ⟨R.WH_SND_USED, 0, 22⟩
abbrev R.WH_SND_INSERTS : Nat := 0x200110
abbrev F.WH_SND_INSERTS : Fld := ⟨R.WH_SND_INSERTS, 0, 32⟩
abbrev R.WH_SND_EVICTIONS : Nat := 0x200114
abbrev F.WH_SND_EVICTIONS : Fld := ⟨R.WH_SND_EVICTIONS, 0, 32⟩
abbrev R.WH_SND_NOROOM : Nat := 0x200118
abbrev F.WH_SND_NOROOM : Fld := ⟨R.WH_SND_NOROOM, 0, 32⟩
abbrev R.WH_SND_CONFLICTS : Nat := 0x20011c
abbrev F.WH_SND_CONFLICTS : Fld := ⟨R.WH_SND_CONFLICTS, 0, 32⟩
abbrev R.WH_SND_MOVES : Nat := 0x200120
abbrev F.WH_SND_MOVES : Fld := ⟨R.WH_SND_MOVES, 0, 32⟩
abbrev R.WH_FBANK_CTRL : Nat := 0x200200
abbrev F.WH_FBANK_CTRL_ARM : Fld := ⟨R.WH_FBANK_CTRL, 0, 1⟩
abbrev F.WH_FBANK_CTRL_DISARM : Fld := ⟨R.WH_FBANK_CTRL, 1, 1⟩
abbrev F.WH_FBANK_CTRL_COPY : Fld := ⟨R.WH_FBANK_CTRL, 2, 1⟩
abbrev R.WH_FBANK_AT_LO : Nat := 0x200204
abbrev F.WH_FBANK_AT_LO_AT : Fld := ⟨R.WH_FBANK_AT_LO, 0, 32⟩
abbrev R.WH_FBANK_AT_HI : Nat := 0x200208
abbrev F.WH_FBANK_AT_HI_AT : Fld := ⟨R.WH_FBANK_AT_HI, 0, 32⟩
abbrev R.WH_FBANK_STATUS : Nat := 0x20020c
abbrev F.WH_FBANK_STATUS_VALIDATING : Fld := ⟨R.WH_FBANK_STATUS, 0, 1⟩
abbrev F.WH_FBANK_STATUS_ARMED : Fld := ⟨R.WH_FBANK_STATUS, 1, 1⟩
abbrev F.WH_FBANK_STATUS_REFUSED : Fld := ⟨R.WH_FBANK_STATUS, 2, 1⟩
abbrev F.WH_FBANK_STATUS_REASON : Fld := ⟨R.WH_FBANK_STATUS, 4, 4⟩
abbrev F.WH_FBANK_STATUS_PROFILE : Fld := ⟨R.WH_FBANK_STATUS, 8, 6⟩
abbrev F.WH_FBANK_STATUS_RETIRING : Fld := ⟨R.WH_FBANK_STATUS, 14, 1⟩
abbrev F.WH_FBANK_STATUS_COPYING : Fld := ⟨R.WH_FBANK_STATUS, 15, 1⟩
abbrev R.WH_FBANK_EPOCH : Nat := 0x200210
abbrev F.WH_FBANK_EPOCH_EPOCH : Fld := ⟨R.WH_FBANK_EPOCH, 0, 32⟩
abbrev R.WH_FKEY_0 (a : Nat) : Nat := 0x201000 + 0x40 * a
abbrev F.WH_FKEY_0_FIELDS_LO (a : Nat) : Fld := ⟨(R.WH_FKEY_0 a), 0, 32⟩
abbrev R.WH_FKEY_4 (a : Nat) : Nat := 0x201004 + 0x40 * a
abbrev F.WH_FKEY_4_FIELDS_HI (a : Nat) : Fld := ⟨(R.WH_FKEY_4 a), 0, 16⟩
abbrev F.WH_FKEY_4_KEYSPACE (a : Nat) : Fld := ⟨(R.WH_FKEY_4 a), 16, 6⟩
abbrev F.WH_FKEY_4_EN (a : Nat) : Fld := ⟨(R.WH_FKEY_4 a), 31, 1⟩
abbrev R.WH_FKEY_8 (a : Nat) : Nat := 0x201008 + 0x40 * a
abbrev F.WH_FKEY_8_IDLE (a : Nat) : Fld := ⟨(R.WH_FKEY_8 a), 0, 16⟩
abbrev R.WH_FKEY_C (a : Nat) : Nat := 0x20100c + 0x40 * a
abbrev F.WH_FKEY_C_SKEY_KIND (a : Nat) : Fld := ⟨(R.WH_FKEY_C a), 0, 2⟩
abbrev F.WH_FKEY_C_SKEY_OFFSET (a : Nat) : Fld := ⟨(R.WH_FKEY_C a), 2, 7⟩
abbrev F.WH_FKEY_C_SKEY_EN (a : Nat) : Fld := ⟨(R.WH_FKEY_C a), 31, 1⟩
abbrev R.WH_FKEY_10 (a b : Nat) : Nat := 0x201010 + 0x40 * a + 0x8 * b
abbrev F.WH_FKEY_10_TALLY_FIELD (a b : Nat) : Fld := ⟨(R.WH_FKEY_10 a b), 0, 6⟩
abbrev F.WH_FKEY_10_TALLY_EN (a b : Nat) : Fld := ⟨(R.WH_FKEY_10 a b), 31, 1⟩
abbrev R.WH_FKEY_14 (a b : Nat) : Nat := 0x201014 + 0x40 * a + 0x8 * b
abbrev F.WH_FKEY_14_TALLY_MASK (a b : Nat) : Fld := ⟨(R.WH_FKEY_14 a b), 0, 32⟩
abbrev R.WH_FPROG_0 (a b : Nat) : Nat := 0x210000 + 0x400 * a + 0x8 * b
abbrev F.WH_FPROG_0_LO (a b : Nat) : Fld := ⟨(R.WH_FPROG_0 a b), 0, 32⟩
abbrev R.WH_FPROG_4 (a b : Nat) : Nat := 0x210004 + 0x400 * a + 0x8 * b
abbrev F.WH_FPROG_4_HI (a b : Nat) : Fld := ⟨(R.WH_FPROG_4 a b), 0, 32⟩
abbrev R.WH_BIN_0 (a : Nat) : Nat := 0x220000 + 0x400 * a
abbrev F.WH_BIN_0_N (a : Nat) : Fld := ⟨(R.WH_BIN_0 a), 0, 8⟩
abbrev R.WH_BIN_100 (a b : Nat) : Nat := 0x220100 + 0x400 * a + 0x4 * b
abbrev F.WH_BIN_100_BOUND_EVEN (a b : Nat) : Fld := ⟨(R.WH_BIN_100 a b), 0, 16⟩
abbrev F.WH_BIN_100_BOUND_ODD (a b : Nat) : Fld := ⟨(R.WH_BIN_100 a b), 16, 16⟩
abbrev R.WH_RBANK_CTRL : Nat := 0x300000
abbrev F.WH_RBANK_CTRL_ARM : Fld := ⟨R.WH_RBANK_CTRL, 0, 1⟩
abbrev F.WH_RBANK_CTRL_DISARM : Fld := ⟨R.WH_RBANK_CTRL, 1, 1⟩
abbrev F.WH_RBANK_CTRL_COPY : Fld := ⟨R.WH_RBANK_CTRL, 2, 1⟩
abbrev R.WH_RBANK_AT_LO : Nat := 0x300004
abbrev F.WH_RBANK_AT_LO_AT : Fld := ⟨R.WH_RBANK_AT_LO, 0, 32⟩
abbrev R.WH_RBANK_AT_HI : Nat := 0x300008
abbrev F.WH_RBANK_AT_HI_AT : Fld := ⟨R.WH_RBANK_AT_HI, 0, 32⟩
abbrev R.WH_RBANK_STATUS : Nat := 0x30000c
abbrev F.WH_RBANK_STATUS_VALIDATING : Fld := ⟨R.WH_RBANK_STATUS, 0, 1⟩
abbrev F.WH_RBANK_STATUS_ARMED : Fld := ⟨R.WH_RBANK_STATUS, 1, 1⟩
abbrev F.WH_RBANK_STATUS_REFUSED : Fld := ⟨R.WH_RBANK_STATUS, 2, 1⟩
abbrev F.WH_RBANK_STATUS_ACTIVE : Fld := ⟨R.WH_RBANK_STATUS, 3, 1⟩
abbrev F.WH_RBANK_STATUS_REASON : Fld := ⟨R.WH_RBANK_STATUS, 4, 4⟩
abbrev F.WH_RBANK_STATUS_PROFILE : Fld := ⟨R.WH_RBANK_STATUS, 8, 6⟩
abbrev F.WH_RBANK_STATUS_RETIRING : Fld := ⟨R.WH_RBANK_STATUS, 14, 1⟩
abbrev F.WH_RBANK_STATUS_COPYING : Fld := ⟨R.WH_RBANK_STATUS, 15, 1⟩
abbrev R.WH_RBANK_EPOCH : Nat := 0x300010
abbrev F.WH_RBANK_EPOCH_EPOCH : Fld := ⟨R.WH_RBANK_EPOCH, 0, 32⟩
abbrev R.WH_RBANK_BYTES : Nat := 0x300014
abbrev F.WH_RBANK_BYTES_BYTES : Fld := ⟨R.WH_RBANK_BYTES, 0, 24⟩
abbrev R.WH_RBANK_INDEX : Nat := 0x300018
abbrev F.WH_RBANK_INDEX_INDEX : Fld := ⟨R.WH_RBANK_INDEX, 0, 24⟩
abbrev R.WH_EBANK_CTRL : Nat := 0x300020
abbrev F.WH_EBANK_CTRL_ARM : Fld := ⟨R.WH_EBANK_CTRL, 0, 1⟩
abbrev F.WH_EBANK_CTRL_DISARM : Fld := ⟨R.WH_EBANK_CTRL, 1, 1⟩
abbrev F.WH_EBANK_CTRL_COPY : Fld := ⟨R.WH_EBANK_CTRL, 2, 1⟩
abbrev R.WH_EBANK_AT_LO : Nat := 0x300024
abbrev F.WH_EBANK_AT_LO_AT : Fld := ⟨R.WH_EBANK_AT_LO, 0, 32⟩
abbrev R.WH_EBANK_AT_HI : Nat := 0x300028
abbrev F.WH_EBANK_AT_HI_AT : Fld := ⟨R.WH_EBANK_AT_HI, 0, 32⟩
abbrev R.WH_EBANK_STATUS : Nat := 0x30002c
abbrev F.WH_EBANK_STATUS_VALIDATING : Fld := ⟨R.WH_EBANK_STATUS, 0, 1⟩
abbrev F.WH_EBANK_STATUS_ARMED : Fld := ⟨R.WH_EBANK_STATUS, 1, 1⟩
abbrev F.WH_EBANK_STATUS_REFUSED : Fld := ⟨R.WH_EBANK_STATUS, 2, 1⟩
abbrev F.WH_EBANK_STATUS_ACTIVE : Fld := ⟨R.WH_EBANK_STATUS, 3, 1⟩
abbrev F.WH_EBANK_STATUS_REASON : Fld := ⟨R.WH_EBANK_STATUS, 4, 4⟩
abbrev F.WH_EBANK_STATUS_PROFILE : Fld := ⟨R.WH_EBANK_STATUS, 8, 6⟩
abbrev F.WH_EBANK_STATUS_RETIRING : Fld := ⟨R.WH_EBANK_STATUS, 14, 1⟩
abbrev F.WH_EBANK_STATUS_COPYING : Fld := ⟨R.WH_EBANK_STATUS, 15, 1⟩
abbrev R.WH_EBANK_EPOCH : Nat := 0x300030
abbrev F.WH_EBANK_EPOCH_EPOCH : Fld := ⟨R.WH_EBANK_EPOCH, 0, 32⟩
abbrev R.WH_RATE_RED : Nat := 0x300040
abbrev F.WH_RATE_RED_LINKS : Fld := ⟨R.WH_RATE_RED, 0, 24⟩
abbrev R.WH_TG_STATUS : Nat := 0x300044
abbrev F.WH_TG_STATUS_IN_SERVICE : Fld := ⟨R.WH_TG_STATUS, 0, 25⟩
abbrev R.WH_TG_SPARE : Nat := 0x300048
abbrev F.WH_TG_SPARE_GROUP : Fld := ⟨R.WH_TG_SPARE, 0, 5⟩
abbrev F.WH_TG_SPARE_NONE : Fld := ⟨R.WH_TG_SPARE, 5, 1⟩
abbrev R.WH_RULE_REPAIR : Nat := 0x300050
abbrev F.WH_RULE_REPAIR : Fld := ⟨R.WH_RULE_REPAIR, 0, 32⟩
abbrev R.WH_RULE_POISON : Nat := 0x300054
abbrev F.WH_RULE_POISON : Fld := ⟨R.WH_RULE_POISON, 0, 32⟩
abbrev R.WH_RULE_MISS (a : Nat) : Nat := 0x301000 + 0x40 * a
abbrev F.WH_RULE_MISS (a : Nat) : Fld := ⟨(R.WH_RULE_MISS a), 0, 32⟩
abbrev R.WH_RECIRC_LIMIT (a : Nat) : Nat := 0x301004 + 0x40 * a
abbrev F.WH_RECIRC_LIMIT (a : Nat) : Fld := ⟨(R.WH_RECIRC_LIMIT a), 0, 32⟩
abbrev R.WH_ENS_REFUSED (a : Nat) : Nat := 0x301008 + 0x40 * a
abbrev F.WH_ENS_REFUSED (a : Nat) : Fld := ⟨(R.WH_ENS_REFUSED a), 0, 32⟩
abbrev R.WH_VERDICT_LATE (a : Nat) : Nat := 0x30100c + 0x40 * a
abbrev F.WH_VERDICT_LATE (a : Nat) : Fld := ⟨(R.WH_VERDICT_LATE a), 0, 32⟩
abbrev R.WH_VALVE_PASS (a : Nat) : Nat := 0x301010 + 0x40 * a
abbrev F.WH_VALVE_PASS (a : Nat) : Fld := ⟨(R.WH_VALVE_PASS a), 0, 32⟩
abbrev R.WH_MARK_SKIP (a : Nat) : Nat := 0x301014 + 0x40 * a
abbrev F.WH_MARK_SKIP (a : Nat) : Fld := ⟨(R.WH_MARK_SKIP a), 0, 32⟩
abbrev R.WH_VF_SENT (a : Nat) : Nat := 0x301018 + 0x40 * a
abbrev F.WH_VF_SENT (a : Nat) : Fld := ⟨(R.WH_VF_SENT a), 0, 32⟩
abbrev R.WH_VF_RECORDS (a : Nat) : Nat := 0x30101c + 0x40 * a
abbrev F.WH_VF_RECORDS (a : Nat) : Fld := ⟨(R.WH_VF_RECORDS a), 0, 32⟩
abbrev R.WH_DEFAULT (a : Nat) : Nat := 0x301020 + 0x40 * a
abbrev F.WH_DEFAULT (a : Nat) : Fld := ⟨(R.WH_DEFAULT a), 0, 32⟩
abbrev R.WH_VF_CTRL (a : Nat) : Nat := 0x302000 + 0x20 * a
abbrev F.WH_VF_CTRL_MAXREC (a : Nat) : Fld := ⟨(R.WH_VF_CTRL a), 0, 6⟩
abbrev F.WH_VF_CTRL_HOLD (a : Nat) : Fld := ⟨(R.WH_VF_CTRL a), 8, 8⟩
abbrev R.WH_VF_DA_LO (a : Nat) : Nat := 0x302004 + 0x20 * a
abbrev F.WH_VF_DA_LO_DA_LO (a : Nat) : Fld := ⟨(R.WH_VF_DA_LO a), 0, 32⟩
abbrev R.WH_VF_DA_HI (a : Nat) : Nat := 0x302008 + 0x20 * a
abbrev F.WH_VF_DA_HI_DA_HI (a : Nat) : Fld := ⟨(R.WH_VF_DA_HI a), 0, 16⟩
abbrev R.WH_VF_SA_LO (a : Nat) : Nat := 0x30200c + 0x20 * a
abbrev F.WH_VF_SA_LO_SA_LO (a : Nat) : Fld := ⟨(R.WH_VF_SA_LO a), 0, 32⟩
abbrev R.WH_VF_SA_HI (a : Nat) : Nat := 0x302010 + 0x20 * a
abbrev F.WH_VF_SA_HI_SA_HI (a : Nat) : Fld := ⟨(R.WH_VF_SA_HI a), 0, 16⟩
abbrev R.WH_MARK_0 (a : Nat) : Nat := 0x310000 + 0x8 * a
abbrev F.WH_MARK_0_OFFSET (a : Nat) : Fld := ⟨(R.WH_MARK_0 a), 0, 7⟩
abbrev F.WH_MARK_0_BIT (a : Nat) : Fld := ⟨(R.WH_MARK_0 a), 7, 3⟩
abbrev F.WH_MARK_0_WIDTH_M1 (a : Nat) : Fld := ⟨(R.WH_MARK_0 a), 10, 3⟩
abbrev F.WH_MARK_0_VALID (a : Nat) : Fld := ⟨(R.WH_MARK_0 a), 15, 1⟩
abbrev F.WH_MARK_0_VALUE (a : Nat) : Fld := ⟨(R.WH_MARK_0 a), 16, 8⟩
abbrev R.WH_MARK_4 (a : Nat) : Nat := 0x310004 + 0x8 * a
abbrev F.WH_MARK_4_CSUM (a : Nat) : Fld := ⟨(R.WH_MARK_4 a), 0, 1⟩
abbrev F.WH_MARK_4_CSUM_OFF (a : Nat) : Fld := ⟨(R.WH_MARK_4 a), 1, 7⟩
abbrev R.EG_LINK_CTRL (a : Nat) : Nat := 0x500000 + 0x1000 * a
abbrev F.EG_LINK_CTRL_ORIG_TC (a : Nat) : Fld := ⟨(R.EG_LINK_CTRL a), 0, 3⟩
abbrev F.EG_LINK_CTRL_STRICT (a : Nat) : Fld := ⟨(R.EG_LINK_CTRL a), 8, 8⟩
abbrev R.EG_TC (a b : Nat) : Nat := 0x500010 + 0x1000 * a + 0x4 * b
abbrev F.EG_TC_WEIGHT (a b : Nat) : Fld := ⟨(R.EG_TC a b), 0, 8⟩
abbrev F.EG_TC_LIMIT (a b : Nat) : Fld := ⟨(R.EG_TC a b), 8, 10⟩
abbrev R.EG_SHAPE (a b : Nat) : Nat := 0x500030 + 0x1000 * a + 0x4 * b
abbrev F.EG_SHAPE_SHAPER (a b : Nat) : Fld := ⟨(R.EG_SHAPE a b), 0, 16⟩
abbrev F.EG_SHAPE_EN (a b : Nat) : Fld := ⟨(R.EG_SHAPE a b), 31, 1⟩
abbrev R.EG_QFILL (a b : Nat) : Nat := 0x500050 + 0x1000 * a + 0x4 * b
abbrev F.EG_QFILL_BYTES (a b : Nat) : Fld := ⟨(R.EG_QFILL a b), 0, 18⟩
abbrev R.EG_GCL_CTRL (a : Nat) : Nat := 0x500080 + 0x1000 * a
abbrev F.EG_GCL_CTRL_COMMIT (a : Nat) : Fld := ⟨(R.EG_GCL_CTRL a), 0, 1⟩
abbrev F.EG_GCL_CTRL_NENTRIES (a : Nat) : Fld := ⟨(R.EG_GCL_CTRL a), 16, 9⟩
abbrev R.EG_GCL_STATUS (a : Nat) : Nat := 0x500084 + 0x1000 * a
abbrev F.EG_GCL_STATUS_STAGED (a : Nat) : Fld := ⟨(R.EG_GCL_STATUS a), 0, 1⟩
abbrev F.EG_GCL_STATUS_PENDING (a : Nat) : Fld := ⟨(R.EG_GCL_STATUS a), 1, 1⟩
abbrev F.EG_GCL_STATUS_OPER (a : Nat) : Fld := ⟨(R.EG_GCL_STATUS a), 2, 1⟩
abbrev F.EG_GCL_STATUS_REFUSED (a : Nat) : Fld := ⟨(R.EG_GCL_STATUS a), 3, 1⟩
abbrev F.EG_GCL_STATUS_REASON (a : Nat) : Fld := ⟨(R.EG_GCL_STATUS a), 4, 4⟩
abbrev F.EG_GCL_STATUS_ENTRY (a : Nat) : Fld := ⟨(R.EG_GCL_STATUS a), 8, 8⟩
abbrev F.EG_GCL_STATUS_GATES (a : Nat) : Fld := ⟨(R.EG_GCL_STATUS a), 16, 8⟩
abbrev R.EG_GCL_BASE_LO (a : Nat) : Nat := 0x500088 + 0x1000 * a
abbrev F.EG_GCL_BASE_LO_BASE (a : Nat) : Fld := ⟨(R.EG_GCL_BASE_LO a), 0, 32⟩
abbrev R.EG_GCL_BASE_HI (a : Nat) : Nat := 0x50008c + 0x1000 * a
abbrev F.EG_GCL_BASE_HI_BASE (a : Nat) : Fld := ⟨(R.EG_GCL_BASE_HI a), 0, 32⟩
abbrev R.EG_GCL_CYCLE (a : Nat) : Nat := 0x500090 + 0x1000 * a
abbrev F.EG_GCL_CYCLE_NS (a : Nat) : Fld := ⟨(R.EG_GCL_CYCLE a), 0, 32⟩
abbrev R.EG_GCL_TAKEOVER_LO (a : Nat) : Nat := 0x500094 + 0x1000 * a
abbrev F.EG_GCL_TAKEOVER_LO_TICK (a : Nat) : Fld := ⟨(R.EG_GCL_TAKEOVER_LO a), 0, 32⟩
abbrev R.EG_GCL_TAKEOVER_HI (a : Nat) : Nat := 0x500098 + 0x1000 * a
abbrev F.EG_GCL_TAKEOVER_HI_TICK (a : Nat) : Fld := ⟨(R.EG_GCL_TAKEOVER_HI a), 0, 32⟩
abbrev R.EG_TX_FRAMES (a b : Nat) : Nat := 0x500100 + 0x1000 * a + 0x20 * b
abbrev F.EG_TX_FRAMES (a b : Nat) : Fld := ⟨(R.EG_TX_FRAMES a b), 0, 32⟩
abbrev R.EG_TX_BYTES_LO (a b : Nat) : Nat := 0x500104 + 0x1000 * a + 0x20 * b
abbrev F.EG_TX_BYTES_LO (a b : Nat) : Fld := ⟨(R.EG_TX_BYTES_LO a b), 0, 32⟩
abbrev R.EG_TX_BYTES_HI (a b : Nat) : Nat := 0x500108 + 0x1000 * a + 0x20 * b
abbrev F.EG_TX_BYTES_HI (a b : Nat) : Fld := ⟨(R.EG_TX_BYTES_HI a b), 0, 32⟩
abbrev R.EG_TAIL_DROPS (a b : Nat) : Nat := 0x50010c + 0x1000 * a + 0x20 * b
abbrev F.EG_TAIL_DROPS (a b : Nat) : Fld := ⟨(R.EG_TAIL_DROPS a b), 0, 32⟩
abbrev R.EG_POL_DROPS (a b : Nat) : Nat := 0x500110 + 0x1000 * a + 0x20 * b
abbrev F.EG_POL_DROPS (a b : Nat) : Fld := ⟨(R.EG_POL_DROPS a b), 0, 32⟩
abbrev R.EG_GATE_DROPS (a b : Nat) : Nat := 0x500114 + 0x1000 * a + 0x20 * b
abbrev F.EG_GATE_DROPS (a b : Nat) : Fld := ⟨(R.EG_GATE_DROPS a b), 0, 32⟩
abbrev R.EG_DOWN_DROPS (a b : Nat) : Nat := 0x500118 + 0x1000 * a + 0x20 * b
abbrev F.EG_DOWN_DROPS (a b : Nat) : Fld := ⟨(R.EG_DOWN_DROPS a b), 0, 32⟩
abbrev R.EG_POL_YELLOW (a b : Nat) : Nat := 0x50011c + 0x1000 * a + 0x20 * b
abbrev F.EG_POL_YELLOW (a b : Nat) : Fld := ⟨(R.EG_POL_YELLOW a b), 0, 32⟩
abbrev R.EG_GCL_0 (a b : Nat) : Nat := 0x500800 + 0x1000 * a + 0x8 * b
abbrev F.EG_GCL_0_GATES (a b : Nat) : Fld := ⟨(R.EG_GCL_0 a b), 0, 8⟩
abbrev R.EG_GCL_4 (a b : Nat) : Nat := 0x500804 + 0x1000 * a + 0x8 * b
abbrev F.EG_GCL_4_INTERVAL (a b : Nat) : Fld := ⟨(R.EG_GCL_4 a b), 0, 32⟩
abbrev R.EG_POL_NOCFG : Nat := 0x518000
abbrev F.EG_POL_NOCFG_COUNT : Fld := ⟨R.EG_POL_NOCFG, 0, 32⟩
abbrev R.MX_CTRL : Nat := 0x600000
abbrev F.MX_CTRL_FAIL_THRESH : Fld := ⟨R.MX_CTRL, 0, 8⟩
abbrev R.MX_RETIRE : Nat := 0x600004
abbrev F.MX_RETIRE_TILE : Fld := ⟨R.MX_RETIRE, 0, 7⟩
abbrev F.MX_RETIRE_GO : Fld := ⟨R.MX_RETIRE, 31, 1⟩
abbrev R.MX_REMAP (a : Nat) : Nat := 0x600100 + 0x4 * a
abbrev F.MX_REMAP_PHYS (a : Nat) : Fld := ⟨(R.MX_REMAP a), 0, 7⟩
abbrev F.MX_REMAP_VACANT (a : Nat) : Fld := ⟨(R.MX_REMAP a), 7, 1⟩
abbrev R.MX_TILE (a : Nat) : Nat := 0x600200 + 0x4 * a
abbrev F.MX_TILE_STATE (a : Nat) : Fld := ⟨(R.MX_TILE a), 0, 3⟩
abbrev F.MX_TILE_LOGICAL (a : Nat) : Fld := ⟨(R.MX_TILE a), 4, 6⟩
abbrev F.MX_TILE_FAULTS (a : Nat) : Fld := ⟨(R.MX_TILE a), 16, 16⟩
abbrev R.MX_PART_BAYS (a : Nat) : Nat := 0x600400 + 0x4 * a
abbrev F.MX_PART_BAYS_BAYS (a : Nat) : Fld := ⟨(R.MX_PART_BAYS a), 0, 10⟩
abbrev R.MX_PART_STATUS (a : Nat) : Nat := 0x600440 + 0x4 * a
abbrev F.MX_PART_STATUS_TILES (a : Nat) : Fld := ⟨(R.MX_PART_STATUS a), 0, 3⟩
abbrev F.MX_PART_STATUS_FAILED (a : Nat) : Fld := ⟨(R.MX_PART_STATUS a), 3, 1⟩
abbrev F.MX_PART_STATUS_ST_VALID (a : Nat) : Fld := ⟨(R.MX_PART_STATUS a), 4, 4⟩
abbrev F.MX_PART_STATUS_VACANT (a : Nat) : Fld := ⟨(R.MX_PART_STATUS a), 8, 4⟩
abbrev R.MX_SAT (a : Nat) : Nat := 0x600480 + 0x4 * a
abbrev F.MX_SAT_COUNT (a : Nat) : Fld := ⟨(R.MX_SAT a), 0, 32⟩
abbrev R.MX_POISON_OUT (a : Nat) : Nat := 0x6004c0 + 0x4 * a
abbrev F.MX_POISON_OUT_COUNT (a : Nat) : Fld := ⟨(R.MX_POISON_OUT a), 0, 32⟩
abbrev R.MX_VEC_STATUS (a : Nat) : Nat := 0x680000 + 0x20 * a
abbrev F.MX_VEC_STATUS_BUSY (a : Nat) : Fld := ⟨(R.MX_VEC_STATUS a), 0, 1⟩
abbrev F.MX_VEC_STATUS_FAILED (a : Nat) : Fld := ⟨(R.MX_VEC_STATUS a), 1, 1⟩
abbrev R.MX_VEC_SAT (a : Nat) : Nat := 0x680004 + 0x20 * a
abbrev F.MX_VEC_SAT (a : Nat) : Fld := ⟨(R.MX_VEC_SAT a), 0, 32⟩
abbrev R.MX_VEC_SKEW (a : Nat) : Nat := 0x680008 + 0x20 * a
abbrev F.MX_VEC_SKEW (a : Nat) : Fld := ⟨(R.MX_VEC_SKEW a), 0, 32⟩
abbrev R.MX_VEC_NONFINITE (a : Nat) : Nat := 0x68000c + 0x20 * a
abbrev F.MX_VEC_NONFINITE (a : Nat) : Fld := ⟨(R.MX_VEC_NONFINITE a), 0, 32⟩
abbrev R.MX_VEC_ZERO (a : Nat) : Nat := 0x680010 + 0x20 * a
abbrev F.MX_VEC_ZERO (a : Nat) : Fld := ⟨(R.MX_VEC_ZERO a), 0, 32⟩
abbrev R.MX_VEC_POISON_OUT (a : Nat) : Nat := 0x680014 + 0x20 * a
abbrev F.MX_VEC_POISON_OUT (a : Nat) : Fld := ⟨(R.MX_VEC_POISON_OUT a), 0, 32⟩
abbrev R.MX_VEC_FNVER : Nat := 0x681000
abbrev F.MX_VEC_FNVER_VERSION : Fld := ⟨R.MX_VEC_FNVER, 0, 16⟩
abbrev R.CI_CTRL : Nat := 0x700000
abbrev F.CI_CTRL_SCRUB_EN : Fld := ⟨R.CI_CTRL, 0, 1⟩
abbrev F.CI_CTRL_CE_EVENTS : Fld := ⟨R.CI_CTRL, 1, 1⟩
abbrev R.CI_SCRUB_PERIOD : Nat := 0x700004
abbrev F.CI_SCRUB_PERIOD_SECONDS : Fld := ⟨R.CI_SCRUB_PERIOD, 0, 12⟩
abbrev R.CI_SCRUB_STATUS : Nat := 0x700008
abbrev F.CI_SCRUB_STATUS_PASSES : Fld := ⟨R.CI_SCRUB_STATUS, 0, 16⟩
abbrev F.CI_SCRUB_STATUS_SCRUB_LATE : Fld := ⟨R.CI_SCRUB_STATUS, 16, 1⟩
abbrev R.CI_UE_ADDR_LO : Nat := 0x700010
abbrev F.CI_UE_ADDR_LO_ADDR : Fld := ⟨R.CI_UE_ADDR_LO, 0, 32⟩
abbrev R.CI_UE_ADDR_HI : Nat := 0x700014
abbrev F.CI_UE_ADDR_HI_ADDR : Fld := ⟨R.CI_UE_ADDR_HI, 0, 32⟩
abbrev R.CI_CE_WORD : Nat := 0x700040
abbrev F.CI_CE_WORD : Fld := ⟨R.CI_CE_WORD, 0, 32⟩
abbrev R.CI_CE_PAGE : Nat := 0x700044
abbrev F.CI_CE_PAGE : Fld := ⟨R.CI_CE_PAGE, 0, 32⟩
abbrev R.CI_UE : Nat := 0x700048
abbrev F.CI_UE : Fld := ⟨R.CI_UE, 0, 32⟩
abbrev R.CI_POISON_READS : Nat := 0x70004c
abbrev F.CI_POISON_READS : Fld := ⟨R.CI_POISON_READS, 0, 32⟩
abbrev R.CI_CODE_REBUILD : Nat := 0x700050
abbrev F.CI_CODE_REBUILD : Fld := ⟨R.CI_CODE_REBUILD, 0, 32⟩
abbrev R.CI_REMAPS : Nat := 0x700054
abbrev F.CI_REMAPS : Fld := ⟨R.CI_REMAPS, 0, 32⟩
abbrev R.CI_BANK_SEL : Nat := 0x700100
abbrev F.CI_BANK_SEL_BANK : Fld := ⟨R.CI_BANK_SEL, 0, 11⟩
abbrev R.CI_BANK_STATUS : Nat := 0x700104
abbrev F.CI_BANK_STATUS_REMAP_LEFT : Fld := ⟨R.CI_BANK_STATUS, 0, 4⟩
abbrev F.CI_BANK_STATUS_RETIRING : Fld := ⟨R.CI_BANK_STATUS, 4, 1⟩
abbrev F.CI_BANK_STATUS_SPARE : Fld := ⟨R.CI_BANK_STATUS, 5, 1⟩
abbrev R.CI_REMAP_ENTRY (a : Nat) : Nat := 0x700110 + 0x4 * a
abbrev F.CI_REMAP_ENTRY_WORD (a : Nat) : Fld := ⟨(R.CI_REMAP_ENTRY a), 0, 17⟩
abbrev F.CI_REMAP_ENTRY_VALID (a : Nat) : Fld := ⟨(R.CI_REMAP_ENTRY a), 31, 1⟩
abbrev R.CI_REMAP_CMD : Nat := 0x700140
abbrev F.CI_REMAP_CMD_ADDR : Fld := ⟨R.CI_REMAP_CMD, 0, 28⟩
abbrev F.CI_REMAP_CMD_RETIRE : Fld := ⟨R.CI_REMAP_CMD, 28, 1⟩
abbrev F.CI_REMAP_CMD_GO : Fld := ⟨R.CI_REMAP_CMD, 31, 1⟩
abbrev R.CI_SPARE_LO : Nat := 0x700200
abbrev F.CI_SPARE_LO_LEFT : Fld := ⟨R.CI_SPARE_LO, 0, 32⟩
abbrev R.CI_SPARE_HI : Nat := 0x700204
abbrev F.CI_SPARE_HI_LEFT : Fld := ⟨R.CI_SPARE_HI, 0, 32⟩
abbrev R.CI_INJECT_ADDR : Nat := 0x700300
abbrev F.CI_INJECT_ADDR_ADDR : Fld := ⟨R.CI_INJECT_ADDR, 0, 28⟩
abbrev R.CI_INJECT_CTRL : Nat := 0x700304
abbrev F.CI_INJECT_CTRL_MODE : Fld := ⟨R.CI_INJECT_CTRL, 0, 2⟩
abbrev F.CI_INJECT_CTRL_PERSIST : Fld := ⟨R.CI_INJECT_CTRL, 2, 1⟩
abbrev R.AQ_CTRL : Nat := 0x800000
abbrev F.AQ_CTRL_SCRUB_EN : Fld := ⟨R.AQ_CTRL, 0, 1⟩
abbrev F.AQ_CTRL_CE_EVENTS : Fld := ⟨R.AQ_CTRL, 1, 1⟩
abbrev R.AQ_SCRUB_PERIOD : Nat := 0x800004
abbrev F.AQ_SCRUB_PERIOD_HOURS : Fld := ⟨R.AQ_SCRUB_PERIOD, 0, 5⟩
abbrev R.AQ_SCRUB_STATUS : Nat := 0x800008
abbrev F.AQ_SCRUB_STATUS_PASSES : Fld := ⟨R.AQ_SCRUB_STATUS, 0, 16⟩
abbrev F.AQ_SCRUB_STATUS_SCRUB_LATE : Fld := ⟨R.AQ_SCRUB_STATUS, 16, 1⟩
abbrev R.AQ_UE_ADDR_LO : Nat := 0x800010
abbrev F.AQ_UE_ADDR_LO_ADDR : Fld := ⟨R.AQ_UE_ADDR_LO, 0, 32⟩
abbrev R.AQ_UE_ADDR_HI : Nat := 0x800014
abbrev F.AQ_UE_ADDR_HI_ADDR : Fld := ⟨R.AQ_UE_ADDR_HI, 0, 32⟩
abbrev R.AQ_CE_WORD : Nat := 0x800040
abbrev F.AQ_CE_WORD : Fld := ⟨R.AQ_CE_WORD, 0, 32⟩
abbrev R.AQ_CE_PAGE : Nat := 0x800044
abbrev F.AQ_CE_PAGE : Fld := ⟨R.AQ_CE_PAGE, 0, 32⟩
abbrev R.AQ_UE : Nat := 0x800048
abbrev F.AQ_UE : Fld := ⟨R.AQ_UE, 0, 32⟩
abbrev R.AQ_POISON_READS : Nat := 0x80004c
abbrev F.AQ_POISON_READS : Fld := ⟨R.AQ_POISON_READS, 0, 32⟩
abbrev R.AQ_CODE_REBUILD : Nat := 0x800050
abbrev F.AQ_CODE_REBUILD : Fld := ⟨R.AQ_CODE_REBUILD, 0, 32⟩
abbrev R.AQ_REMAPS : Nat := 0x800054
abbrev F.AQ_REMAPS : Fld := ⟨R.AQ_REMAPS, 0, 32⟩
abbrev R.AQ_RETIRED_READS : Nat := 0x800058
abbrev F.AQ_RETIRED_READS : Fld := ⟨R.AQ_RETIRED_READS, 0, 32⟩
abbrev R.AQ_CHAN (a : Nat) : Nat := 0x800100 + 0x4 * a
abbrev F.AQ_CHAN_TRAINED (a : Nat) : Fld := ⟨(R.AQ_CHAN a), 0, 1⟩
abbrev F.AQ_CHAN_RETIRED (a : Nat) : Fld := ⟨(R.AQ_CHAN a), 1, 1⟩
abbrev F.AQ_CHAN_ATTEMPTS (a : Nat) : Fld := ⟨(R.AQ_CHAN a), 2, 2⟩
abbrev F.AQ_CHAN_REMAP_LEFT (a : Nat) : Fld := ⟨(R.AQ_CHAN a), 4, 5⟩
abbrev F.AQ_CHAN_LINK_ECC (a : Nat) : Fld := ⟨(R.AQ_CHAN a), 16, 16⟩
abbrev R.AQ_REMAP_CMD : Nat := 0x800200
abbrev F.AQ_REMAP_CMD_PAGE : Fld := ⟨R.AQ_REMAP_CMD, 0, 28⟩
abbrev F.AQ_REMAP_CMD_GO : Fld := ⟨R.AQ_REMAP_CMD, 31, 1⟩
abbrev R.AQ_REMAP (a b : Nat) : Nat := 0x801000 + 0x40 * a + 0x4 * b
abbrev F.AQ_REMAP_PAGE (a b : Nat) : Fld := ⟨(R.AQ_REMAP a b), 0, 22⟩
abbrev F.AQ_REMAP_VALID (a b : Nat) : Fld := ⟨(R.AQ_REMAP a b), 31, 1⟩
abbrev R.AQ_INJECT_ADDR_LO : Nat := 0x800300
abbrev F.AQ_INJECT_ADDR_LO_ADDR_LO : Fld := ⟨R.AQ_INJECT_ADDR_LO, 0, 32⟩
abbrev R.AQ_INJECT_ADDR_HI : Nat := 0x800304
abbrev F.AQ_INJECT_ADDR_HI_ADDR_HI : Fld := ⟨R.AQ_INJECT_ADDR_HI, 0, 7⟩
abbrev R.AQ_INJECT_CTRL : Nat := 0x800308
abbrev F.AQ_INJECT_CTRL_MODE : Fld := ⟨R.AQ_INJECT_CTRL, 0, 2⟩
abbrev F.AQ_INJECT_CTRL_PERSIST : Fld := ⟨R.AQ_INJECT_CTRL, 2, 1⟩
abbrev R.LK_CTRL (a : Nat) : Nat := 0x1000000 + 0x10000 * a
abbrev F.LK_CTRL_ENABLE (a : Nat) : Fld := ⟨(R.LK_CTRL a), 0, 1⟩
abbrev F.LK_CTRL_PERS (a : Nat) : Fld := ⟨(R.LK_CTRL a), 1, 1⟩
abbrev F.LK_CTRL_RATE (a : Nat) : Fld := ⟨(R.LK_CTRL a), 2, 2⟩
abbrev F.LK_CTRL_PRECODE (a : Nat) : Fld := ⟨(R.LK_CTRL a), 4, 1⟩
abbrev F.LK_CTRL_APR_EN (a : Nat) : Fld := ⟨(R.LK_CTRL a), 5, 1⟩
abbrev F.LK_CTRL_RECAL (a : Nat) : Fld := ⟨(R.LK_CTRL a), 6, 1⟩
abbrev F.LK_CTRL_CLAMP_CLR (a : Nat) : Fld := ⟨(R.LK_CTRL a), 7, 1⟩
abbrev F.LK_CTRL_PARK (a : Nat) : Fld := ⟨(R.LK_CTRL a), 8, 1⟩
abbrev R.LK_STATUS (a : Nat) : Nat := 0x1000004 + 0x10000 * a
abbrev F.LK_STATUS_STATE (a : Nat) : Fld := ⟨(R.LK_STATUS a), 0, 3⟩
abbrev F.LK_STATUS_RATE_NOW (a : Nat) : Fld := ⟨(R.LK_STATUS a), 3, 3⟩
abbrev F.LK_STATUS_LOS (a : Nat) : Fld := ⟨(R.LK_STATUS a), 6, 1⟩
abbrev F.LK_STATUS_CLAMPED (a : Nat) : Fld := ⟨(R.LK_STATUS a), 7, 1⟩
abbrev F.LK_STATUS_INLET_LOW (a : Nat) : Fld := ⟨(R.LK_STATUS a), 8, 1⟩
abbrev R.LK_LANE (a : Nat) : Nat := 0x1000008 + 0x10000 * a
abbrev F.LK_LANE_DARK (a : Nat) : Fld := ⟨(R.LK_LANE a), 0, 8⟩
abbrev F.LK_LANE_CAL_FAIL (a : Nat) : Fld := ⟨(R.LK_LANE a), 8, 8⟩
abbrev F.LK_LANE_IN_USE (a : Nat) : Fld := ⟨(R.LK_LANE a), 16, 8⟩
abbrev R.LK_MAC_LO (a : Nat) : Nat := 0x1000010 + 0x10000 * a
abbrev F.LK_MAC_LO_MAC (a : Nat) : Fld := ⟨(R.LK_MAC_LO a), 0, 32⟩
abbrev R.LK_MAC_HI (a : Nat) : Nat := 0x1000014 + 0x10000 * a
abbrev F.LK_MAC_HI_MAC (a : Nat) : Fld := ⟨(R.LK_MAC_HI a), 0, 16⟩
abbrev R.LK_PTP_ASYM (a : Nat) : Nat := 0x1000018 + 0x10000 * a
abbrev F.LK_PTP_ASYM_ASYM (a : Nat) : Fld := ⟨(R.LK_PTP_ASYM a), 0, 32⟩
abbrev R.LK_PEER (a : Nat) : Nat := 0x100001c + 0x10000 * a
abbrev F.LK_PEER_DEVID (a : Nat) : Fld := ⟨(R.LK_PEER a), 0, 16⟩
abbrev F.LK_PEER_VALID (a : Nat) : Fld := ⟨(R.LK_PEER a), 16, 1⟩
abbrev R.LK_POW (a b : Nat) : Nat := 0x1000040 + 0x10000 * a + 0x4 * b
abbrev F.LK_POW_TX (a b : Nat) : Fld := ⟨(R.LK_POW a b), 0, 16⟩
abbrev F.LK_POW_RX (a b : Nat) : Fld := ⟨(R.LK_POW a b), 16, 16⟩
abbrev R.LK_TOTAL (a : Nat) : Nat := 0x1000060 + 0x10000 * a
abbrev F.LK_TOTAL_TX (a : Nat) : Fld := ⟨(R.LK_TOTAL a), 0, 16⟩
abbrev F.LK_TOTAL_RX (a : Nat) : Fld := ⟨(R.LK_TOTAL a), 16, 16⟩
abbrev R.LK_RING (a b : Nat) : Nat := 0x1000080 + 0x10000 * a + 0x4 * b
abbrev F.LK_RING_TX_CODE (a b : Nat) : Fld := ⟨(R.LK_RING a b), 0, 12⟩
abbrev F.LK_RING_TX_HOPS (a b : Nat) : Fld := ⟨(R.LK_RING a b), 12, 4⟩
abbrev F.LK_RING_RX_CODE (a b : Nat) : Fld := ⟨(R.LK_RING a b), 16, 12⟩
abbrev F.LK_RING_HOPS (a b : Nat) : Fld := ⟨(R.LK_RING a b), 28, 4⟩
abbrev R.LK_FEC_CORR (a : Nat) : Nat := 0x1000100 + 0x10000 * a
abbrev F.LK_FEC_CORR (a : Nat) : Fld := ⟨(R.LK_FEC_CORR a), 0, 32⟩
abbrev R.LK_FEC_UNCORR (a : Nat) : Nat := 0x1000104 + 0x10000 * a
abbrev F.LK_FEC_UNCORR (a : Nat) : Fld := ⟨(R.LK_FEC_UNCORR a), 0, 32⟩
abbrev R.LK_LUAPO_CRC (a : Nat) : Nat := 0x1000108 + 0x10000 * a
abbrev F.LK_LUAPO_CRC (a : Nat) : Fld := ⟨(R.LK_LUAPO_CRC a), 0, 32⟩
abbrev R.LK_LUAPO_REPLAY (a : Nat) : Nat := 0x100010c + 0x10000 * a
abbrev F.LK_LUAPO_REPLAY (a : Nat) : Fld := ⟨(R.LK_LUAPO_REPLAY a), 0, 32⟩
abbrev R.LK_LUAPO_NOROUTE (a : Nat) : Nat := 0x1000110 + 0x10000 * a
abbrev F.LK_LUAPO_NOROUTE (a : Nat) : Fld := ⟨(R.LK_LUAPO_NOROUTE a), 0, 32⟩
abbrev R.LK_LUAPO_BADADDR (a : Nat) : Nat := 0x1000114 + 0x10000 * a
abbrev F.LK_LUAPO_BADADDR (a : Nat) : Fld := ⟨(R.LK_LUAPO_BADADDR a), 0, 32⟩
abbrev R.LK_DELAY (a : Nat) : Nat := 0x1000118 + 0x10000 * a
abbrev F.LK_DELAY (a : Nat) : Fld := ⟨(R.LK_DELAY a), 0, 32⟩
abbrev R.LK_LUAPO_DEVID : Nat := 0x1008000
abbrev F.LK_LUAPO_DEVID_DEVID : Fld := ⟨R.LK_LUAPO_DEVID, 0, 16⟩
abbrev R.LK_PAIR_CTRL (a : Nat) : Nat := 0x1008100 + 0x4 * a
abbrev F.LK_PAIR_CTRL_ENGAGE (a : Nat) : Fld := ⟨(R.LK_PAIR_CTRL a), 0, 1⟩
abbrev F.LK_PAIR_CTRL_RELEASE (a : Nat) : Fld := ⟨(R.LK_PAIR_CTRL a), 1, 1⟩
abbrev F.LK_PAIR_CTRL_AUTO_REVERT (a : Nat) : Fld := ⟨(R.LK_PAIR_CTRL a), 2, 1⟩
abbrev F.LK_PAIR_CTRL_TIMEOUT (a : Nat) : Fld := ⟨(R.LK_PAIR_CTRL a), 8, 8⟩
abbrev R.LK_PAIR_STATUS (a : Nat) : Nat := 0x1008140 + 0x4 * a
abbrev F.LK_PAIR_STATUS_STATE (a : Nat) : Fld := ⟨(R.LK_PAIR_STATUS a), 0, 3⟩
abbrev F.LK_PAIR_STATUS_SENSE (a : Nat) : Fld := ⟨(R.LK_PAIR_STATUS a), 3, 1⟩
abbrev F.LK_PAIR_STATUS_CAUSE (a : Nat) : Fld := ⟨(R.LK_PAIR_STATUS a), 4, 3⟩
abbrev F.LK_PAIR_STATUS_REFUSED (a : Nat) : Fld := ⟨(R.LK_PAIR_STATUS a), 7, 1⟩
abbrev F.LK_PAIR_STATUS_STUCK (a : Nat) : Fld := ⟨(R.LK_PAIR_STATUS a), 8, 1⟩
abbrev R.LK_INLET (a : Nat) : Nat := 0x1008200 + 0x4 * a
abbrev F.LK_INLET_POWER (a : Nat) : Fld := ⟨(R.LK_INLET a), 0, 16⟩
abbrev F.LK_INLET_LOW (a : Nat) : Fld := ⟨(R.LK_INLET a), 16, 1⟩
abbrev F.LK_INLET_APR (a : Nat) : Fld := ⟨(R.LK_INLET a), 17, 1⟩
abbrev R.LK_MON_SEL (a : Nat) : Nat := 0x1008300 + 0x4 * a
abbrev F.LK_MON_SEL_LINK (a : Nat) : Fld := ⟨(R.LK_MON_SEL a), 0, 6⟩
abbrev F.LK_MON_SEL_EN (a : Nat) : Fld := ⟨(R.LK_MON_SEL a), 31, 1⟩
abbrev R.SEC_BOOT_STATUS : Nat := 0x1800000
abbrev F.SEC_BOOT_STATUS_STAGE : Fld := ⟨R.SEC_BOOT_STATUS, 0, 3⟩
abbrev F.SEC_BOOT_STATUS_RECOVERY : Fld := ⟨R.SEC_BOOT_STATUS, 3, 1⟩
abbrev F.SEC_BOOT_STATUS_ROLE : Fld := ⟨R.SEC_BOOT_STATUS, 4, 4⟩
abbrev F.SEC_BOOT_STATUS_REASON : Fld := ⟨R.SEC_BOOT_STATUS, 8, 4⟩
abbrev F.SEC_BOOT_STATUS_CORES_UP : Fld := ⟨R.SEC_BOOT_STATUS, 12, 8⟩
abbrev R.SEC_REC_CTRL : Nat := 0x1800004
abbrev F.SEC_REC_CTRL_START : Fld := ⟨R.SEC_REC_CTRL, 0, 1⟩
abbrev R.SEC_REC_DATA : Nat := 0x1800008
abbrev F.SEC_REC_DATA : Fld := ⟨R.SEC_REC_DATA, 0, 32⟩
abbrev R.SEC_FW_ADDR_LO : Nat := 0x1800010
abbrev F.SEC_FW_ADDR_LO : Fld := ⟨R.SEC_FW_ADDR_LO, 0, 32⟩
abbrev R.SEC_FW_ADDR_HI : Nat := 0x1800014
abbrev F.SEC_FW_ADDR_HI : Fld := ⟨R.SEC_FW_ADDR_HI, 0, 32⟩
abbrev R.SEC_FW_LEN : Nat := 0x1800018
abbrev F.SEC_FW_LEN : Fld := ⟨R.SEC_FW_LEN, 0, 32⟩
abbrev R.SEC_FW_AT_LO : Nat := 0x180001c
abbrev F.SEC_FW_AT_LO : Fld := ⟨R.SEC_FW_AT_LO, 0, 32⟩
abbrev R.SEC_FW_AT_HI : Nat := 0x1800020
abbrev F.SEC_FW_AT_HI : Fld := ⟨R.SEC_FW_AT_HI, 0, 32⟩
abbrev R.SEC_FW_CTRL : Nat := 0x1800024
abbrev F.SEC_FW_CTRL_GO : Fld := ⟨R.SEC_FW_CTRL, 0, 1⟩
abbrev F.SEC_FW_CTRL_COLD : Fld := ⟨R.SEC_FW_CTRL, 1, 1⟩
abbrev F.SEC_FW_CTRL_SOURCE : Fld := ⟨R.SEC_FW_CTRL, 2, 1⟩
abbrev R.SEC_FW_STATUS : Nat := 0x1800028
abbrev F.SEC_FW_STATUS_BUSY : Fld := ⟨R.SEC_FW_STATUS, 0, 1⟩
abbrev F.SEC_FW_STATUS_STORING : Fld := ⟨R.SEC_FW_STATUS, 1, 1⟩
abbrev F.SEC_FW_STATUS_RESULT : Fld := ⟨R.SEC_FW_STATUS, 2, 3⟩
abbrev F.SEC_FW_STATUS_CODE : Fld := ⟨R.SEC_FW_STATUS, 8, 8⟩
abbrev F.SEC_FW_STATUS_ROLE : Fld := ⟨R.SEC_FW_STATUS, 16, 4⟩
abbrev R.SEC_CORE_STATUS (a : Nat) : Nat := 0x1800040 + 0x4 * a
abbrev F.SEC_CORE_STATUS_STATE (a : Nat) : Fld := ⟨(R.SEC_CORE_STATUS a), 0, 3⟩
abbrev F.SEC_CORE_STATUS_EXPIRIES (a : Nat) : Fld := ⟨(R.SEC_CORE_STATUS a), 8, 8⟩
abbrev R.SEC_MODVER (a : Nat) : Nat := 0x1800060 + 0x4 * a
abbrev F.SEC_MODVER_MODULE_VERSION (a : Nat) : Fld := ⟨(R.SEC_MODVER a), 0, 32⟩
abbrev R.SEC_ID_PUB (a : Nat) : Nat := 0x1800100 + 0x4 * a
abbrev F.SEC_ID_PUB (a : Nat) : Fld := ⟨(R.SEC_ID_PUB a), 0, 32⟩
abbrev R.SEC_OWNER_PUB (a : Nat) : Nat := 0x1800140 + 0x4 * a
abbrev F.SEC_OWNER_PUB (a : Nat) : Fld := ⟨(R.SEC_OWNER_PUB a), 0, 32⟩
abbrev R.SEC_OWNER_CTRL : Nat := 0x1800180
abbrev F.SEC_OWNER_CTRL : Fld := ⟨R.SEC_OWNER_CTRL, 0, 32⟩
abbrev R.SEC_OWNER_STATUS : Nat := 0x1800184
abbrev F.SEC_OWNER_STATUS_ENROLLED : Fld := ⟨R.SEC_OWNER_STATUS, 0, 1⟩
abbrev F.SEC_OWNER_STATUS_REFUSED : Fld := ⟨R.SEC_OWNER_STATUS, 1, 1⟩
abbrev R.SEC_LC_NONCE (a : Nat) : Nat := 0x1800200 + 0x4 * a
abbrev F.SEC_LC_NONCE (a : Nat) : Fld := ⟨(R.SEC_LC_NONCE a), 0, 32⟩
abbrev R.SEC_LC_ADDR_LO : Nat := 0x1800220
abbrev F.SEC_LC_ADDR_LO : Fld := ⟨R.SEC_LC_ADDR_LO, 0, 32⟩
abbrev R.SEC_LC_ADDR_HI : Nat := 0x1800224
abbrev F.SEC_LC_ADDR_HI : Fld := ⟨R.SEC_LC_ADDR_HI, 0, 32⟩
abbrev R.SEC_LC_LEN : Nat := 0x1800228
abbrev F.SEC_LC_LEN : Fld := ⟨R.SEC_LC_LEN, 0, 32⟩
abbrev R.SEC_LC_CTRL : Nat := 0x180022c
abbrev F.SEC_LC_CTRL_TARGET : Fld := ⟨R.SEC_LC_CTRL, 0, 3⟩
abbrev F.SEC_LC_CTRL_GO : Fld := ⟨R.SEC_LC_CTRL, 31, 1⟩
abbrev R.SEC_LC_CONSENT : Nat := 0x1800230
abbrev F.SEC_LC_CONSENT : Fld := ⟨R.SEC_LC_CONSENT, 0, 32⟩
abbrev R.SEC_LC_STATUS : Nat := 0x1800234
abbrev F.SEC_LC_STATUS_BUSY : Fld := ⟨R.SEC_LC_STATUS, 0, 1⟩
abbrev F.SEC_LC_STATUS_RESULT : Fld := ⟨R.SEC_LC_STATUS, 1, 2⟩
abbrev F.SEC_LC_STATUS_REASON : Fld := ⟨R.SEC_LC_STATUS, 4, 4⟩
abbrev R.SEC_ATT_NONCE (a : Nat) : Nat := 0x1800300 + 0x4 * a
abbrev F.SEC_ATT_NONCE (a : Nat) : Fld := ⟨(R.SEC_ATT_NONCE a), 0, 32⟩
abbrev R.SEC_ATT_ADDR_LO : Nat := 0x1800320
abbrev F.SEC_ATT_ADDR_LO : Fld := ⟨R.SEC_ATT_ADDR_LO, 0, 32⟩
abbrev R.SEC_ATT_ADDR_HI : Nat := 0x1800324
abbrev F.SEC_ATT_ADDR_HI : Fld := ⟨R.SEC_ATT_ADDR_HI, 0, 32⟩
abbrev R.SEC_ATT_CTRL : Nat := 0x1800328
abbrev F.SEC_ATT_CTRL_GO : Fld := ⟨R.SEC_ATT_CTRL, 0, 1⟩
abbrev R.SEC_ATT_STATUS : Nat := 0x180032c
abbrev F.SEC_ATT_STATUS_BUSY : Fld := ⟨R.SEC_ATT_STATUS, 0, 1⟩
abbrev F.SEC_ATT_STATUS_DONE : Fld := ⟨R.SEC_ATT_STATUS, 1, 1⟩
abbrev F.SEC_ATT_STATUS_ERR : Fld := ⟨R.SEC_ATT_STATUS, 2, 1⟩
abbrev R.RV_LOCK : Nat := 0x1900000
abbrev F.RV_LOCK_LOCK : Fld := ⟨R.RV_LOCK, 0, 1⟩
abbrev R.RV_TRIP_BYPASS : Nat := 0x1900004
abbrev F.RV_TRIP_BYPASS : Fld := ⟨R.RV_TRIP_BYPASS, 0, 8⟩
abbrev R.RV_LINK_ALLOW_LO : Nat := 0x1900008
abbrev F.RV_LINK_ALLOW_LO : Fld := ⟨R.RV_LINK_ALLOW_LO, 0, 32⟩
abbrev R.RV_LINK_ALLOW_HI : Nat := 0x190000c
abbrev F.RV_LINK_ALLOW_HI : Fld := ⟨R.RV_LINK_ALLOW_HI, 0, 8⟩
abbrev R.RV_STRAPS : Nat := 0x1900010
abbrev F.RV_STRAPS : Fld := ⟨R.RV_STRAPS, 0, 5⟩
abbrev R.RV_DROP (a : Nat) : Nat := 0x1900100 + 0x4 * a
abbrev F.RV_DROP_FRACTION (a : Nat) : Fld := ⟨(R.RV_DROP a), 0, 16⟩
abbrev F.RV_DROP_FLOOR (a : Nat) : Fld := ⟨(R.RV_DROP a), 16, 16⟩
abbrev R.RV_ORIG (a : Nat) : Nat := 0x1900200 + 0x4 * a
abbrev F.RV_ORIG_CAP (a : Nat) : Fld := ⟨(R.RV_ORIG a), 0, 16⟩
abbrev R.RV_WDT (a : Nat) : Nat := 0x1900300 + 0x4 * a
abbrev F.RV_WDT (a : Nat) : Fld := ⟨(R.RV_WDT a), 0, 32⟩
abbrev R.PWR_STATUS : Nat := 0x1a00000
abbrev F.PWR_STATUS_ALERT : Fld := ⟨R.PWR_STATUS, 0, 1⟩
abbrev F.PWR_STATUS_ARRAY_FRACTION : Fld := ⟨R.PWR_STATUS, 1, 4⟩
abbrev F.PWR_STATUS_WINDOW : Fld := ⟨R.PWR_STATUS, 5, 1⟩
abbrev F.PWR_STATUS_HALVED : Fld := ⟨R.PWR_STATUS, 6, 1⟩
abbrev F.PWR_STATUS_TWARN : Fld := ⟨R.PWR_STATUS, 7, 1⟩
abbrev R.PWR_LIMIT : Nat := 0x1a00004
abbrev F.PWR_LIMIT_WATTS : Fld := ⟨R.PWR_LIMIT, 0, 10⟩
abbrev R.PWR_NOW : Nat := 0x1a00008
abbrev F.PWR_NOW_WATTS : Fld := ⟨R.PWR_NOW, 0, 10⟩
abbrev F.PWR_NOW_PEAK : Fld := ⟨R.PWR_NOW, 16, 10⟩
abbrev R.PWR_TJ : Nat := 0x1a0000c
abbrev F.PWR_TJ_NOW : Fld := ⟨R.PWR_TJ, 0, 16⟩
abbrev F.PWR_TJ_MAX : Fld := ⟨R.PWR_TJ, 16, 16⟩
abbrev R.PWR_TWARN : Nat := 0x1a00010
abbrev F.PWR_TWARN_LEVEL : Fld := ⟨R.PWR_TWARN, 0, 16⟩
abbrev R.PWR_VDDC_SET : Nat := 0x1a00014
abbrev F.PWR_VDDC_SET_SET_MV : Fld := ⟨R.PWR_VDDC_SET, 0, 10⟩
abbrev F.PWR_VDDC_SET_FUSED_MV : Fld := ⟨R.PWR_VDDC_SET, 16, 10⟩
abbrev R.PWR_RESET_CAUSE : Nat := 0x1a00018
abbrev F.PWR_RESET_CAUSE_CAUSE : Fld := ⟨R.PWR_RESET_CAUSE, 0, 4⟩
abbrev F.PWR_RESET_CAUSE_RAIL : Fld := ⟨R.PWR_RESET_CAUSE, 4, 4⟩
abbrev F.PWR_RESET_CAUSE_DEPTH : Fld := ⟨R.PWR_RESET_CAUSE, 8, 8⟩
abbrev R.PWR_RAIL (a : Nat) : Nat := 0x1a00100 + 0x4 * a
abbrev F.PWR_RAIL_MV (a : Nat) : Fld := ⟨(R.PWR_RAIL a), 0, 16⟩
abbrev F.PWR_RAIL_WINDOWS (a : Nat) : Fld := ⟨(R.PWR_RAIL a), 16, 8⟩
abbrev F.PWR_RAIL_BELOW_WARN (a : Nat) : Fld := ⟨(R.PWR_RAIL a), 24, 1⟩
abbrev R.PWR_BIST_CTRL : Nat := 0x1a00200
abbrev F.PWR_BIST_CTRL_KEY : Fld := ⟨R.PWR_BIST_CTRL, 0, 32⟩
abbrev R.PWR_BIST_STATUS : Nat := 0x1a00204
abbrev F.PWR_BIST_STATUS_RESULT : Fld := ⟨R.PWR_BIST_STATUS, 0, 2⟩
abbrev F.PWR_BIST_STATUS_RANGE : Fld := ⟨R.PWR_BIST_STATUS, 2, 1⟩
abbrev F.PWR_BIST_STATUS_REFUSED_LC : Fld := ⟨R.PWR_BIST_STATUS, 3, 1⟩
abbrev F.PWR_BIST_STATUS_REFUSED_RANGE : Fld := ⟨R.PWR_BIST_STATUS, 4, 1⟩
abbrev F.PWR_BIST_STATUS_RUNNING : Fld := ⟨R.PWR_BIST_STATUS, 5, 1⟩
abbrev F.PWR_BIST_STATUS_FULL : Fld := ⟨R.PWR_BIST_STATUS, 6, 1⟩
abbrev F.PWR_BIST_STATUS_ENTRIES : Fld := ⟨R.PWR_BIST_STATUS, 7, 5⟩
abbrev F.PWR_BIST_STATUS_OVERFLOW : Fld := ⟨R.PWR_BIST_STATUS, 12, 1⟩
abbrev R.PWR_BIST_LOG (a : Nat) : Nat := 0x1a00210 + 0x4 * a
abbrev F.PWR_BIST_LOG_KIND (a : Nat) : Fld := ⟨(R.PWR_BIST_LOG a), 0, 4⟩
abbrev F.PWR_BIST_LOG_INSTANCE (a : Nat) : Fld := ⟨(R.PWR_BIST_LOG a), 4, 16⟩
abbrev F.PWR_BIST_LOG_ABSORBED (a : Nat) : Fld := ⟨(R.PWR_BIST_LOG a), 20, 1⟩
abbrev F.PWR_BIST_LOG_VALID (a : Nat) : Fld := ⟨(R.PWR_BIST_LOG a), 31, 1⟩
abbrev R.PWR_IST_CTRL : Nat := 0x1a00300
abbrev F.PWR_IST_CTRL_EN : Fld := ⟨R.PWR_IST_CTRL, 0, 1⟩
abbrev F.PWR_IST_CTRL_HOURS : Fld := ⟨R.PWR_IST_CTRL, 8, 8⟩
abbrev R.PWR_IST_STATUS : Nat := 0x1a00304
abbrev F.PWR_IST_STATUS_ROTATIONS : Fld := ⟨R.PWR_IST_STATUS, 0, 16⟩
abbrev F.PWR_IST_STATUS_STARVED : Fld := ⟨R.PWR_IST_STATUS, 16, 1⟩
abbrev F.PWR_IST_STATUS_TILE : Fld := ⟨R.PWR_IST_STATUS, 17, 1⟩
abbrev F.PWR_IST_STATUS_TG : Fld := ⟨R.PWR_IST_STATUS, 18, 1⟩
abbrev F.PWR_IST_STATUS_BANK : Fld := ⟨R.PWR_IST_STATUS, 19, 1⟩
abbrev F.PWR_IST_STATUS_LANE : Fld := ⟨R.PWR_IST_STATUS, 20, 1⟩
abbrev F.PWR_IST_STATUS_HL : Fld := ⟨R.PWR_IST_STATUS, 21, 1⟩
abbrev F.PWR_IST_STATUS_SLICE : Fld := ⟨R.PWR_IST_STATUS, 22, 1⟩
abbrev R.DBG_CTRL : Nat := 0x1b00000
abbrev F.DBG_CTRL_FREEZE : Fld := ⟨R.DBG_CTRL, 0, 1⟩
abbrev F.DBG_CTRL_PREBYPASS : Fld := ⟨R.DBG_CTRL, 1, 1⟩
abbrev F.DBG_CTRL_PIN_EN : Fld := ⟨R.DBG_CTRL, 2, 1⟩
abbrev F.DBG_CTRL_CAPTURE_EN : Fld := ⟨R.DBG_CTRL, 3, 1⟩
abbrev F.DBG_CTRL_LOCK : Fld := ⟨R.DBG_CTRL, 4, 1⟩
abbrev R.DBG_TRIG : Nat := 0x1b00004
abbrev F.DBG_TRIG_EVENT : Fld := ⟨R.DBG_TRIG, 0, 16⟩
abbrev F.DBG_TRIG_EVT_EN : Fld := ⟨R.DBG_TRIG, 16, 1⟩
abbrev F.DBG_TRIG_STROKE_EN : Fld := ⟨R.DBG_TRIG, 17, 1⟩
abbrev R.DBG_TRIG_STROKE_LO : Nat := 0x1b00008
abbrev F.DBG_TRIG_STROKE_LO_STROKE : Fld := ⟨R.DBG_TRIG_STROKE_LO, 0, 32⟩
abbrev R.DBG_TRIG_STROKE_HI : Nat := 0x1b0000c
abbrev F.DBG_TRIG_STROKE_HI_STROKE : Fld := ⟨R.DBG_TRIG_STROKE_HI, 0, 32⟩
abbrev R.DBG_STATUS : Nat := 0x1b00010
abbrev F.DBG_STATUS_FROZEN : Fld := ⟨R.DBG_STATUS, 0, 1⟩
abbrev F.DBG_STATUS_PRE : Fld := ⟨R.DBG_STATUS, 1, 1⟩
abbrev F.DBG_STATUS_SOURCE : Fld := ⟨R.DBG_STATUS, 2, 3⟩
abbrev R.DBG_FREEZE_TIME_LO : Nat := 0x1b00014
abbrev F.DBG_FREEZE_TIME_LO_TIME : Fld := ⟨R.DBG_FREEZE_TIME_LO, 0, 32⟩
abbrev R.DBG_FREEZE_TIME_HI : Nat := 0x1b00018
abbrev F.DBG_FREEZE_TIME_HI_TIME : Fld := ⟨R.DBG_FREEZE_TIME_HI, 0, 32⟩
abbrev R.DBG_FREEZE_STROKE_LO : Nat := 0x1b0001c
abbrev F.DBG_FREEZE_STROKE_LO_STROKE : Fld := ⟨R.DBG_FREEZE_STROKE_LO, 0, 32⟩
abbrev R.DBG_FREEZE_STROKE_HI : Nat := 0x1b00020
abbrev F.DBG_FREEZE_STROKE_HI_STROKE : Fld := ⟨R.DBG_FREEZE_STROKE_HI, 0, 32⟩
abbrev R.DBG_RELEASE : Nat := 0x1b00024
abbrev F.DBG_RELEASE_KEY : Fld := ⟨R.DBG_RELEASE, 0, 32⟩
abbrev R.DBG_CAP_SPACE : Nat := 0x1b00040
abbrev F.DBG_CAP_SPACE_SPACE : Fld := ⟨R.DBG_CAP_SPACE, 0, 3⟩
abbrev F.DBG_CAP_SPACE_INSTANCE : Fld := ⟨R.DBG_CAP_SPACE, 8, 8⟩
abbrev R.DBG_CAP_ADDR_LO : Nat := 0x1b00044
abbrev F.DBG_CAP_ADDR_LO : Fld := ⟨R.DBG_CAP_ADDR_LO, 0, 32⟩
abbrev R.DBG_CAP_ADDR_HI : Nat := 0x1b00048
abbrev F.DBG_CAP_ADDR_HI : Fld := ⟨R.DBG_CAP_ADDR_HI, 0, 32⟩
abbrev R.DBG_CAP_LEN : Nat := 0x1b0004c
abbrev F.DBG_CAP_LEN : Fld := ⟨R.DBG_CAP_LEN, 0, 32⟩
abbrev R.DBG_CAP_GO : Nat := 0x1b00050
abbrev F.DBG_CAP_GO : Fld := ⟨R.DBG_CAP_GO, 0, 1⟩
abbrev R.DBG_CAP_STATUS : Nat := 0x1b00054
abbrev F.DBG_CAP_STATUS_BUSY : Fld := ⟨R.DBG_CAP_STATUS, 0, 1⟩
abbrev F.DBG_CAP_STATUS_DONE : Fld := ⟨R.DBG_CAP_STATUS, 1, 1⟩
abbrev F.DBG_CAP_STATUS_REFUSED : Fld := ⟨R.DBG_CAP_STATUS, 2, 1⟩
abbrev F.DBG_CAP_STATUS_REASON : Fld := ⟨R.DBG_CAP_STATUS, 4, 3⟩
abbrev F.DBG_CAP_STATUS_RECORDS : Fld := ⟨R.DBG_CAP_STATUS, 8, 24⟩
abbrev R.MSIX_ADDR_LO (a : Nat) : Nat := 0x30000 + 0x10 * a
abbrev F.MSIX_ADDR_LO_ADDR (a : Nat) : Fld := ⟨(R.MSIX_ADDR_LO a), 0, 32⟩
abbrev R.MSIX_ADDR_UP (a : Nat) : Nat := 0x30004 + 0x10 * a
abbrev F.MSIX_ADDR_UP_ADDR (a : Nat) : Fld := ⟨(R.MSIX_ADDR_UP a), 0, 32⟩
abbrev R.MSIX_DATA (a : Nat) : Nat := 0x30008 + 0x10 * a
abbrev F.MSIX_DATA_DATA (a : Nat) : Fld := ⟨(R.MSIX_DATA a), 0, 32⟩
abbrev R.MSIX_CTRL (a : Nat) : Nat := 0x3000c + 0x10 * a
abbrev F.MSIX_CTRL_MASK (a : Nat) : Fld := ⟨(R.MSIX_CTRL a), 0, 1⟩
abbrev R.MSIX_PBA (a : Nat) : Nat := 0x31000 + 0x4 * a
abbrev F.MSIX_PBA_PENDING (a : Nat) : Fld := ⟨(R.MSIX_PBA a), 0, 32⟩

end Sys2Proof.Machine
end

