-- ==== Sys2Proof/Machine/RegMap.lean ====
section
/-! DEFINITION. The BAR0 register map: every register's place, and every field's access code and reset value (R9-R15, R63). -/

namespace Sys2Proof.Machine

/-- The access codes of R11. -/
inductive Access where
  | rw | ro | wo | w1c | w1s | rwl
  deriving DecidableEq, Repr

/-- What the Reset column of a field gives: a value, the queue's own number (HIF_QCTRLq.VECTOR), or
LK_CTRLn.PERS's rule (1 on LK24-LK39). A field loaded from fuse, strap or cal holds 0 until start-up loads it
(DESIGN CHOICE, log 2). -/
inductive ResetVal where
  | val (n : Nat) | queue | pers
  deriving DecidableEq, Repr

/-- Whether a register is a half of a 64-bit quantity under R10. -/
inductive Half where
  | single | lo | hi
  deriving DecidableEq, Repr

/-- One field of a register: lowest bit, width, access code, host-only mark (HO), reset value. -/
structure FieldRow where
  lo  : Nat
  w   : Nat
  acc : Access
  ho  : Bool
  rst : ResetVal
  deriving DecidableEq, Repr

/-- One register of the map, or an array of them: BAR0 offset, the counts and strides of its indices, its fields. -/
structure RegRow where
  base   : Nat
  dims   : List (Nat × Nat)
  half   : Half
  fields : List FieldRow
  deriving DecidableEq, Repr

/-- Registers 0 to 39 of the map, in the order of spec/. -/
def regRows0 : List RegRow := [
  ⟨R.STK_CTRL, [], .single, [⟨0, 1, .rw, true, .val 0⟩, ⟨1, 3, .rw, true, .val 0⟩, ⟨4, 5, .rw, true, .val 0⟩, ⟨9, 2, .rw, true, .val 0⟩]⟩,
  ⟨R.STK_STATUS, [], .single, [⟨0, 3, .ro, false, .val 0⟩, ⟨3, 1, .ro, false, .val 0⟩, ⟨4, 1, .w1c, false, .val 0⟩]⟩,
  ⟨R.STK_PERIOD, [], .single, [⟨0, 32, .rw, false, .val 0x3d090⟩]⟩,
  ⟨R.STK_ACTIVE_PERIOD, [], .single, [⟨0, 32, .ro, false, .val 0x3d090⟩]⟩,
  ⟨R.STK_NOW_LO, [], .lo, [⟨0, 32, .ro, false, .val 0xffffffff⟩]⟩,
  ⟨R.STK_NOW_HI, [], .hi, [⟨0, 32, .ro, false, .val 0xffffffff⟩]⟩,
  ⟨R.STK_BASE_LO, [], .lo, [⟨0, 32, .rw, true, .val 0⟩]⟩,
  ⟨R.STK_BASE_HI, [], .hi, [⟨0, 32, .rw, true, .val 0⟩]⟩,
  ⟨R.STK_ORIGIN_LO, [], .lo, [⟨0, 32, .rw, true, .val 0⟩]⟩,
  ⟨R.STK_ORIGIN_HI, [], .hi, [⟨0, 32, .rw, true, .val 0⟩]⟩,
  ⟨R.STK_TIME_LO, [], .lo, [⟨0, 32, .ro, false, .val 0⟩]⟩,
  ⟨R.STK_TIME_HI, [], .hi, [⟨0, 32, .ro, false, .val 0⟩]⟩,
  ⟨R.STK_PERIOD_AT_LO, [], .lo, [⟨0, 32, .rw, false, .val 0⟩]⟩,
  ⟨R.STK_PERIOD_AT_HI, [], .hi, [⟨0, 32, .rw, false, .val 0⟩]⟩,
  ⟨R.STK_HOLDOVER, [], .single, [⟨0, 16, .rw, true, .val 2000⟩]⟩,
  ⟨R.STK_STEP_LIMIT, [], .single, [⟨0, 32, .rw, true, .val 0x2710⟩]⟩,
  ⟨R.STK_TOD_SEC, [], .single, [⟨0, 32, .rw, false, .val 0⟩]⟩,
  ⟨R.STK_MARKER_LINKS, [], .single, [⟨0, 32, .rw, false, .val 0⟩]⟩,
  ⟨R.STK_BUDGET 0, [(80, 0x4)], .single, [⟨0, 32, .rw, false, .val 0xffffffff⟩]⟩,
  ⟨R.STK_QPOL 0, [(80, 0x4)], .single, [⟨0, 1, .rw, false, .val 0⟩, ⟨4, 3, .rw, false, .val 7⟩]⟩,
  ⟨R.STK_QUSED 0, [(80, 0x4)], .single, [⟨0, 32, .ro, false, .val 0⟩]⟩,
  ⟨R.GLB_ID, [], .single, [⟨0, 16, .ro, false, .val 2176⟩, ⟨16, 8, .ro, false, .val 0⟩, ⟨24, 8, .ro, false, .val 1⟩]⟩,
  ⟨R.GLB_STATUS, [], .single, [⟨0, 1, .ro, false, .val 0⟩, ⟨1, 1, .ro, false, .val 0⟩, ⟨2, 1, .w1c, false, .val 0⟩, ⟨3, 1, .ro, false, .val 0⟩, ⟨4, 4, .ro, false, .val 0⟩, ⟨8, 3, .ro, false, .val 0⟩]⟩,
  ⟨R.GLB_CAP, [], .single, [⟨0, 7, .ro, false, .val 0⟩, ⟨7, 3, .ro, false, .val 0⟩, ⟨10, 4, .ro, false, .val 0⟩, ⟨14, 5, .ro, false, .val 0⟩, ⟨19, 1, .ro, false, .val 0⟩]⟩,
  ⟨R.GLB_SCRATCH, [], .single, [⟨0, 32, .rw, false, .val 0⟩]⟩,
  ⟨R.GLB_SERIAL_LO, [], .lo, [⟨0, 32, .ro, false, .val 0⟩]⟩,
  ⟨R.GLB_SERIAL_HI, [], .hi, [⟨0, 32, .ro, false, .val 0⟩]⟩,
  ⟨R.GLB_RESET, [], .single, [⟨0, 32, .wo, true, .val 0⟩]⟩,
  ⟨R.HIF_QCTRL 0, [(80, 0x40)], .single, [⟨0, 1, .rw, false, .val 0⟩, ⟨1, 1, .rw, false, .val 0⟩, ⟨2, 1, .w1s, false, .val 0⟩, ⟨3, 5, .rw, false, .val 6⟩, ⟨8, 5, .rw, false, .val 6⟩, ⟨16, 8, .rw, false, .queue⟩, ⟨24, 1, .rw, false, .val 0⟩]⟩,
  ⟨R.HIF_QSTATUS 0, [(80, 0x40)], .single, [⟨0, 1, .ro, false, .val 0⟩, ⟨1, 1, .ro, false, .val 0⟩, ⟨2, 1, .w1c, false, .val 0⟩, ⟨3, 1, .w1c, false, .val 0⟩, ⟨4, 1, .ro, false, .val 0⟩, ⟨5, 1, .ro, false, .val 0⟩]⟩,
  ⟨R.HIF_QSQBASE_LO 0, [(80, 0x40)], .lo, [⟨0, 32, .rw, false, .val 0⟩]⟩,
  ⟨R.HIF_QSQBASE_HI 0, [(80, 0x40)], .hi, [⟨0, 32, .rw, false, .val 0⟩]⟩,
  ⟨R.HIF_QCQBASE_LO 0, [(80, 0x40)], .lo, [⟨0, 32, .rw, false, .val 0⟩]⟩,
  ⟨R.HIF_QCQBASE_HI 0, [(80, 0x40)], .hi, [⟨0, 32, .rw, false, .val 0⟩]⟩,
  ⟨R.HIF_QSQHEAD 0, [(80, 0x40)], .single, [⟨0, 16, .ro, false, .val 0⟩]⟩,
  ⟨R.HIF_QCQTAIL 0, [(80, 0x40)], .single, [⟨0, 16, .ro, false, .val 0⟩]⟩,
  ⟨R.HIF_QIRQ 0, [(80, 0x40)], .single, [⟨0, 16, .rw, false, .val 1⟩, ⟨16, 16, .rw, false, .val 0⟩]⟩,
  ⟨R.HIF_QLAST 0, [(80, 0x40)], .single, [⟨0, 8, .ro, false, .val 0⟩, ⟨8, 15, .ro, false, .val 0⟩]⟩,
  ⟨R.HIF_EVT_CTRL, [], .single, [⟨0, 1, .rw, false, .val 0⟩, ⟨3, 5, .rw, false, .val 6⟩, ⟨8, 8, .rw, false, .val 80⟩, ⟨16, 1, .rw, false, .val 0⟩]⟩,
  ⟨R.HIF_EVT_BASE_LO, [], .lo, [⟨0, 32, .rw, false, .val 0⟩]⟩]

/-- Registers 40 to 79 of the map, in the order of spec/. -/
def regRows1 : List RegRow := [
  ⟨R.HIF_EVT_BASE_HI, [], .hi, [⟨0, 32, .rw, false, .val 0⟩]⟩,
  ⟨R.HIF_EVT_HEAD, [], .single, [⟨0, 16, .rw, false, .val 0⟩]⟩,
  ⟨R.HIF_EVT_TAIL, [], .single, [⟨0, 16, .ro, false, .val 0⟩]⟩,
  ⟨R.HIF_EVT_LOST, [], .single, [⟨0, 32, .ro, false, .val 0⟩]⟩,
  ⟨R.HIF_EVT_IRQ, [], .single, [⟨0, 16, .rw, false, .val 1⟩, ⟨16, 16, .rw, false, .val 0⟩]⟩,
  ⟨R.HIF_EVT_MASK 0, [(16, 0x4)], .single, [⟨0, 32, .rw, false, .val 0⟩]⟩,
  ⟨R.HIF_LOCK, [], .single, [⟨0, 1, .w1s, true, .val 0⟩]⟩,
  ⟨R.HIF_BAR4_CTRL, [], .single, [⟨0, 1, .rwl, true, .val 0⟩]⟩,
  ⟨R.HIF_BAR4_BAY, [], .single, [⟨0, 4, .rw, true, .val 0⟩]⟩,
  ⟨R.HIF_DMAW_0 0, [(256, 0x10)], .single, [⟨12, 20, .rwl, true, .val 0⟩]⟩,
  ⟨R.HIF_DMAW_4 0, [(256, 0x10)], .single, [⟨0, 32, .rwl, true, .val 0⟩]⟩,
  ⟨R.HIF_DMAW_8 0, [(256, 0x10)], .single, [⟨0, 32, .rwl, true, .val 0⟩]⟩,
  ⟨R.HIF_DMAW_C 0, [(256, 0x10)], .single, [⟨0, 1, .rwl, true, .val 0⟩, ⟨1, 1, .rwl, true, .val 0⟩]⟩,
  ⟨R.FLT_TICK 0, [(65536, 0x4)], .single, [⟨0, 16, .rw, false, .val 0⟩, ⟨16, 16, .rw, false, .val 0⟩]⟩,
  ⟨R.WH_LINK_CTRL 0, [(24, 0x100)], .single, [⟨0, 2, .rw, false, .val 0⟩, ⟨4, 1, .rw, false, .val 0⟩]⟩,
  ⟨R.WH_LINK_DEFAULT 0, [(24, 0x100)], .single, [⟨0, 2, .rw, false, .val 0⟩, ⟨4, 3, .rw, false, .val 0⟩, ⟨8, 8, .rw, false, .val 0⟩]⟩,
  ⟨R.WH_STP_CTRL 0, [(24, 0x100)], .single, [⟨0, 1, .w1s, false, .val 0⟩, ⟨8, 7, .rw, false, .val 0⟩]⟩,
  ⟨R.WH_STP_MAXLEN 0, [(24, 0x100)], .single, [⟨0, 15, .rw, false, .val 0x2400⟩]⟩,
  ⟨R.WH_STP_FILL 0, [(24, 0x100)], .single, [⟨0, 18, .ro, false, .val 0⟩]⟩,
  ⟨R.WH_REORDER_FILL 0, [(24, 0x100)], .single, [⟨0, 13, .ro, false, .val 0⟩]⟩,
  ⟨R.WH_STP_FULL_DROPS 0, [(24, 0x100)], .single, [⟨0, 32, .ro, false, .val 0⟩]⟩,
  ⟨R.WH_STP_FLUSH_DROPS 0, [(24, 0x100)], .single, [⟨0, 32, .ro, false, .val 0⟩]⟩,
  ⟨R.WH_STP_ERR_DROPS 0, [(24, 0x100)], .single, [⟨0, 32, .ro, false, .val 0⟩]⟩,
  ⟨R.WH_STP_MARK_LOST 0, [(24, 0x100)], .single, [⟨0, 32, .ro, false, .val 0⟩]⟩,
  ⟨R.WH_PARSE_NOPROF 0, [(24, 0x100)], .single, [⟨0, 32, .ro, false, .val 0⟩]⟩,
  ⟨R.WH_PARSE_SHORT 0, [(24, 0x100)], .single, [⟨0, 32, .ro, false, .val 0⟩]⟩,
  ⟨R.WH_PARSE_FRAG 0, [(24, 0x100)], .single, [⟨0, 32, .ro, false, .val 0⟩]⟩,
  ⟨R.WH_LA_BAD 0, [(24, 0x100)], .single, [⟨0, 32, .ro, false, .val 0⟩]⟩,
  ⟨R.WH_LA_FOREIGN 0, [(24, 0x100)], .single, [⟨0, 32, .ro, false, .val 0⟩]⟩,
  ⟨R.WH_SUMP, [], .single, [⟨0, 5, .rw, false, .val 0⟩, ⟨31, 1, .rw, false, .val 0⟩]⟩,
  ⟨R.WH_INTAKE_STATUS, [], .single, [⟨0, 1, .w1c, false, .val 0⟩]⟩,
  ⟨R.WH_LANES, [], .single, [⟨0, 24, .ro, false, .val 0⟩]⟩,
  ⟨R.WH_PROFILE_SEL_0 0, [(256, 0x10)], .single, [⟨0, 24, .rw, false, .val 0⟩]⟩,
  ⟨R.WH_PROFILE_SEL_4 0, [(256, 0x10)], .single, [⟨0, 16, .rw, false, .val 0⟩, ⟨16, 16, .rw, false, .val 0⟩]⟩,
  ⟨R.WH_PROFILE_SEL_8 0, [(256, 0x10)], .single, [⟨0, 6, .rw, false, .val 0⟩, ⟨8, 1, .rw, false, .val 0⟩, ⟨31, 1, .rw, false, .val 0⟩]⟩,
  ⟨R.WH_PROF_CTRL 0, [(64, 0x400)], .single, [⟨0, 1, .rw, false, .val 0⟩, ⟨1, 1, .rw, false, .val 0⟩, ⟨2, 2, .rw, false, .val 0⟩, ⟨4, 7, .rw, false, .val 0⟩, ⟨16, 6, .rw, false, .val 1⟩]⟩,
  ⟨R.WH_PROF_FIELD_0 0 0, [(64, 0x400), (48, 0x8)], .single, [⟨0, 32, .rw, false, .val 0⟩]⟩,
  ⟨R.WH_PROF_FIELD_4 0 0, [(64, 0x400), (48, 0x8)], .single, [⟨0, 32, .rw, false, .val 0⟩]⟩,
  ⟨R.WH_FT_CTRL, [], .single, [⟨0, 1, .rw, false, .val 1⟩, ⟨1, 1, .rw, false, .val 1⟩]⟩,
  ⟨R.WH_FT_STATUS, [], .single, [⟨0, 1, .ro, false, .val 0⟩, ⟨1, 1, .ro, false, .val 0⟩, ⟨2, 1, .ro, false, .val 0⟩]⟩]

/-- Registers 80 to 119 of the map, in the order of spec/. -/
def regRows2 : List RegRow := [
  ⟨R.WH_FT_SEEDB, [], .single, [⟨0, 32, .ro, false, .val 0⟩]⟩,
  ⟨R.WH_FT_SEEDF, [], .single, [⟨0, 32, .ro, false, .val 0⟩]⟩,
  ⟨R.WH_FT_NEW_SEEDB, [], .single, [⟨0, 32, .ro, false, .val 0⟩]⟩,
  ⟨R.WH_FT_NEW_SEEDF, [], .single, [⟨0, 32, .ro, false, .val 0⟩]⟩,
  ⟨R.WH_FT_CURSOR, [], .single, [⟨0, 20, .ro, false, .val 0⟩]⟩,
  ⟨R.WH_FT_USED, [], .single, [⟨0, 24, .ro, false, .val 0⟩]⟩,
  ⟨R.WH_FT_INSERTS, [], .single, [⟨0, 32, .ro, false, .val 0⟩]⟩,
  ⟨R.WH_FT_CHAIN_FAIL, [], .single, [⟨0, 32, .ro, false, .val 0⟩]⟩,
  ⟨R.WH_FT_RELOC_BUSY, [], .single, [⟨0, 32, .ro, false, .val 0⟩]⟩,
  ⟨R.WH_FT_INSERT_BUSY, [], .single, [⟨0, 32, .ro, false, .val 0⟩]⟩,
  ⟨R.WH_FT_FULL, [], .single, [⟨0, 32, .ro, false, .val 0⟩]⟩,
  ⟨R.WH_FT_FALSE_MATCH, [], .single, [⟨0, 32, .ro, false, .val 0⟩]⟩,
  ⟨R.WH_FT_EXPIRED, [], .single, [⟨0, 32, .ro, false, .val 0⟩]⟩,
  ⟨R.WH_FT_ORPHANS, [], .single, [⟨0, 32, .ro, false, .val 0⟩]⟩,
  ⟨R.WH_FT_POISON_REINIT, [], .single, [⟨0, 32, .ro, false, .val 0⟩]⟩,
  ⟨R.WH_FT_DEV_SKIP, [], .single, [⟨0, 32, .ro, false, .val 0⟩]⟩,
  ⟨R.WH_FE_CTRL, [], .single, [⟨0, 1, .rw, false, .val 0⟩, ⟨8, 5, .rw, false, .val 8⟩]⟩,
  ⟨R.WH_FE_BASE_LO, [], .lo, [⟨0, 32, .rw, false, .val 0⟩]⟩,
  ⟨R.WH_FE_BASE_HI, [], .hi, [⟨0, 32, .rw, false, .val 0⟩]⟩,
  ⟨R.WH_FE_PROD, [], .single, [⟨0, 21, .ro, false, .val 0⟩]⟩,
  ⟨R.WH_FE_CONS, [], .single, [⟨0, 21, .rw, false, .val 0⟩]⟩,
  ⟨R.WH_FE_DROPS, [], .single, [⟨0, 32, .ro, false, .val 0⟩]⟩,
  ⟨R.WH_SND_CTRL, [], .single, [⟨0, 1, .rw, false, .val 1⟩, ⟨8, 8, .rw, false, .val 1⟩, ⟨16, 8, .rw, false, .val 4⟩]⟩,
  ⟨R.WH_SND_SEED, [], .single, [⟨0, 32, .ro, false, .val 0⟩]⟩,
  ⟨R.WH_SND_USED, [], .single, [⟨0, 22, .ro, false, .val 0⟩]⟩,
  ⟨R.WH_SND_INSERTS, [], .single, [⟨0, 32, .ro, false, .val 0⟩]⟩,
  ⟨R.WH_SND_EVICTIONS, [], .single, [⟨0, 32, .ro, false, .val 0⟩]⟩,
  ⟨R.WH_SND_NOROOM, [], .single, [⟨0, 32, .ro, false, .val 0⟩]⟩,
  ⟨R.WH_SND_CONFLICTS, [], .single, [⟨0, 32, .ro, false, .val 0⟩]⟩,
  ⟨R.WH_SND_MOVES, [], .single, [⟨0, 32, .ro, false, .val 0⟩]⟩,
  ⟨R.WH_FBANK_CTRL, [], .single, [⟨0, 1, .w1s, false, .val 0⟩, ⟨1, 1, .w1s, false, .val 0⟩, ⟨2, 1, .w1s, false, .val 0⟩]⟩,
  ⟨R.WH_FBANK_AT_LO, [], .lo, [⟨0, 32, .rw, false, .val 0⟩]⟩,
  ⟨R.WH_FBANK_AT_HI, [], .hi, [⟨0, 32, .rw, false, .val 0⟩]⟩,
  ⟨R.WH_FBANK_STATUS, [], .single, [⟨0, 1, .ro, false, .val 0⟩, ⟨1, 1, .ro, false, .val 0⟩, ⟨2, 1, .w1c, false, .val 0⟩, ⟨4, 4, .ro, false, .val 0⟩, ⟨8, 6, .ro, false, .val 0⟩, ⟨14, 1, .ro, false, .val 0⟩, ⟨15, 1, .ro, false, .val 0⟩]⟩,
  ⟨R.WH_FBANK_EPOCH, [], .single, [⟨0, 32, .ro, false, .val 0⟩]⟩,
  ⟨R.WH_FKEY_0 0, [(64, 0x40)], .single, [⟨0, 32, .rw, false, .val 0⟩]⟩,
  ⟨R.WH_FKEY_4 0, [(64, 0x40)], .single, [⟨0, 16, .rw, false, .val 0⟩, ⟨16, 6, .rw, false, .val 0⟩, ⟨31, 1, .rw, false, .val 0⟩]⟩,
  ⟨R.WH_FKEY_8 0, [(64, 0x40)], .single, [⟨0, 16, .rw, false, .val 0⟩]⟩,
  ⟨R.WH_FKEY_C 0, [(64, 0x40)], .single, [⟨0, 2, .rw, false, .val 0⟩, ⟨2, 7, .rw, false, .val 0⟩, ⟨31, 1, .rw, false, .val 0⟩]⟩,
  ⟨R.WH_FKEY_10 0 0, [(64, 0x40), (4, 0x8)], .single, [⟨0, 6, .rw, false, .val 0⟩, ⟨31, 1, .rw, false, .val 0⟩]⟩]

/-- Registers 120 to 159 of the map, in the order of spec/. -/
def regRows3 : List RegRow := [
  ⟨R.WH_FKEY_14 0 0, [(64, 0x40), (4, 0x8)], .single, [⟨0, 32, .rw, false, .val 0⟩]⟩,
  ⟨R.WH_FPROG_0 0 0, [(64, 0x400), (128, 0x8)], .single, [⟨0, 32, .rw, false, .val 0⟩]⟩,
  ⟨R.WH_FPROG_4 0 0, [(64, 0x400), (128, 0x8)], .single, [⟨0, 32, .rw, false, .val 0⟩]⟩,
  ⟨R.WH_BIN_0 0, [(64, 0x400)], .single, [⟨0, 8, .rw, false, .val 0⟩]⟩,
  ⟨R.WH_BIN_100 0 0, [(64, 0x400), (128, 0x4)], .single, [⟨0, 16, .rw, false, .val 0⟩, ⟨16, 16, .rw, false, .val 0⟩]⟩,
  ⟨R.WH_RBANK_CTRL, [], .single, [⟨0, 1, .w1s, false, .val 0⟩, ⟨1, 1, .w1s, false, .val 0⟩, ⟨2, 1, .w1s, false, .val 0⟩]⟩,
  ⟨R.WH_RBANK_AT_LO, [], .lo, [⟨0, 32, .rw, false, .val 0⟩]⟩,
  ⟨R.WH_RBANK_AT_HI, [], .hi, [⟨0, 32, .rw, false, .val 0⟩]⟩,
  ⟨R.WH_RBANK_STATUS, [], .single, [⟨0, 1, .ro, false, .val 0⟩, ⟨1, 1, .ro, false, .val 0⟩, ⟨2, 1, .w1c, false, .val 0⟩, ⟨3, 1, .ro, false, .val 0⟩, ⟨4, 4, .ro, false, .val 0⟩, ⟨8, 6, .ro, false, .val 0⟩, ⟨14, 1, .ro, false, .val 0⟩, ⟨15, 1, .ro, false, .val 0⟩]⟩,
  ⟨R.WH_RBANK_EPOCH, [], .single, [⟨0, 32, .ro, false, .val 0⟩]⟩,
  ⟨R.WH_RBANK_BYTES, [], .single, [⟨0, 24, .ro, false, .val 0⟩]⟩,
  ⟨R.WH_RBANK_INDEX, [], .single, [⟨0, 24, .ro, false, .val 0⟩]⟩,
  ⟨R.WH_EBANK_CTRL, [], .single, [⟨0, 1, .w1s, false, .val 0⟩, ⟨1, 1, .w1s, false, .val 0⟩, ⟨2, 1, .w1s, false, .val 0⟩]⟩,
  ⟨R.WH_EBANK_AT_LO, [], .lo, [⟨0, 32, .rw, false, .val 0⟩]⟩,
  ⟨R.WH_EBANK_AT_HI, [], .hi, [⟨0, 32, .rw, false, .val 0⟩]⟩,
  ⟨R.WH_EBANK_STATUS, [], .single, [⟨0, 1, .ro, false, .val 0⟩, ⟨1, 1, .ro, false, .val 0⟩, ⟨2, 1, .w1c, false, .val 0⟩, ⟨3, 1, .ro, false, .val 0⟩, ⟨4, 4, .ro, false, .val 0⟩, ⟨8, 6, .ro, false, .val 0⟩, ⟨14, 1, .ro, false, .val 0⟩, ⟨15, 1, .ro, false, .val 0⟩]⟩,
  ⟨R.WH_EBANK_EPOCH, [], .single, [⟨0, 32, .ro, false, .val 0⟩]⟩,
  ⟨R.WH_RATE_RED, [], .single, [⟨0, 24, .rw, false, .val 0⟩]⟩,
  ⟨R.WH_TG_STATUS, [], .single, [⟨0, 25, .ro, false, .val 0⟩]⟩,
  ⟨R.WH_TG_SPARE, [], .single, [⟨0, 5, .ro, false, .val 0⟩, ⟨5, 1, .ro, false, .val 0⟩]⟩,
  ⟨R.WH_RULE_REPAIR, [], .single, [⟨0, 32, .ro, false, .val 0⟩]⟩,
  ⟨R.WH_RULE_POISON, [], .single, [⟨0, 32, .ro, false, .val 0⟩]⟩,
  ⟨R.WH_RULE_MISS 0, [(24, 0x40)], .single, [⟨0, 32, .ro, false, .val 0⟩]⟩,
  ⟨R.WH_RECIRC_LIMIT 0, [(24, 0x40)], .single, [⟨0, 32, .ro, false, .val 0⟩]⟩,
  ⟨R.WH_ENS_REFUSED 0, [(24, 0x40)], .single, [⟨0, 32, .ro, false, .val 0⟩]⟩,
  ⟨R.WH_VERDICT_LATE 0, [(24, 0x40)], .single, [⟨0, 32, .ro, false, .val 0⟩]⟩,
  ⟨R.WH_VALVE_PASS 0, [(24, 0x40)], .single, [⟨0, 32, .ro, false, .val 0⟩]⟩,
  ⟨R.WH_MARK_SKIP 0, [(24, 0x40)], .single, [⟨0, 32, .ro, false, .val 0⟩]⟩,
  ⟨R.WH_VF_SENT 0, [(24, 0x40)], .single, [⟨0, 32, .ro, false, .val 0⟩]⟩,
  ⟨R.WH_VF_RECORDS 0, [(24, 0x40)], .single, [⟨0, 32, .ro, false, .val 0⟩]⟩,
  ⟨R.WH_DEFAULT 0, [(24, 0x40)], .single, [⟨0, 32, .ro, false, .val 0⟩]⟩,
  ⟨R.WH_VF_CTRL 0, [(24, 0x20)], .single, [⟨0, 6, .rw, false, .val 32⟩, ⟨8, 8, .rw, false, .val 100⟩]⟩,
  ⟨R.WH_VF_DA_LO 0, [(24, 0x20)], .lo, [⟨0, 32, .rw, false, .val 0⟩]⟩,
  ⟨R.WH_VF_DA_HI 0, [(24, 0x20)], .hi, [⟨0, 16, .rw, false, .val 0⟩]⟩,
  ⟨R.WH_VF_SA_LO 0, [(24, 0x20)], .lo, [⟨0, 32, .rw, false, .val 0⟩]⟩,
  ⟨R.WH_VF_SA_HI 0, [(24, 0x20)], .hi, [⟨0, 16, .rw, false, .val 0⟩]⟩,
  ⟨R.WH_MARK_0 1, [(255, 0x8)], .single, [⟨0, 7, .rw, false, .val 0⟩, ⟨7, 3, .rw, false, .val 0⟩, ⟨10, 3, .rw, false, .val 0⟩, ⟨15, 1, .rw, false, .val 0⟩, ⟨16, 8, .rw, false, .val 0⟩]⟩,
  ⟨R.WH_MARK_4 1, [(255, 0x8)], .single, [⟨0, 1, .rw, false, .val 0⟩, ⟨1, 7, .rw, false, .val 0⟩]⟩,
  ⟨R.EG_LINK_CTRL 0, [(24, 0x1000)], .single, [⟨0, 3, .rw, false, .val 7⟩, ⟨8, 8, .rw, false, .val 0⟩]⟩,
  ⟨R.EG_TC 0 0, [(24, 0x1000), (8, 0x4)], .single, [⟨0, 8, .rw, false, .val 1⟩, ⟨8, 10, .rw, false, .val 768⟩]⟩]

/-- Registers 160 to 199 of the map, in the order of spec/. -/
def regRows4 : List RegRow := [
  ⟨R.EG_SHAPE 0 0, [(24, 0x1000), (8, 0x4)], .single, [⟨0, 16, .rw, false, .val 0⟩, ⟨31, 1, .rw, false, .val 0⟩]⟩,
  ⟨R.EG_QFILL 0 0, [(24, 0x1000), (8, 0x4)], .single, [⟨0, 18, .ro, false, .val 0⟩]⟩,
  ⟨R.EG_GCL_CTRL 0, [(24, 0x1000)], .single, [⟨0, 1, .w1s, false, .val 0⟩, ⟨16, 9, .rw, false, .val 0⟩]⟩,
  ⟨R.EG_GCL_STATUS 0, [(24, 0x1000)], .single, [⟨0, 1, .ro, false, .val 0⟩, ⟨1, 1, .ro, false, .val 0⟩, ⟨2, 1, .ro, false, .val 0⟩, ⟨3, 1, .w1c, false, .val 0⟩, ⟨4, 4, .ro, false, .val 0⟩, ⟨8, 8, .ro, false, .val 0⟩, ⟨16, 8, .ro, false, .val 255⟩]⟩,
  ⟨R.EG_GCL_BASE_LO 0, [(24, 0x1000)], .lo, [⟨0, 32, .rw, false, .val 0⟩]⟩,
  ⟨R.EG_GCL_BASE_HI 0, [(24, 0x1000)], .hi, [⟨0, 32, .rw, false, .val 0⟩]⟩,
  ⟨R.EG_GCL_CYCLE 0, [(24, 0x1000)], .single, [⟨0, 32, .rw, false, .val 0⟩]⟩,
  ⟨R.EG_GCL_TAKEOVER_LO 0, [(24, 0x1000)], .lo, [⟨0, 32, .ro, false, .val 0⟩]⟩,
  ⟨R.EG_GCL_TAKEOVER_HI 0, [(24, 0x1000)], .hi, [⟨0, 32, .ro, false, .val 0⟩]⟩,
  ⟨R.EG_TX_FRAMES 0 0, [(24, 0x1000), (8, 0x20)], .single, [⟨0, 32, .ro, false, .val 0⟩]⟩,
  ⟨R.EG_TX_BYTES_LO 0 0, [(24, 0x1000), (8, 0x20)], .lo, [⟨0, 32, .ro, false, .val 0⟩]⟩,
  ⟨R.EG_TX_BYTES_HI 0 0, [(24, 0x1000), (8, 0x20)], .hi, [⟨0, 32, .ro, false, .val 0⟩]⟩,
  ⟨R.EG_TAIL_DROPS 0 0, [(24, 0x1000), (8, 0x20)], .single, [⟨0, 32, .ro, false, .val 0⟩]⟩,
  ⟨R.EG_POL_DROPS 0 0, [(24, 0x1000), (8, 0x20)], .single, [⟨0, 32, .ro, false, .val 0⟩]⟩,
  ⟨R.EG_GATE_DROPS 0 0, [(24, 0x1000), (8, 0x20)], .single, [⟨0, 32, .ro, false, .val 0⟩]⟩,
  ⟨R.EG_DOWN_DROPS 0 0, [(24, 0x1000), (8, 0x20)], .single, [⟨0, 32, .ro, false, .val 0⟩]⟩,
  ⟨R.EG_POL_YELLOW 0 0, [(24, 0x1000), (8, 0x20)], .single, [⟨0, 32, .ro, false, .val 0⟩]⟩,
  ⟨R.EG_GCL_0 0 0, [(24, 0x1000), (256, 0x8)], .single, [⟨0, 8, .rw, false, .val 0⟩]⟩,
  ⟨R.EG_GCL_4 0 0, [(24, 0x1000), (256, 0x8)], .single, [⟨0, 32, .rw, false, .val 0⟩]⟩,
  ⟨R.EG_POL_NOCFG, [], .single, [⟨0, 32, .ro, false, .val 0⟩]⟩,
  ⟨R.MX_CTRL, [], .single, [⟨0, 8, .rw, true, .val 4⟩]⟩,
  ⟨R.MX_RETIRE, [], .single, [⟨0, 7, .rw, true, .val 0⟩, ⟨31, 1, .w1s, true, .val 0⟩]⟩,
  ⟨R.MX_REMAP 0, [(64, 0x4)], .single, [⟨0, 7, .ro, false, .val 0⟩, ⟨7, 1, .ro, false, .val 0⟩]⟩,
  ⟨R.MX_TILE 0, [(68, 0x4)], .single, [⟨0, 3, .ro, false, .val 0⟩, ⟨4, 6, .ro, false, .val 0⟩, ⟨16, 16, .ro, false, .val 0⟩]⟩,
  ⟨R.MX_PART_BAYS 0, [(16, 0x4)], .single, [⟨0, 10, .rw, false, .val 1023⟩]⟩,
  ⟨R.MX_PART_STATUS 0, [(16, 0x4)], .single, [⟨0, 3, .ro, false, .val 0⟩, ⟨3, 1, .ro, false, .val 0⟩, ⟨4, 4, .ro, false, .val 0⟩, ⟨8, 4, .ro, false, .val 0⟩]⟩,
  ⟨R.MX_SAT 0, [(16, 0x4)], .single, [⟨0, 32, .ro, false, .val 0⟩]⟩,
  ⟨R.MX_POISON_OUT 0, [(16, 0x4)], .single, [⟨0, 32, .ro, false, .val 0⟩]⟩,
  ⟨R.MX_VEC_STATUS 0, [(16, 0x20)], .single, [⟨0, 1, .ro, false, .val 0⟩, ⟨1, 1, .ro, false, .val 0⟩]⟩,
  ⟨R.MX_VEC_SAT 0, [(16, 0x20)], .single, [⟨0, 32, .ro, false, .val 0⟩]⟩,
  ⟨R.MX_VEC_SKEW 0, [(16, 0x20)], .single, [⟨0, 32, .ro, false, .val 0⟩]⟩,
  ⟨R.MX_VEC_NONFINITE 0, [(16, 0x20)], .single, [⟨0, 32, .ro, false, .val 0⟩]⟩,
  ⟨R.MX_VEC_ZERO 0, [(16, 0x20)], .single, [⟨0, 32, .ro, false, .val 0⟩]⟩,
  ⟨R.MX_VEC_POISON_OUT 0, [(16, 0x20)], .single, [⟨0, 32, .ro, false, .val 0⟩]⟩,
  ⟨R.MX_VEC_FNVER, [], .single, [⟨0, 16, .ro, false, .val 0⟩]⟩,
  ⟨R.CI_CTRL, [], .single, [⟨0, 1, .rw, true, .val 1⟩, ⟨1, 1, .rw, false, .val 0⟩]⟩,
  ⟨R.CI_SCRUB_PERIOD, [], .single, [⟨0, 12, .rw, true, .val 600⟩]⟩,
  ⟨R.CI_SCRUB_STATUS, [], .single, [⟨0, 16, .ro, false, .val 0⟩, ⟨16, 1, .w1c, false, .val 0⟩]⟩,
  ⟨R.CI_UE_ADDR_LO, [], .lo, [⟨0, 32, .ro, false, .val 0⟩]⟩,
  ⟨R.CI_UE_ADDR_HI, [], .hi, [⟨0, 32, .ro, false, .val 0⟩]⟩]

/-- Registers 200 to 239 of the map, in the order of spec/. -/
def regRows5 : List RegRow := [
  ⟨R.CI_CE_WORD, [], .single, [⟨0, 32, .ro, false, .val 0⟩]⟩,
  ⟨R.CI_CE_PAGE, [], .single, [⟨0, 32, .ro, false, .val 0⟩]⟩,
  ⟨R.CI_UE, [], .single, [⟨0, 32, .ro, false, .val 0⟩]⟩,
  ⟨R.CI_POISON_READS, [], .single, [⟨0, 32, .ro, false, .val 0⟩]⟩,
  ⟨R.CI_CODE_REBUILD, [], .single, [⟨0, 32, .ro, false, .val 0⟩]⟩,
  ⟨R.CI_REMAPS, [], .single, [⟨0, 32, .ro, false, .val 0⟩]⟩,
  ⟨R.CI_BANK_SEL, [], .single, [⟨0, 11, .rw, false, .val 0⟩]⟩,
  ⟨R.CI_BANK_STATUS, [], .single, [⟨0, 4, .ro, false, .val 8⟩, ⟨4, 1, .ro, false, .val 0⟩, ⟨5, 1, .ro, false, .val 0⟩]⟩,
  ⟨R.CI_REMAP_ENTRY 0, [(8, 0x4)], .single, [⟨0, 17, .ro, false, .val 0⟩, ⟨31, 1, .ro, false, .val 0⟩]⟩,
  ⟨R.CI_REMAP_CMD, [], .single, [⟨0, 28, .rw, true, .val 0⟩, ⟨28, 1, .rw, true, .val 0⟩, ⟨31, 1, .w1s, true, .val 0⟩]⟩,
  ⟨R.CI_SPARE_LO, [], .lo, [⟨0, 32, .ro, false, .val 0⟩]⟩,
  ⟨R.CI_SPARE_HI, [], .hi, [⟨0, 32, .ro, false, .val 0⟩]⟩,
  ⟨R.CI_INJECT_ADDR, [], .single, [⟨0, 28, .rw, true, .val 0⟩]⟩,
  ⟨R.CI_INJECT_CTRL, [], .single, [⟨0, 2, .rw, true, .val 0⟩, ⟨2, 1, .rw, true, .val 0⟩]⟩,
  ⟨R.AQ_CTRL, [], .single, [⟨0, 1, .rw, true, .val 1⟩, ⟨1, 1, .rw, false, .val 0⟩]⟩,
  ⟨R.AQ_SCRUB_PERIOD, [], .single, [⟨0, 5, .rw, true, .val 4⟩]⟩,
  ⟨R.AQ_SCRUB_STATUS, [], .single, [⟨0, 16, .ro, false, .val 0⟩, ⟨16, 1, .w1c, false, .val 0⟩]⟩,
  ⟨R.AQ_UE_ADDR_LO, [], .lo, [⟨0, 32, .ro, false, .val 0⟩]⟩,
  ⟨R.AQ_UE_ADDR_HI, [], .hi, [⟨0, 32, .ro, false, .val 0⟩]⟩,
  ⟨R.AQ_CE_WORD, [], .single, [⟨0, 32, .ro, false, .val 0⟩]⟩,
  ⟨R.AQ_CE_PAGE, [], .single, [⟨0, 32, .ro, false, .val 0⟩]⟩,
  ⟨R.AQ_UE, [], .single, [⟨0, 32, .ro, false, .val 0⟩]⟩,
  ⟨R.AQ_POISON_READS, [], .single, [⟨0, 32, .ro, false, .val 0⟩]⟩,
  ⟨R.AQ_CODE_REBUILD, [], .single, [⟨0, 32, .ro, false, .val 0⟩]⟩,
  ⟨R.AQ_REMAPS, [], .single, [⟨0, 32, .ro, false, .val 0⟩]⟩,
  ⟨R.AQ_RETIRED_READS, [], .single, [⟨0, 32, .ro, false, .val 0⟩]⟩,
  ⟨R.AQ_CHAN 0, [(48, 0x4)], .single, [⟨0, 1, .ro, false, .val 0⟩, ⟨1, 1, .ro, false, .val 0⟩, ⟨2, 2, .ro, false, .val 0⟩, ⟨4, 5, .ro, false, .val 16⟩, ⟨16, 16, .ro, false, .val 0⟩]⟩,
  ⟨R.AQ_REMAP_CMD, [], .single, [⟨0, 28, .rw, true, .val 0⟩, ⟨31, 1, .w1s, true, .val 0⟩]⟩,
  ⟨R.AQ_REMAP 0 0, [(48, 0x40), (16, 0x4)], .single, [⟨0, 22, .ro, false, .val 0⟩, ⟨31, 1, .ro, false, .val 0⟩]⟩,
  ⟨R.AQ_INJECT_ADDR_LO, [], .lo, [⟨0, 32, .rw, true, .val 0⟩]⟩,
  ⟨R.AQ_INJECT_ADDR_HI, [], .hi, [⟨0, 7, .rw, true, .val 0⟩]⟩,
  ⟨R.AQ_INJECT_CTRL, [], .single, [⟨0, 2, .rw, true, .val 0⟩, ⟨2, 1, .rw, true, .val 0⟩]⟩,
  ⟨R.LK_CTRL 0, [(40, 0x10000)], .single, [⟨0, 1, .rw, true, .val 0⟩, ⟨1, 1, .rw, false, .pers⟩, ⟨2, 2, .rw, false, .val 0⟩, ⟨4, 1, .rw, false, .val 0⟩, ⟨5, 1, .rw, false, .val 0⟩, ⟨6, 1, .w1s, false, .val 0⟩, ⟨7, 1, .w1s, true, .val 0⟩, ⟨8, 1, .w1s, false, .val 0⟩]⟩,
  ⟨R.LK_STATUS 0, [(40, 0x10000)], .single, [⟨0, 3, .ro, false, .val 5⟩, ⟨3, 3, .ro, false, .val 7⟩, ⟨6, 1, .ro, false, .val 0⟩, ⟨7, 1, .ro, false, .val 0⟩, ⟨8, 1, .ro, false, .val 0⟩]⟩,
  ⟨R.LK_LANE 0, [(40, 0x10000)], .single, [⟨0, 8, .ro, false, .val 0⟩, ⟨8, 8, .ro, false, .val 0⟩, ⟨16, 8, .ro, false, .val 0⟩]⟩,
  ⟨R.LK_MAC_LO 0, [(40, 0x10000)], .lo, [⟨0, 32, .rw, false, .val 0⟩]⟩,
  ⟨R.LK_MAC_HI 0, [(40, 0x10000)], .hi, [⟨0, 16, .rw, false, .val 0⟩]⟩,
  ⟨R.LK_PTP_ASYM 0, [(40, 0x10000)], .single, [⟨0, 32, .rw, false, .val 0⟩]⟩,
  ⟨R.LK_PEER 0, [(40, 0x10000)], .single, [⟨0, 16, .ro, false, .val 0⟩, ⟨16, 1, .ro, false, .val 0⟩]⟩,
  ⟨R.LK_POW 0 0, [(40, 0x10000), (8, 0x4)], .single, [⟨0, 16, .ro, false, .val 0⟩, ⟨16, 16, .ro, false, .val 0⟩]⟩]

/-- Registers 240 to 279 of the map, in the order of spec/. -/
def regRows6 : List RegRow := [
  ⟨R.LK_TOTAL 0, [(40, 0x10000)], .single, [⟨0, 16, .ro, false, .val 0⟩, ⟨16, 16, .ro, false, .val 0⟩]⟩,
  ⟨R.LK_RING 0 0, [(40, 0x10000), (8, 0x4)], .single, [⟨0, 12, .ro, false, .val 0⟩, ⟨12, 4, .ro, false, .val 0⟩, ⟨16, 12, .ro, false, .val 0⟩, ⟨28, 4, .ro, false, .val 0⟩]⟩,
  ⟨R.LK_FEC_CORR 0, [(40, 0x10000)], .single, [⟨0, 32, .ro, false, .val 0⟩]⟩,
  ⟨R.LK_FEC_UNCORR 0, [(40, 0x10000)], .single, [⟨0, 32, .ro, false, .val 0⟩]⟩,
  ⟨R.LK_LUAPO_CRC 0, [(40, 0x10000)], .single, [⟨0, 32, .ro, false, .val 0⟩]⟩,
  ⟨R.LK_LUAPO_REPLAY 0, [(40, 0x10000)], .single, [⟨0, 32, .ro, false, .val 0⟩]⟩,
  ⟨R.LK_LUAPO_NOROUTE 0, [(40, 0x10000)], .single, [⟨0, 32, .ro, false, .val 0⟩]⟩,
  ⟨R.LK_LUAPO_BADADDR 0, [(40, 0x10000)], .single, [⟨0, 32, .ro, false, .val 0⟩]⟩,
  ⟨R.LK_DELAY 0, [(40, 0x10000)], .single, [⟨0, 32, .ro, false, .val 0⟩]⟩,
  ⟨R.LK_LUAPO_DEVID, [], .single, [⟨0, 16, .rw, true, .val 0⟩]⟩,
  ⟨R.LK_PAIR_CTRL 0, [(12, 0x4)], .single, [⟨0, 1, .w1s, true, .val 0⟩, ⟨1, 1, .w1s, true, .val 0⟩, ⟨2, 1, .rw, true, .val 0⟩, ⟨8, 8, .rw, true, .val 100⟩]⟩,
  ⟨R.LK_PAIR_STATUS 0, [(12, 0x4)], .single, [⟨0, 3, .ro, false, .val 0⟩, ⟨3, 1, .ro, false, .val 0⟩, ⟨4, 3, .ro, false, .val 4⟩, ⟨7, 1, .w1c, false, .val 0⟩, ⟨8, 1, .ro, false, .val 0⟩]⟩,
  ⟨R.LK_INLET 0, [(10, 0x4)], .single, [⟨0, 16, .ro, false, .val 0⟩, ⟨16, 1, .ro, false, .val 0⟩, ⟨17, 1, .ro, false, .val 0⟩]⟩,
  ⟨R.LK_MON_SEL 0, [(6, 0x4)], .single, [⟨0, 6, .rw, false, .val 0⟩, ⟨31, 1, .rw, false, .val 0⟩]⟩,
  ⟨R.SEC_BOOT_STATUS, [], .single, [⟨0, 3, .ro, false, .val 0⟩, ⟨3, 1, .ro, false, .val 0⟩, ⟨4, 4, .ro, false, .val 0⟩, ⟨8, 4, .ro, false, .val 0⟩, ⟨12, 8, .ro, false, .val 0⟩]⟩,
  ⟨R.SEC_REC_CTRL, [], .single, [⟨0, 1, .w1s, true, .val 0⟩]⟩,
  ⟨R.SEC_REC_DATA, [], .single, [⟨0, 32, .wo, true, .val 0⟩]⟩,
  ⟨R.SEC_FW_ADDR_LO, [], .lo, [⟨0, 32, .rw, true, .val 0⟩]⟩,
  ⟨R.SEC_FW_ADDR_HI, [], .hi, [⟨0, 32, .rw, true, .val 0⟩]⟩,
  ⟨R.SEC_FW_LEN, [], .single, [⟨0, 32, .rw, true, .val 0⟩]⟩,
  ⟨R.SEC_FW_AT_LO, [], .lo, [⟨0, 32, .rw, true, .val 0⟩]⟩,
  ⟨R.SEC_FW_AT_HI, [], .hi, [⟨0, 32, .rw, true, .val 0⟩]⟩,
  ⟨R.SEC_FW_CTRL, [], .single, [⟨0, 1, .w1s, true, .val 0⟩, ⟨1, 1, .rw, true, .val 0⟩, ⟨2, 1, .rw, true, .val 0⟩]⟩,
  ⟨R.SEC_FW_STATUS, [], .single, [⟨0, 1, .ro, false, .val 0⟩, ⟨1, 1, .ro, false, .val 0⟩, ⟨2, 3, .ro, false, .val 0⟩, ⟨8, 8, .ro, false, .val 0⟩, ⟨16, 4, .ro, false, .val 0⟩]⟩,
  ⟨R.SEC_CORE_STATUS 0, [(8, 0x4)], .single, [⟨0, 3, .ro, false, .val 0⟩, ⟨8, 8, .ro, false, .val 0⟩]⟩,
  ⟨R.SEC_MODVER 0, [(8, 0x4)], .single, [⟨0, 32, .ro, false, .val 0⟩]⟩,
  ⟨R.SEC_ID_PUB 0, [(8, 0x4)], .single, [⟨0, 32, .ro, false, .val 0⟩]⟩,
  ⟨R.SEC_OWNER_PUB 0, [(16, 0x4)], .single, [⟨0, 32, .rw, true, .val 0⟩]⟩,
  ⟨R.SEC_OWNER_CTRL, [], .single, [⟨0, 32, .wo, true, .val 0⟩]⟩,
  ⟨R.SEC_OWNER_STATUS, [], .single, [⟨0, 1, .ro, false, .val 0⟩, ⟨1, 1, .w1c, false, .val 0⟩]⟩,
  ⟨R.SEC_LC_NONCE 0, [(8, 0x4)], .single, [⟨0, 32, .ro, false, .val 0⟩]⟩,
  ⟨R.SEC_LC_ADDR_LO, [], .lo, [⟨0, 32, .rw, true, .val 0⟩]⟩,
  ⟨R.SEC_LC_ADDR_HI, [], .hi, [⟨0, 32, .rw, true, .val 0⟩]⟩,
  ⟨R.SEC_LC_LEN, [], .single, [⟨0, 32, .rw, true, .val 0⟩]⟩,
  ⟨R.SEC_LC_CTRL, [], .single, [⟨0, 3, .rw, true, .val 0⟩, ⟨31, 1, .w1s, true, .val 0⟩]⟩,
  ⟨R.SEC_LC_CONSENT, [], .single, [⟨0, 32, .wo, true, .val 0⟩]⟩,
  ⟨R.SEC_LC_STATUS, [], .single, [⟨0, 1, .ro, false, .val 0⟩, ⟨1, 2, .ro, false, .val 0⟩, ⟨4, 4, .ro, false, .val 0⟩]⟩,
  ⟨R.SEC_ATT_NONCE 0, [(8, 0x4)], .single, [⟨0, 32, .rw, true, .val 0⟩]⟩,
  ⟨R.SEC_ATT_ADDR_LO, [], .lo, [⟨0, 32, .rw, true, .val 0⟩]⟩,
  ⟨R.SEC_ATT_ADDR_HI, [], .hi, [⟨0, 32, .rw, true, .val 0⟩]⟩]

/-- Registers 280 to 319 of the map, in the order of spec/. -/
def regRows7 : List RegRow := [
  ⟨R.SEC_ATT_CTRL, [], .single, [⟨0, 1, .w1s, true, .val 0⟩]⟩,
  ⟨R.SEC_ATT_STATUS, [], .single, [⟨0, 1, .ro, false, .val 0⟩, ⟨1, 1, .w1c, false, .val 0⟩, ⟨2, 1, .w1c, false, .val 0⟩]⟩,
  ⟨R.RV_LOCK, [], .single, [⟨0, 1, .w1s, true, .val 0⟩]⟩,
  ⟨R.RV_TRIP_BYPASS, [], .single, [⟨0, 8, .rwl, true, .val 255⟩]⟩,
  ⟨R.RV_LINK_ALLOW_LO, [], .lo, [⟨0, 32, .rwl, true, .val 0xffffffff⟩]⟩,
  ⟨R.RV_LINK_ALLOW_HI, [], .hi, [⟨0, 8, .rwl, true, .val 255⟩]⟩,
  ⟨R.RV_STRAPS, [], .single, [⟨0, 5, .ro, false, .val 0⟩]⟩,
  ⟨R.RV_DROP 0, [(24, 0x4)], .single, [⟨0, 16, .rwl, true, .val 0xffff⟩, ⟨16, 16, .rwl, true, .val 0⟩]⟩,
  ⟨R.RV_ORIG 0, [(24, 0x4)], .single, [⟨0, 16, .rwl, true, .val 256⟩]⟩,
  ⟨R.RV_WDT 0, [(8, 0x4)], .single, [⟨0, 32, .rwl, true, .val 0x2710⟩]⟩,
  ⟨R.PWR_STATUS, [], .single, [⟨0, 1, .ro, false, .val 0⟩, ⟨1, 4, .ro, false, .val 8⟩, ⟨5, 1, .ro, false, .val 0⟩, ⟨6, 1, .ro, false, .val 0⟩, ⟨7, 1, .ro, false, .val 0⟩]⟩,
  ⟨R.PWR_LIMIT, [], .single, [⟨0, 10, .rwl, true, .val 850⟩]⟩,
  ⟨R.PWR_NOW, [], .single, [⟨0, 10, .ro, false, .val 0⟩, ⟨16, 10, .ro, false, .val 0⟩]⟩,
  ⟨R.PWR_TJ, [], .single, [⟨0, 16, .ro, false, .val 0⟩, ⟨16, 16, .ro, false, .val 0⟩]⟩,
  ⟨R.PWR_TWARN, [], .single, [⟨0, 16, .rw, false, .val 1050⟩]⟩,
  ⟨R.PWR_VDDC_SET, [], .single, [⟨0, 10, .ro, false, .val 0⟩, ⟨16, 10, .ro, false, .val 0⟩]⟩,
  ⟨R.PWR_RESET_CAUSE, [], .single, [⟨0, 4, .ro, false, .val 0⟩, ⟨4, 4, .ro, false, .val 0⟩, ⟨8, 8, .ro, false, .val 0⟩]⟩,
  ⟨R.PWR_RAIL 0, [(9, 0x4)], .single, [⟨0, 16, .ro, false, .val 0⟩, ⟨16, 8, .ro, false, .val 0⟩, ⟨24, 1, .ro, false, .val 0⟩]⟩,
  ⟨R.PWR_BIST_CTRL, [], .single, [⟨0, 32, .wo, true, .val 0⟩]⟩,
  ⟨R.PWR_BIST_STATUS, [], .single, [⟨0, 2, .ro, false, .val 0⟩, ⟨2, 1, .ro, false, .val 0⟩, ⟨3, 1, .w1c, false, .val 0⟩, ⟨4, 1, .w1c, false, .val 0⟩, ⟨5, 1, .ro, false, .val 0⟩, ⟨6, 1, .ro, false, .val 0⟩, ⟨7, 5, .ro, false, .val 0⟩, ⟨12, 1, .ro, false, .val 0⟩]⟩,
  ⟨R.PWR_BIST_LOG 0, [(16, 0x4)], .single, [⟨0, 4, .ro, false, .val 0⟩, ⟨4, 16, .ro, false, .val 0⟩, ⟨20, 1, .ro, false, .val 0⟩, ⟨31, 1, .ro, false, .val 0⟩]⟩,
  ⟨R.PWR_IST_CTRL, [], .single, [⟨0, 1, .rw, false, .val 1⟩, ⟨8, 8, .rw, false, .val 24⟩]⟩,
  ⟨R.PWR_IST_STATUS, [], .single, [⟨0, 16, .ro, false, .val 0⟩, ⟨16, 1, .w1c, false, .val 0⟩, ⟨17, 1, .ro, false, .val 0⟩, ⟨18, 1, .ro, false, .val 0⟩, ⟨19, 1, .ro, false, .val 0⟩, ⟨20, 1, .ro, false, .val 0⟩, ⟨21, 1, .ro, false, .val 0⟩, ⟨22, 1, .ro, false, .val 0⟩]⟩,
  ⟨R.DBG_CTRL, [], .single, [⟨0, 1, .w1s, true, .val 0⟩, ⟨1, 1, .rw, true, .val 0⟩, ⟨2, 1, .rw, true, .val 1⟩, ⟨3, 1, .rwl, true, .val 0⟩, ⟨4, 1, .w1s, true, .val 0⟩]⟩,
  ⟨R.DBG_TRIG, [], .single, [⟨0, 16, .rw, true, .val 0⟩, ⟨16, 1, .rw, true, .val 0⟩, ⟨17, 1, .rw, true, .val 0⟩]⟩,
  ⟨R.DBG_TRIG_STROKE_LO, [], .lo, [⟨0, 32, .rw, true, .val 0⟩]⟩,
  ⟨R.DBG_TRIG_STROKE_HI, [], .hi, [⟨0, 32, .rw, true, .val 0⟩]⟩,
  ⟨R.DBG_STATUS, [], .single, [⟨0, 1, .ro, false, .val 0⟩, ⟨1, 1, .ro, false, .val 0⟩, ⟨2, 3, .ro, false, .val 0⟩]⟩,
  ⟨R.DBG_FREEZE_TIME_LO, [], .lo, [⟨0, 32, .ro, false, .val 0⟩]⟩,
  ⟨R.DBG_FREEZE_TIME_HI, [], .hi, [⟨0, 32, .ro, false, .val 0⟩]⟩,
  ⟨R.DBG_FREEZE_STROKE_LO, [], .lo, [⟨0, 32, .ro, false, .val 0⟩]⟩,
  ⟨R.DBG_FREEZE_STROKE_HI, [], .hi, [⟨0, 32, .ro, false, .val 0⟩]⟩,
  ⟨R.DBG_RELEASE, [], .single, [⟨0, 32, .wo, true, .val 0⟩]⟩,
  ⟨R.DBG_CAP_SPACE, [], .single, [⟨0, 3, .rw, true, .val 0⟩, ⟨8, 8, .rw, true, .val 0⟩]⟩,
  ⟨R.DBG_CAP_ADDR_LO, [], .lo, [⟨0, 32, .rw, true, .val 0⟩]⟩,
  ⟨R.DBG_CAP_ADDR_HI, [], .hi, [⟨0, 32, .rw, true, .val 0⟩]⟩,
  ⟨R.DBG_CAP_LEN, [], .single, [⟨0, 32, .rw, true, .val 0⟩]⟩,
  ⟨R.DBG_CAP_GO, [], .single, [⟨0, 1, .w1s, true, .val 0⟩]⟩,
  ⟨R.DBG_CAP_STATUS, [], .single, [⟨0, 1, .ro, false, .val 0⟩, ⟨1, 1, .w1c, false, .val 0⟩, ⟨2, 1, .w1c, false, .val 0⟩, ⟨4, 3, .ro, false, .val 0⟩, ⟨8, 24, .ro, false, .val 0⟩]⟩,
  ⟨R.MSIX_ADDR_LO 0, [(256, 0x10)], .single, [⟨0, 32, .rw, false, .val 0⟩]⟩]

/-- Registers 320 to 323 of the map, in the order of spec/. -/
def regRows8 : List RegRow := [
  ⟨R.MSIX_ADDR_UP 0, [(256, 0x10)], .single, [⟨0, 32, .rw, false, .val 0⟩]⟩,
  ⟨R.MSIX_DATA 0, [(256, 0x10)], .single, [⟨0, 32, .rw, false, .val 0⟩]⟩,
  ⟨R.MSIX_CTRL 0, [(256, 0x10)], .single, [⟨0, 1, .rw, false, .val 1⟩]⟩,
  ⟨R.MSIX_PBA 0, [(8, 0x4)], .single, [⟨0, 32, .ro, false, .val 0⟩]⟩]

/-- The whole register map of BAR0. -/
def regRows : List RegRow :=
  regRows0 ++ regRows1 ++ regRows2 ++ regRows3 ++ regRows4 ++ regRows5 ++ regRows6 ++ regRows7 ++ regRows8

end Sys2Proof.Machine
end

