-- ==== Sys2Proof/Machine/State.lean ====
section
/-! DEFINITION. The state of the 880: everything the spec gives the part, as plain data (INVENTORY.md, ## State). Registers
live in `State.regs`; what no register shows has a field of its own here. Sparse tables list only what differs from its default. -/

namespace Sys2Proof.Machine

/-- No command of the 880 stops the model with a fault: completion statuses (R89), events (R90), refused writes and aborted
reads are effects on the state. So there is no constructor. -/
inductive Fault where
  deriving DecidableEq, Repr

/-- Why a command has no meaning here. -/
inductive Refusal where
  /-- An arm of the dispatcher not written yet raises it; safe. -/
  | notModelled (mnemonic : String)
  deriving DecidableEq, Repr

/-- Where the 880 stands between power-on and service (R414-R417, R386, R432). -/
inductive Phase where
  | reset      -- internal reset is held
  | startup    -- internal reset is released; the start-up steps run (the STARTUP command)
  | hold       -- fault hold (R417): start-up stopped at GLB_STATUS.STAGE
  | recovery   -- firmware recovery (R386)
  | ready      -- READY asserted
  | bist       -- a full BIST runs (R427)
  | safe       -- the safe state (R432)
  deriving DecidableEq, Repr

/-- What the block has sent outside: the model's own record of it, newest first. -/
inductive Out where
  /-- An MSI-X message for a vector (R84). -/
  | irq (vector : Nat)
  /-- A read completed with data (R62). -/
  | data (value : Nat)
  /-- A read completed with Completer Abort (R62). -/
  | completerAbort
  /-- A read completed with Unsupported Request (R61, R62). -/
  | unsupported
  /-- A host-memory write request sent with the poisoned (EP) bit (R77). -/
  | epWrite (addr len : Nat)
  /-- A frame left a link's transmitter; `errored` is an errored end of frame. -/
  | frame (link : Nat) (bytes : List Byte) (errored : Bool)
  /-- A host-memory write request of command data sent with the Relaxed Ordering attribute (R56). -/
  | roWrite (addr len : Nat)
  /-- A frame copied to link-management firmware (R95), with the timebase count at its timestamp point if it is an event message
  (R19, R359). -/
  | ptpCopy (link : Nat) (bytes : List Byte) (stamp : Option Nat)
  /-- The timebase count at the timestamp point of an event message that link-management firmware has sent (R19, R359). -/
  | ptpSent (link : Nat) (stamp : Nat)
  /-- A Luapo flit other than IDLE was given to a link's transmitter; it leaves in the lanes' codewords, as IDLE flits do. -/
  | flit (link : Nat) (bytes : List Byte)
  /-- A codeword left on a wavelength of a Luapo link, as its 2,720 PAM4 levels, two bits each (R365). -/
  | codeword (link wavelength : Nat) (levels : Nat)
  /-- A record of the freeze capture port (R444-R446). -/
  | capture (bytes : List Byte)
  /-- The same record as it leaves on CAP0-CAP3: each lane's line bits from K27.7 to the comma after K29.7, the first sent lowest
  (R447). -/
  | capturePort (lanes : List Nat)
  /-- A reply on the management bus (R466, R467). -/
  | mgmt (bytes : List Byte)
  /-- Bits shifted out of TDO (R448). -/
  | tdo (bits : List Bool)
  deriving DecidableEq, Repr

/-- The timebase and its servo (R17-R26), and the free-running core-cycle count (R45, R195). -/
structure Clock where
  /-- Core cycles since the release of internal reset (R195). -/
  cycle : Nat := 0
  /-- The timebase count in 0.4 ns ticks (R18). -/
  time : Nat := 0
  /-- Whether a stroke is current; STK_NOW reads all ones while not (R26, R469). -/
  strokes : Bool := false
  /-- The current stroke number (R23), meaningful while `strokes`. -/
  now : Nat := 0
  /-- The timebase count of the boundary that opened the current stroke. -/
  openTime : Nat := 0
  /-- Core cycle of the last boundary (R120). -/
  openCycle : Nat := 0
  /-- Strokes start when the count reaches count(STK_BASE) (R469). -/
  armed : Bool := false
  /-- The part's own running time at the servo's last valid measurement, in ticks (R21). -/
  lastValid : Option Nat := none
  /-- The expected interval that the last PTP or PPS measurement gave, in ticks (R21). -/
  interval : Nat := 0
  /-- ENABLE was cleared while strokes ran and has not been set since (R21, R26). -/
  cleared : Bool := false
  /-- The last measured offset in ns (R90). -/
  lastOffset : Int := 0
  /-- Timebase ticks the servo has still to slew in (R20). -/
  slew : Int := 0
  /-- Ticks passed since the servo last corrected one (R20). -/
  slewAcc : Nat := 0
  /-- The stroke's lowest clock fraction in eighths and its cycles below full rate (R47). -/
  lowest : Nat := 8
  below : Nat := 0
  /-- The part's own running time in ticks of 0.4 ns, that nothing steps or slews. -/
  real : Nat := 0
  /-- The core clock runs at `num`/`den` of its rate (R419); parts of a tick carried, in 1/`num`. -/
  num : Nat := 1
  den : Nat := 1
  frac : Nat := 0
  /-- A measurement beyond the step limit has come while LOST: only a restart ends it (R22). -/
  stepLost : Bool := false
  /-- The marker taken last: its stroke number, HOPS and link (R377). -/
  marker : Option (Nat × Nat × Nat) := none
  deriving DecidableEq, Repr

/-- One command of a fetched list (R70), or a stretch of the list whose fetch was refused (R86). -/
inductive Fetched where
  /-- A command's 32 bytes and its extension words. -/
  | cmd (bytes : List Byte)
  /-- A command whose extension words run past LIST_LEN (R71). -/
  | cut (bytes : List Byte)
  /-- A command whose words lie outside every DMA window, at this address: its first 32 bytes where these were fetched, and the
  bytes of the list from it on (R86). -/
  | refused (addr : Nat) (head : List Byte) (left : Nat)
  deriving DecidableEq, Repr

/-- The command a queue executes, or whose float it waits for. -/
structure Run where
  /-- Core cycle, timebase count and stroke number in its start cycle (R74). -/
  start : Nat
  startTime : Nat
  startStroke : Nat
  /-- Core cycles charged so far (R32). -/
  charged : Nat := 0
  /-- Work done, in eighths of a core cycle at full clock (R42, R45, R420). -/
  work8 : Nat := 0
  /-- A WAIT not satisfied when it started: its waiting is not charged (R32). -/
  waiting : Bool := false
  /-- An update of its float has satisfied it since (R83). -/
  met : Bool := false
  /-- Core cycles in which its units served the packet path, and the first core cycle not counted yet (R41-R44). -/
  yielded : Nat := 0
  yieldTo : Nat := 0
  /-- Its host ranges have passed the check against the windows, and the bytes of them whose requests were issued before the
  last rewriting of a window (R86, R91). -/
  checked : Bool := false
  issued : Nat := 0
  deriving DecidableEq, Repr

/-- A completion record not yet written (R78). -/
structure Rec where
  slot : Nat
  status : Nat
  first : Nat
  count : Nat
  cycles : Nat
  stroke : Nat
  last : Bool
  irq : Bool
  /-- Core cycle in which it was put to the waiting records (R110). -/
  at_ : Nat := 0
  deriving DecidableEq, Repr

/-- A command queue beyond its registers (R64-R80, R32-R43). -/
structure Queue where
  sqTail : Nat := 0
  cqHead : Nat := 0
  /-- The PHASE of the next record (R78). -/
  phase : Bool := true
  /-- Whether a list is held, its submission slot, its descriptor's NOTIFY. -/
  active : Bool := false
  slot : Nat := 0
  notify : Bool := false
  /-- The commands of the list not yet completed, and the index of the first of them. -/
  cmds : List Fetched := []
  idx : Nat := 0
  cur : Option Run := none
  /-- Records waiting for a slot, oldest first. -/
  recs : List Rec := []
  /-- A stop is in progress (R80): HALTED follows its last record, unless ENABLE was set again. -/
  stopping : Bool := false
  rearmed : Bool := false
  /-- Records with IRQ since the vector last fired, and the core cycle of the oldest (R84). -/
  irqCount : Nat := 0
  irqSince : Nat := 0
  /-- Cycles charged in the current stroke (R33). -/
  spent : Nat := 0
  /-- Cycles lost in the stroke, in eighths: to the power clamp and to the halving of a brownout window (R42, R43). -/
  lostClamp : Nat := 0
  lostHalf : Nat := 0
  /-- Cycles spent waiting for a unit, by the queue of higher order that held it on rung 4 (R43). -/
  lostTo : SMap Nat := []
  /-- Cycles its units served the packet path, by 64 × rung + link (R41, R43). -/
  lostLinks : SMap Nat := []
  deriving DecidableEq, Repr

/-- The event ring beyond its registers (R87, R88). -/
structure EventRing where
  seq : Nat := 0
  phase : Bool := true
  irqCount : Nat := 0
  irqSince : Nat := 0
  deriving DecidableEq, Repr

/-- The configuration space of the 880's one function: its controls, its base address registers, its error status (R54-R57, R62,
R77, R84, R86). Identity and capabilities that never change are constants (pciIdentity). -/
structure PciConfig where
  maxPayload : Nat := 128
  /-- Max_Read_Request_Size in bytes, and whether 14-bit tags are enabled (R55). -/
  maxRead : Nat := 512
  tag14 : Bool := false
  relaxed : Bool := true
  timeout : Nat := 0
  /-- The addresses programmed into BAR0, BAR2 and BAR4 (R57). -/
  bar0 : Nat := 0
  bar2 : Nat := 0
  bar4 : Nat := 0
  /-- AER's uncorrectable error status: bit 15 Completer Abort (R55, R62). -/
  aer : Nat := 0
  /-- MSI-X Enable and Function Mask. -/
  msixEnable : Bool := false
  msixMask : Bool := false
  /-- The reference clock of the attachment is present (R463, R468). -/
  refClock : Bool := true
  deriving DecidableEq, Repr

/-- What the floats have taken in one core cycle (R81): its time, the sum added to each float, the floats host software has set. -/
structure FloatNow where
  real : Nat := 0
  adds : SMap (BitVec 64) := []
  hostSet : List Nat := []
  deriving DecidableEq, Repr

/-- Host attachment: latched register halves, queues, floats, the event ring, host memory as the block has seen it. -/
structure HostIf where
  readLatch : SMap Nat := []
  writeHold : SMap Nat := []
  queues : SMap Queue := []
  floats : SMap (BitVec 64) := []
  floatNow : FloatNow := {}
  evt : EventRing := {}
  config : PciConfig := {}
  /-- The command that completes in this step has its host ranges granted already (R86); false between steps. -/
  granted : Bool := false
  mem : Mem := []
  deriving DecidableEq, Repr

/-- The end status of a frame in a standpipe (R100, R105). -/
inductive EndStatus where
  | opening | good | aborted
  deriving DecidableEq, Repr

/-- A frame in a standpipe (R99-R107). -/
structure SpFrame where
  id : Nat
  /-- The bytes written so far, FCS included. -/
  bytes : List Byte
  stat : EndStatus := .opening
  /-- Running time of the last write of it, and the bytes of it that the read side saw before that write (R109). -/
  wrote : Nat := 0
  before : Nat := 0
  /-- Its first pass has been dealt. -/
  dealt : Bool := false
  marked : Bool := false
  released : Bool := false
  /-- Egress has begun to read it (R104). -/
  started : Bool := false
  deriving DecidableEq, Repr

/-- A frame's verdict (R178, R186). -/
structure Verdict where
  action : Nat := 0
  tc : Nat := 0
  police : Bool := false
  policer : Nat := 0
  mark : Nat := 0
  dflt : Bool := false
  valve : Bool := false
  late : Bool := false
  inspected : Bool := false
  twoPass : Bool := false
  /-- CONFLICT of the final pass's flow context; none until that pass's flow stage has ended (R186). -/
  conflict : Option Bool := some false
  cls : Nat := 0
  margin : Nat := 0
  score : Nat := 0
  ruleId : Nat := 0
  deriving DecidableEq, Repr

/-- A reorder entry: one frame from its dealing to the release of its verdict (R120, R121, R158). -/
structure RoEntry where
  seq : Nat
  frame : Nat
  /-- Core cycle, timebase count and stroke number of the first dealing. -/
  dealt : Nat
  time : Nat
  stroke : Nat
  /-- Ticks since the boundary that opened that stroke; none while strokes are not running (R149). -/
  since : Option Nat := none
  /-- The epochs and banks the frame is pinned to (R30, R167). -/
  rEpoch : Nat
  eEpoch : Nat
  fEpoch : Nat
  rBank : Nat
  eBank : Nat
  /-- The number of the capture map in force at its dealing (R273). -/
  capMap : Nat := 0
  /-- Length once it is known, and in look-aside mode the head frame's PORT, SEQ and TIMESTAMP (R96, R129). -/
  len : Option Nat := none
  port : Nat := 0
  lseq : Nat := 0
  stamp : Nat := 0
  head : List Byte
  /-- The second pass asked for and not yet dealt: its profile, and the core cycle of the result that asks for it (R156, R166). -/
  second : Option Nat := none
  secondAt : Nat := 0
  /-- A second pass whose rewind mark has been given up: the core cycle, its profile (R107, R122). -/
  lost : Option (Nat × Nat) := none
  /-- The second pass was dealt. -/
  two : Bool := false
  markLost : Bool := false
  /-- The verdict stage has taken a result; when it does its reorder stage sees the verdict. -/
  issued : Bool := false
  verdict : Option Verdict := none
  /-- The core cycle in which the verdict reached the reorder stage. -/
  arrived : Nat := 0
  flushed : Bool := false
  aborted : Bool := false
  lane : Nat := 0
  deriving DecidableEq, Repr

/-- What a pass has come to at its rule stage or tree stage. -/
inductive Result where
  | none                       -- not yet
  | rule (word : Nat)          -- the 64-bit rule result (R165)
  | vote (word cls margin score : Nat)   -- INSPECT result with its ensemble's vote (R174)
  | dflt                       -- the link's default action (R118)
  deriving DecidableEq, Repr

/-- How far a pass's flow stage is (R130-R133). -/
inductive FlowStage where
  | pending | waitPort | waitReloc | done
  deriving DecidableEq, Repr

/-- A pass in a header lane (R111-R120, R125-R150, R156-R167). -/
structure Pass where
  link : Nat
  seq : Nat
  second : Bool
  lane : Nat
  /-- Its frame, and the core cycle of this pass's dealing. -/
  frame : Nat
  dealt : Nat
  /-- The frame's time, stroke and length once it is known (R129), and its feature epoch. -/
  time : Nat
  stroke : Nat
  since : Option Nat := Option.none
  len : Option Nat
  epoch : Nat
  profile : Nat
  frag : Bool
  /-- Field values with their missing bits (R114-R117). -/
  fields : List (Nat × Bool)
  /-- The flow key, if the profile has one, its keyspace and definitions latched at dealing (R125, R159). -/
  key : Option (List Byte) := Option.none
  keyspace : Nat := 0
  tallies : List (Nat × Nat) := []
  /-- The sender key: kind and address (R142). -/
  skey : Option (Nat × List Byte) := Option.none
  flow : FlowStage := .pending
  /-- Core cycle from which it waits for the insert port or the relocator (R133). -/
  waitFrom : Nat := 0
  /-- Core cycle in which its flow stage gave it its context or let it go on without one (R130, R131). -/
  flowAt : Nat := 0
  ctx : Option Nat := Option.none
  /-- The context and the sender entry as this pass has updated them (R149). -/
  ctxSnap : Option (List Byte) := Option.none
  sndSnap : Option (List Byte) := Option.none
  /-- Its sender entry asks for CONFLICT in its flow context (R145). -/
  conflict : Bool := false
  /-- The pass saw the first frame of its context, and LAST_TIME before its own update (R149). -/
  newFlow : Bool := false
  prevTime : Nat := 0
  feats : Option (List Nat) := Option.none
  result : Result := .none
  /-- Core cycle from which its result stands. -/
  resultAt : Nat := 0
  /-- Core cycle from which it is ready for the tree stage, with its INSPECT result and its features (R177). -/
  ready : Option Nat := Option.none
  /-- Core cycles it has waited for words of its bank's image (R161). -/
  waited : Nat := 0
  /-- The opening cycle of the stroke in which its tree group last issued a privileged link's pass ahead of it (R158, R177). -/
  behind : Option Nat := Option.none
  deriving DecidableEq, Repr

/-- A record of a verdict queue: its bits, its head frame's timestamp, the core cycle of its arrival, and the pass whose CONFLICT it
still waits for: sequence number, second (R184-R186). -/
structure VRec where
  bits : Nat
  stamp : Nat
  at_ : Nat
  pass : Option (Nat × Bool) := none
  deriving DecidableEq, Repr

/-- The intake side of the Wellhead. -/
structure Intake where
  /-- Standpipes by link, frames in arrival order (R99). -/
  pipes : SMap (List SpFrame) := []
  /-- The frame that arrives on a link: its bytes so far; whether the writer discards its remainder (R105). -/
  rx : SMap (List Byte) := []
  discarding : SMap Bool := []
  /-- Timebase count at which the frame began to arrive (R19, R359). -/
  rxAt : SMap Nat := []
  /-- Granules of a standpipe freed of late: running time, granules (R109). -/
  freed : SMap (List (Nat × Nat)) := []
  /-- The next frame identifier. -/
  nextId : Nat := 0
  /-- Reorder buffers by link, in sequence order, and the next sequence number (R121). -/
  reorder : SMap (List RoEntry) := []
  /-- First core cycle in which a link's reorder stage releases again (R121). -/
  relNext : SMap Nat := []
  nextSeq : SMap Nat := []
  passes : List Pass := []
  /-- The lane after which the rotating pointer goes on (R119). -/
  lanePtr : Nat := 0
  /-- Heads dealt in the core cycle `dealCycle`: in all, and by link (R119). -/
  dealCycle : Nat := 0
  dealLanes : List Nat := []
  dealt : SMap Nat := []
  /-- First core cycle in which a rate-reduced link's next first pass may be dealt (R176). -/
  nextRed : SMap Nat := []
  /-- First core cycle in which a lane's tree group may issue again (R176, R177). -/
  treeFree : SMap Nat := []
  /-- The second plane that a lane's group has to issue: its core cycle, and its pass as link, number, second (R177). -/
  treePlane : SMap (Nat × Nat × Nat × Bool) := []
  /-- Counts of the stroke, by link: marks lost, full drops, lane slots taken by privileged links, tree-group cycles taken
  by privileged links, frames late behind them (R107, R119, R158). -/
  marksLost : SMap Nat := []
  fullDrops : SMap Nat := []
  laneSlots : SMap Nat := []
  treeSlots : SMap Nat := []
  lateBehind : SMap Nat := []
  /-- The drop budget of the stroke, by link: verdicts V, drops allowed D, verdicts converted (R403). -/
  budgetV : SMap Nat := []
  budgetD : SMap Nat := []
  converted : SMap Nat := []
  /-- Start of the drop-budget window while strokes do not run (R403). -/
  windowFrom : Nat := 0
  /-- Verdict queues of MODE 2 links, oldest first, and VF_SEQ (R184, R185). -/
  verdictQ : SMap (List VRec) := []
  vfSeq : SMap Nat := []
  deriving DecidableEq, Repr

/-- A flow context in the second step of its end (R139). -/
structure FlowEnding where
  ctx : Nat
  reason : Nat
  /-- Core cycle from which step 2 is due. -/
  due : Nat
  raise : Bool
  /-- Its contents are lost: the words are rewritten as zeros (R139). -/
  lost : Bool := false
  /-- The queue whose FLOW_DELETE waits for it. -/
  queue : Option Nat := none
  deriving DecidableEq, Repr

/-- A chain that the relocator holds (R134, R135). -/
structure Chain where
  /-- The pass it serves, with its key. -/
  pass : Pass
  /-- Its victims in order, as way, bucket and slot of a set, and the free slot it found; a plan that fails has none. -/
  set : Nat
  victims : List (Nat × Nat × Nat)
  dst : Option (Nat × Nat × Nat)
  /-- Core cycle of the relocator's next copy, of the new entry's write, or of the plan's failure. -/
  due : Nat
  /-- The moves still to make, each from its slot to its slot, the plan's last one first. -/
  moves : List ((Nat × Nat × Nat) × (Nat × Nat × Nat)) := []
  /-- The move lock: the context, the first core cycle after the lock, the SLOTREF that its last cycle writes. -/
  lock : Option (Nat × Nat × Nat) := none
  /-- The slot that the last move was copied from, which what follows overwrites. -/
  last : Option (Nat × Nat × Nat) := none
  deriving DecidableEq, Repr

/-- A sender entry's insert: core cycle of the pass's dealing, entry number, the inserting pass and, once it has one, its context
(R144, R145). -/
structure SndInsert where
  cycle : Nat
  entry : Nat
  link : Nat
  seq : Nat
  second : Bool
  ctx : Option Nat := none
  deriving DecidableEq, Repr

/-- The flow and sender machinery beyond its tables and registers. -/
structure Flow where
  /-- Indices from `fresh` on have never been used; `freed` holds freed ones, oldest first, with the cycle of freeing (R132). -/
  fresh : Nat := 0
  freed : List (Nat × Nat) := []
  /-- Inserts of the last 1,024 core cycles: cycle, keyspace, key, context (R131). -/
  recent : List (Nat × Nat × List Byte × Nat) := []
  /-- The sender inserts of the last 1,024 core cycles (R144, R145). -/
  recentSnd : List SndInsert := []
  /-- Contexts that a frame has updated before its length was known: link, frame, context (R129). -/
  lenDue : List (Nat × Nat × Nat) := []
  /-- Inserts the port has made in the core cycle `portCycle` (R131). -/
  portCycle : Nat := 0
  portCount : Nat := 0
  chain : Option Chain := none
  endings : List FlowEnding := []
  /-- The aging scanner's next context (R139). -/
  scan : Nat := 0
  /-- Core cycle of the last REHASH_REQUEST, plus 1 (R133). -/
  lastRehashReq : Nat := 0
  deriving DecidableEq, Repr

/-- The banks of the packet path that no register shows: the active feature bank and the on-chip rule and tree memories. -/
structure Banks where
  /-- The active bank's words, by the BAR0 offset at which the staging bank shows them (R112, R151). -/
  fActive : SMap Word := []
  /-- Core cycle of the last swap of each bank (R153): feature, rule, ensemble. -/
  fSwap : Nat := 0
  rSwap : Nat := 0
  eSwap : Nat := 0
  /-- On-chip rule, associative and tree memories: image bytes of banks A and B (R161, R175). -/
  ruleA : Mem := []
  ruleB : Mem := []
  treeA : Mem := []
  treeB : Mem := []
  /-- Header lane to tree group, lanes that differ from HLn by TGn (R171); 25 marks none. -/
  laneGroup : SMap Nat := []
  /-- The lane for which the spare group is being loaded (R171). -/
  spareFor : Option Nat := none
  deriving DecidableEq, Repr

/-- A frame in a class queue (R191). -/
structure QEntry where
  src : Nat
  frame : Nat
  mark : Nat
  /-- Its finish tag while it is the head of an active class, and the timebase count at which the class was last found active
  with it (R202). -/
  tag : Option Nat := none
  tagAt : Nat := 0
  /-- A frame the 880 originates carries its own bytes; it lies in no standpipe. -/
  own : Option (List Byte) := none
  deriving DecidableEq, Repr

/-- A frame its verdict sends on, until it is metered and enqueued (R192, R199). -/
structure Ready where
  src : Nat
  frame : Nat
  dst : Nat
  tc : Nat
  police : Bool
  policer : Nat
  mark : Nat
  /-- Core cycle in which it became ready to enqueue; none while it waits for its end (R192). -/
  at_ : Option Nat
  deriving DecidableEq, Repr

/-- The frame a link's transmitter sends (R203). -/
structure Tx where
  entry : QEntry
  tc : Nat
  /-- Timebase count at which it started. -/
  start : Nat
  /-- Its head as rewritten by the mark table in force at its start (R180). -/
  rewrite : Option (List Byte) := none
  deriving DecidableEq, Repr

/-- A policer entry's buckets (R195-R200): tokens in 1/65,536 byte, remainders of the accrual, last update, colour counts. -/
structure Bucket where
  tc : Int := 0
  te : Nat := 0
  remC : Nat := 0
  remP : Nat := 0
  last : Nat := 0
  green : Nat := 0
  yellow : Nat := 0
  red : Nat := 0
  deriving DecidableEq, Repr

/-- A gate list (R206): gate bits and intervals in ns, base and cycle in ns. -/
structure GateList where
  entries : List (Nat × Nat) := []
  base : Nat := 0
  cycle : Nat := 0
  deriving DecidableEq, Repr

/-- A link's gate lists: staged snapshot being validated, pending with its takeover in ns, in force with its start in ns. -/
structure Gates where
  validating : Bool := false
  pending : Option (GateList × Nat) := none
  oper : Option (GateList × Nat) := none
  deriving DecidableEq, Repr

/-- Egress (chapter 06). -/
structure Egress where
  /-- Class queues, keyed 8 × link + class, in order of enqueue. -/
  queues : SMap (List QEntry) := []
  /-- WFQ virtual time by link (R202). -/
  vtime : SMap Nat := []
  tx : SMap (Option Tx) := []
  /-- Frames released by their verdicts and waiting to be metered and enqueued, in order of release. -/
  ready : List Ready := []
  /-- Frames a MODE 2 link has ready to transmit, in order (R190). -/
  aside : SMap (List (List Byte)) := []
  /-- The policer table: entry i at byte 32 × i (R194), and its buckets. -/
  policers : Mem := []
  buckets : SMap Bucket := []
  gates : SMap Gates := []
  /-- Classes, keyed 8 × link + class, whose head did not fit what was left of its window: the timebase count of that, plus 1
  (R203). -/
  barred : SMap Nat := []
  /-- Shapers charged with a length taken from WH_STP_MAXLENn: source link, frame, entry, that length (R200). -/
  refunds : List (Nat × Nat × Nat × Nat) := []
  /-- Frames originated and refused in the window, by link, and the window's start (R404). -/
  origSent : SMap Nat := []
  origRefused : SMap Nat := []
  origFrom : Nat := 0
  deriving DecidableEq, Repr

/-- An in-line pair beyond its registers (R360-R364). -/
structure Pair where
  /-- Core cycle in which the last drive pulse started, and whether it is the repeat. -/
  moveFrom : Nat := 0
  repeated : Bool := false
  /-- A move to bypass that waits for the end of the in-line pulse: its cause, and the reason of its links' LINK_DOWN (R361,
  R378). -/
  reverse : Option (Nat × Nat) := none
  trainFrom : Nat := 0
  deriving DecidableEq, Repr

/-- The transmit side of a Luapo link's lane coding (R365): the lanes it is coded for, the core cycle of its first flit slot and the
slots used since, the count of the next codeword, the flits of the period under way, and per lane the last 58 scrambled bits and
the last level sent. -/
structure Coder where
  lanes : Nat := 0
  since : Nat := 0
  slots : Nat := 0
  count : Nat := 0
  flits : List (List Byte) := []
  scramble : SMap Nat := []
  level : SMap Nat := []
  deriving DecidableEq, Repr

/-- The receive side of one lane (R366): the last 58 scrambled bits and the last level received, the count of the codeword it locked
on, and the core cycle of that. -/
structure LaneIn where
  scramble : Nat := 0
  level : Nat := 0
  count : Nat := 0
  locked : Nat := 0
  deriving DecidableEq, Repr

/-- A link beyond its registers (R341-R356). -/
structure Link where
  /-- Wavelengths in use: those it trains or runs on. -/
  use : Nat := 0
  /-- UP since ENABLE was last set or RECAL last written. -/
  been : Bool := false
  /-- Too few wavelengths are left: no retraining until RECAL. -/
  dead : Bool := false
  /-- The last wavelength added to DARK, and the start of the 2 ms settle. -/
  last : Nat := 0
  settleFrom : Option Nat := none
  /-- Start of a recalibration. -/
  recalFrom : Option Nat := none
  /-- The next feed ring to re-enable after CLAMP_CLR, and the core cycle of the last one. -/
  relight : Option (Nat × Nat) := none
  /-- The link is to leave UP for this reason: its LINK_DOWN step follows. -/
  going : Option Nat := none
  /-- Core cycle in which it last left UP. -/
  downAt : Nat := 0
  /-- Lanes locked (R366). -/
  locked : Nat := 0
  /-- The lane coding, out and in (R365, R366). -/
  coder : Coder := {}
  lanesIn : SMap LaneIn := []
  deriving DecidableEq, Repr

/-- A DATA flit that waits or is kept for replay: what its header says of it, and its payload. -/
structure Flit where
  vc : Nat
  poison : Nat
  first : Bool
  last : Bool
  payload : List Byte
  deriving DecidableEq, Repr

/-- Flits of one message, or of one copy's messages, that go out on a VC; `src` names the receive side they come from:
4 × link + VC + 1, or 0 for a copy of this 880. -/
structure Stream where
  src : Nat
  flits : List Flit
  ended : Bool
  deriving DecidableEq, Repr

/-- What becomes of the message whose flits arrive on a VC. -/
inductive Route where
  | idle | keep | drop
  | forward (link vc : Nat)
  deriving DecidableEq, Repr

/-- One receive VC: the route of the message under way, and the flits kept for this 880. -/
structure RxVc where
  route : Route := .idle
  parts : List Flit := []
  deriving DecidableEq, Repr

/-- A Luapo link (R367-R376). -/
structure Luapo where
  /-- Next SEQ to send; flits sent and not acknowledged, oldest first, with their SEQ; core cycle of the last ACK advance. -/
  txSeq : Nat := 0
  replay : List (Nat × Flit) := []
  ackAt : Nat := 0
  /-- Next SEQ expected; core cycle of the last NAK while one is outstanding. -/
  rxSeq : Nat := 0
  nakAt : Option Nat := none
  /-- Credit left per VC, and the last CREDITS value seen per VC. -/
  credit : SMap Nat := []
  seen : SMap Nat := []
  /-- Receive buffers freed per VC, cumulatively; the VC whose count goes next. -/
  freed : SMap Nat := []
  crvc : Nat := 0
  /-- Messages that wait to go out, per VC, and the VC served last. -/
  out : SMap (List Stream) := []
  lastVc : Nat := 0
  /-- Receive side per VC, and complete messages for this 880, oldest first: VC and flits. -/
  rx : SMap RxVc := []
  inbox : List (Nat × List Flit) := []
  /-- A valid INIT has arrived; core cycle of the last INIT sent, and of the last replay started. -/
  init : Bool := false
  initAt : Nat := 0
  replayAt : Option Nat := none
  /-- Core cycle of the last DELAY_REQ sent; the last 16 one-way delays, newest first. -/
  reqAt : Nat := 0
  delays : List Int := []
  deriving DecidableEq, Repr

/-- A coded memory (R317-R328): what its words were written with, and how what is stored differs from that. -/
structure CodedMem where
  /-- The data that the page code stands for, by byte address. -/
  data : Mem := []
  /-- By word: the stored bits (data bits, then check bits) that differ from those written with `data`. -/
  errs : SMap Nat := []
  /-- By word: the word holds the poison pattern (R319). -/
  poison : SMap Bool := []
  /-- By word: cells that flip at every write (a hard error, R324). -/
  stuck : SMap Nat := []
  /-- The stored bits of the page codes that differ from the code of `data` (R322, R332): by code word, four to a page, each with its
  own word code, in the Cistern; by page, 128 bytes that no word code protects, in the Aquifer. -/
  codeErrs : SMap Nat := []
  deriving DecidableEq, Repr

/-- A Cistern bank's remap entries, spare words and retirement (R337, R339). -/
structure BankRt where
  /-- Bank-local word index of each valid entry, oldest first, at most 8. -/
  entries : List Nat := []
  left : Nat := 8
  /-- Core cycle in which the retirement copy started. -/
  retireFrom : Option Nat := none
  spare : Bool := false
  deriving DecidableEq, Repr

/-- The Cistern, the Aquifer and the tile buffers. -/
structure MemSys where
  cis : CodedMem := {}
  aq : CodedMem := {}
  bufs : SMap CodedMem := []
  banks : SMap BankRt := []
  /-- Next page of the patrol scrub, and the running time in ticks at which its pass began (R336): Cistern, Aquifer. -/
  ciScrub : Nat := 0
  ciPassFrom : Nat := 0
  aqScrub : Nat := 0
  aqPassFrom : Nat := 0
  /-- Consecutive link-ECC failures or failed retrainings by channel, and the core cycle of a channel's retirement (R334, R340). -/
  linkFails : SMap Nat := []
  retiredAt : SMap (Option Nat) := []
  deriving DecidableEq, Repr

/-- A setting of the capture ring (R278). -/
structure CapCfg where
  en : Bool := false
  hold : Bool := false
  src : Bool := false
  log2 : Nat := 0
  nch : Nat := 0
  base : Nat := 0
  float : Nat := 0
  deriving DecidableEq, Repr

/-- A kept deposit: its value, the dealing that orders it, its flow context (R274). -/
structure CapKept where
  value : Nat := 0
  dealt : Nat := 0
  lane : Nat := 0
  ctx : Option Nat := none
  deriving DecidableEq, Repr

/-- A capture bank: one stroke's deposits (R275, R276). -/
structure CapBank where
  stroke : Nat
  time : Nat
  sealNo : Nat
  cfg : CapCfg
  /-- The generation of CAP_CTRL it belongs to, and the HOLD values at its seal. -/
  gen : Nat
  hold : SMap Nat := []
  kept : SMap (Option CapKept) := []
  deposits : Nat := 0
  dups : Nat := 0
  nokey : Nat := 0
  range : Nat := 0
  restarted : Bool := false
  unlocked : Bool := false
  brownout : Bool := false
  dropped : Bool := false
  /-- Core cycle of the boundary that sealed it. -/
  sealedAt : Nat := 0
  /-- Its 16-byte words, in the order of R276, that carry a mark (R277, R328). -/
  marks : List Nat := []
  deriving DecidableEq, Repr

/-- Capture channels: settings, maps, banks (R270-R279). -/
structure Capture where
  cfg : CapCfg := {}
  pendingCfg : Option (CapCfg × Nat) := none
  gen : Nat := 0
  nextSeal : Nat := 0
  /-- The next seal is the first since CAP_CTRL or since strokes stopped. -/
  restart : Bool := false
  hold : SMap Nat := []
  /-- The map in force and the one before it, with the number of the one in force (R273); a pending map with its stroke. -/
  map : List Byte := []
  oldMap : List Byte := []
  mapNo : Nat := 0
  /-- The capture map that waits for a stroke, and the model bank whose COMMIT set it, if one did (R279, R305, R306). -/
  pendingMap : Option (List Byte × Nat × Option Nat) := none
  /-- The bank of the current stroke, and sealed banks not yet drained, oldest first. -/
  cur : Option CapBank := none
  closed : List CapBank := []
  deriving DecidableEq, Repr

/-- A sequence context (R280): STATE 0 FREE, 1 COLD, 2 LIVE. -/
structure SeqCtx where
  state : Nat := 0
  bank : Nat := 0
  model : Nat := 0
  addr : Nat := 0
  bytes : Nat := 0
  chan0 : Nat := 0
  nchan : Nat := 0
  steps : Nat := 0
  lastSeal : Nat := 0
  missing : Nat := 0
  deriving DecidableEq, Repr


/-- The stationary block in force on a tile (R238): its format code, its dataflow class, its 16-byte words with their marks. -/
structure StBlock where
  fmt : Nat
  is : Bool
  words : List (List Byte × Bool)
  deriving DecidableEq, Repr

/-- A failed logical tile that awaits its remap (R244): the spare that takes its place, if any. -/
structure TileSwap where
  logical : Nat
  spare : Option Nat
  /-- Core cycle of the failure; whether the spare's buffer is initialised. -/
  since : Nat
  ready : Bool := false
  deriving DecidableEq, Repr

/-- A tile mirrored into a spare for its test (R246). -/
structure TileMirror where
  logical : Nat
  spare : Nat
  since : Nat
  done : Bool := false
  deriving DecidableEq, Repr

/-- What one register of every cell of a tile holds (R215, R226): zeros until the first load after reset or remap, the operands of
a block, or what a command that ended otherwise than OK left there, which R238 leaves open and no command reads. -/
inductive Cells where
  | zero
  | block (b : StBlock)
  | unspecified
  deriving DecidableEq, Repr

/-- A tile's stationary registers SR, its shadow registers SH, and its accumulator file as the last command left it: entries of
one sum a column, those past the list being clear; none where it is unspecified (R215, R221, R226). -/
structure TileCells where
  sr : Cells := .zero
  sh : Cells := .zero
  acc : Option (List (List Int)) := some []
  deriving DecidableEq, Repr

/-- The shadow registers of a row band (R223). -/
inductive Shadow where
  | empty
  | loading
  | full
  deriving DecidableEq, Repr

/-- A tile as a command streams through it, array cycle by array cycle (R215, R223-R226). -/
structure Wave where
  /-- Cycles before the first load writes, or the first slice enters. -/
  wait : Nat
  /-- Loads not begun, and the rows that the load under way has written. -/
  loads : Nat
  rows : Option Nat := none
  /-- Each row band's shadow, and the block whose operands its SR holds. -/
  shadows : List Shadow := List.replicate 16 .empty
  on : List Nat := List.replicate 16 0
  /-- The bit slice that stood at each band in the last cycle: its block, and whether it is the block's last, with the marker. -/
  slices : List (Option (Nat × Bool)) := List.replicate 16 none
  /-- Whether block 0 is in force; the block that streams, its slices yet to enter band 0, the blocks, and the slices of each. -/
  started : Bool
  block : Nat := 0
  left : Nat
  blocks : Nat
  width : Nat
  deriving DecidableEq, Repr

/-- The matrix array beyond its registers: valid stationary blocks and cells by logical tile; fault times by physical tile
(R242). -/
structure Matrix where
  blocks : SMap (Option StBlock) := []
  cells : SMap TileCells := []
  faultTimes : SMap (List Nat) := []
  swaps : List TileSwap := []
  mirror : Option TileMirror := none
  deriving DecidableEq, Repr

/-- A mapping record of a footprint (R294). -/
structure ModelMap where
  parts : Nat
  tpp : Nat
  step : Nat
  scanRow : Nat
  scanFixed : Nat
  deriving DecidableEq, Repr

/-- Where a directory entry was placed (R304): space 0 not placed, 1 Cistern, 2 Aquifer. -/
structure Placed where
  space : Nat
  type : Nat
  part : Nat
  addr : Nat
  deriving DecidableEq, Repr

/-- What a model bank knows of the image it holds (R300-R304). -/
structure ModelImage where
  id : Nat := 0
  version : Nat := 0
  rate : Bool := false
  spill : Bool := false
  maps : List ModelMap := []
  /-- BAYS_SHORT, BAY_BYTES_EXCESS, AQ_EXCESS, TREES_EXCESS, ENS_EXCESS, AM_EXCESS. -/
  excess : List Nat := []
  spillBytes : Nat := 0
  digest : List Byte := []
  placed : List Placed := []
  /-- The per-frame store: Aquifer address and length of ENSEMBLE, FEATURE, CAPTURE (R299). -/
  ens : Option (Nat × Nat) := none
  feat : Option (Nat × Nat) := none
  cap : Option (Nat × Nat) := none
  deriving DecidableEq, Repr

/-- The states of a model bank, in the order of R304's STATE. -/
inductive ModelState where
  | empty | loading | primed | armed | active | draining
  deriving DecidableEq, Repr

/-- A model bank (R297, R303). -/
structure ModelBank where
  st : ModelState := .empty
  quota : Nat := 0
  mask : Nat := 0
  aqBase : Nat := 0
  aqSize : Nat := 0
  amLimit : Nat := 8192
  img : ModelImage := {}
  mapping : Option Nat := none
  lost : Bool := false
  commitAt : Nat := 0
  retireAt : Nat := 0
  /-- While LOADING: the tiles in service of each partition that step 5 goes by, none of a failed one (R300, R311). -/
  tiles : List (Option Nat) := []
  deriving DecidableEq, Repr

/-- The two model banks and the device model epoch (R306). -/
structure Models where
  bank0 : ModelBank := {}
  bank1 : ModelBank := {}
  epoch : Nat := 0
  deriving DecidableEq, Repr


/-- A control core (R379-R394): the header and code of the module it runs, its state block as last written, the core cycle in
which it started, its last watchdog expiry. -/
structure Core where
  mod : List Byte := []
  block : List Byte := []
  startedAt : Nat := 0
  expired : Option Nat := none
  deriving DecidableEq, Repr

/-- How far the replacement of a module is (R387-R392). -/
inductive FwStage where
  | idle      -- none in progress
  | staged    -- copied, being checked
  | pending   -- accepted, waits for its stroke
  | begun     -- the handover has begun: the core is told to quiesce
  | loaded    -- the new code is loaded, START is awaited
  | storing   -- the store slot is being written
  deriving DecidableEq, Repr

/-- A replacement: the staged module, whether a word of it carried a poison mark, COLD, and the core cycle of its stage. -/
structure FwJob where
  stage : FwStage := .idle
  mod : List Byte := []
  poisoned : Bool := false
  cold : Bool := false
  /-- The core was not running when the handover began. -/
  wasDown : Bool := false
  since : Nat := 0
  deriving DecidableEq, Repr

/-- Control cores, firmware and trust beyond their registers (chapter 13). -/
structure Security where
  cores : SMap Core := []
  /-- Header and code of the loader as verified at boot (R401). -/
  loader : List Byte := []
  fw : FwJob := {}
  /-- The recovery buffer (R386). -/
  recovery : List Byte := []
  /-- Host software has consented to the next life-cycle GO (R396). -/
  consent : Bool := false
  /-- The target of a transition whose fuses are being burnt (R398). -/
  burning : Option Nat := none
  /-- The owner-key digest being burnt (R399). -/
  enrolling : Option (List Byte) := none
  /-- Attestation (R401): the report's address, and its bytes once the snapshot is taken. -/
  attAddr : Nat := 0
  report : Option (List Byte) := none
  deriving DecidableEq, Repr

/-- What survives every reset: the fuses, and the firmware store (R384, R396-R400, R449). -/
structure NonVolatile where
  /-- The life-cycle state that governs from the next reset (R395, R398). -/
  lifecycle : Nat := 1
  stepping : Nat := 0
  serial : Nat := 0
  /-- The Gorpor key, 64 bytes (R383). -/
  gorpor : List Byte := List.replicate 64 0
  /-- The boot ROM's measurement (R385, R401). -/
  rom : List Byte := List.replicate 64 0
  /-- The SHAKE256 digest of the enrolled owner key (R399). -/
  owner : Option (List Byte) := none
  /-- The identity's seed and public key (R400). -/
  seed : Option (List Byte) := none
  idPub : List Byte := List.replicate 32 0
  /-- VDD_CORE set point in mV (R409). -/
  coreMv : Nat := 720
  /-- Tiles fused out, and the source addresses of the links (LK_MAC). -/
  fusedOut : List Nat := []
  macs : SMap Nat := []
  /-- The store slots by role code; a slot not listed is empty or invalid (R384). -/
  slots : SMap (List Byte) := []
  deriving DecidableEq, Repr

/-- An open brownout window of a rail (R419-R422); times in ticks of the part's own running time. -/
structure Dip where
  low : Nat
  /-- Start of the current dip, if the rail is still below its warning level; else since when it is above it. -/
  below : Bool
  since : Nat
  /-- Time below the warning level in dips that are over. -/
  total : Nat := 0
  first : Nat
  halved : Bool := false
  deriving DecidableEq, Repr

/-- A unit under in-service test (R428, R429). -/
structure IstRun where
  unit : IstUnit
  since : Nat
  deriving DecidableEq, Repr

/-- Power, heat and self-test beyond their registers (chapter 14). -/
structure Power where
  /-- Core cycle of the last power measurement; the clamp's counts of measurements (R45, R46). -/
  measured : Nat := 0
  below97 : Nat := 0
  underLimit : Nat := 0
  eighthFrom : Option Nat := none
  /-- Open brownout windows by rail (R421). -/
  dips : SMap (Option Dip) := []
  /-- The current stroke is flagged (R422). -/
  flagged : Bool := false
  /-- Rails now below their warning level, and when the last of them rose above it (R423). -/
  lowRails : List Nat := []
  roseAt : Nat := 0
  /-- CLK_REF is within tolerance, and since when (R463). -/
  clkRef : Bool := true
  clkAt : Nat := 0
  /-- The hottest junction as last sampled, 0.1 °C, and whether THERMAL_WARN is armed (R431). -/
  tj : Nat := 0
  warned : Bool := false
  /-- The last move of the VDD_CORE set point: the set point before it, and its time (R409). -/
  moved : Option (Nat × Nat) := none
  /-- What holds internal reset: rails, CLK_REF, heat (R423, R432, R463). -/
  holdRails : Bool := false
  holdClock : Bool := false
  holdHot : Bool := false
  /-- Units under in-service test, one of each class; when the last BIST_RANGE of a step was raised (R425, R428). -/
  tests : List IstRun := []
  /-- Units tested in this rotation (R428). -/
  covered : List IstUnit := []
  rangeAt : Option Nat := none
  /-- Slices of each single-instance block aborted in a row, and when the last was (R429). -/
  aborts : SMap (Nat × Nat) := []
  deriving DecidableEq, Repr

/-- Lands whose level no register shows (R455-R458, R462). -/
structure Pins where
  /-- Levels that ALERT_N and APR_N hold through a reset until step 1: asserted, and asserted inlets (R462). -/
  alertHeld : Bool := false
  aprHeld : Nat := 0
  /-- The code that VID drives once VID_OK is high (R458). -/
  vid : Option Nat := none
  /-- The SMBus address straps as sampled (R456, R466). -/
  smbAddr : Nat := 0
  /-- Lands that EXTEST drives (R448). -/
  driven : Option (List Bool) := none
  deriving DecidableEq, Repr

/-- Freeze, capture and the JTAG port beyond their registers (chapter 15). -/
structure Debug where
  /-- Core cycle in which the source of a pre-freeze step acted (R442). -/
  preFrom : Option Nat := none
  /-- The register file at cycle 8 (R443). -/
  frozenRegs : SMap Word := []
  /-- The readout under way: space, instance, address, length (R444). -/
  readout : Option (Nat × Nat × Nat × Nat) := none
  /-- Records of it that have left, and the part's own time at which the one under way began. -/
  sent : Nat := 0
  sentAt : Nat := 0
  /-- SEQ of the next record (R446). -/
  seq : Nat := 0
  /-- The JTAG instruction and the boundary register (R448). -/
  instr : Nat := 1
  boundary : List Bool := []
  deriving DecidableEq, Repr

/-- The management endpoint (R466): the endpoint ID the bus owner has given it. -/
structure Mgmt where
  eid : Nat := 0
  deriving DecidableEq, Repr


/-- The state of the block. -/
structure State where
  /-- Where the 880 stands between power-on and service. -/
  phase : Phase := .startup
  clk : Clock := {}
  /-- The BAR0 registers that differ from their reset value (R9-R15), by offset. -/
  regs : SMap Word := []
  /-- The words in force of the registers whose writes wait for a boundary (R27, R29), where they differ from reset. -/
  inForce : SMap Word := []
  host : HostIf := {}
  intake : Intake := {}
  flow : Flow := {}
  banks : Banks := {}
  egress : Egress := {}
  mems : MemSys := {}
  capture : Capture := {}
  matrix : Matrix := {}
  /-- The sequence context table (R280), by context. -/
  seqs : SMap SeqCtx := []
  models : Models := {}
  pairs : SMap Pair := []
  links : SMap Link := []
  luapo : SMap Luapo := []
  /-- The Luapo routing table (R373), by device. -/
  routes : SMap Nat := []
  /-- By inlet: the core cycle in which a link it feeds last cleared LOS (R348). -/
  losClear : SMap Nat := []
  sec : Security := {}
  nv : NonVolatile := {}
  power : Power := {}
  pins : Pins := {}
  dbg : Debug := {}
  mgmt : Mgmt := {}
  /-- DBG_CLK runs (R448, R468). -/
  dbgClock : Bool := true
  /-- An event carried the freeze trigger's code (R437). -/
  trigger : Bool := false
  /-- What the block has sent outside, newest first: the model's own record. -/
  out : List Out := []
  /-- The index of the next free value: the model's own counter (log 10). -/
  fresh : Nat := 0
  /-- The commands waiting, first in, first out. -/
  pending : List Instr := []
  deriving DecidableEq, Repr

/-- The 880 right after reset, before its start-up steps (R12, R54, R414): every register at its reset value, every field of
fuse, strap and cal 0 until start-up loads it (log 2), every store empty, no command waiting. -/
def State.reset : State := {}

end Sys2Proof.Machine
end

