-- ==== Sys2Proof/Machine/Regs.lean ====
section
/-! DEFINITION. Register words and fields: the one place where the register file is read and written. -/

namespace Sys2Proof.Machine

/-- The indices of a register array that `rem`, an offset from its base, names. -/
def splitIndex : List (Nat × Nat) → Nat → Option (List Nat)
  | [], rem => if rem = 0 then some [] else none
  | (c, st) :: ds, rem =>
    if rem / st < c then (splitIndex ds (rem % st)).map (rem / st :: ·) else none

/-- The register at a BAR0 offset, with its indices (R63); none where no register lies (R14). -/
def findRow : List RegRow → Nat → Option (RegRow × List Nat)
  | [], _ => none
  | r :: rs, off =>
    if off < r.base then findRow rs off
    else match splitIndex r.dims (off - r.base) with
      | some ix => some (r, ix)
      | none => findRow rs off

/-- A field's reset value in the instance with index `i` (R12; LK_CTRLn.PERS is 1 on LK24-LK39). -/
def resetField (i : Nat) : ResetVal → Nat
  | .val n => n
  | .queue => i
  | .pers => if 24 ≤ i then 1 else 0

/-- The reset word of a register with the given fields. -/
def resetOf (i : Nat) : List FieldRow → Nat
  | [] => 0
  | f :: fs => resetField i f.rst % 2 ^ f.w * 2 ^ f.lo + resetOf i fs

/-- The reset value of the register at a BAR0 offset; 0 where no register lies. -/
def resetWord (off : Nat) : Word :=
  match findRow regRows off with
  | some (r, ix) => BitVec.ofNat 32 (resetOf (ix.headD 0) r.fields)
  | none => 0

/-- The register at a BAR0 offset as the register file holds it. -/
def State.word (s : State) (off : Nat) : Word := sget (resetWord off) s.regs off

/-- The state with the register at a BAR0 offset set. -/
def State.setWord (s : State) (off : Nat) (v : Word) : State :=
  { s with regs := sset (resetWord off) s.regs off v }

/-- A field of a register. -/
def State.get (s : State) (f : Fld) : Nat := bits (s.word f.reg).toNat f.lo f.w

/-- Whether a one-bit field is 1. -/
def State.on (s : State) (f : Fld) : Bool := s.get f == 1

/-- The state with a field of a register set. -/
def State.put (s : State) (f : Fld) (v : Nat) : State :=
  s.setWord f.reg (BitVec.ofNat 32 (setBits (s.word f.reg).toNat f.lo f.w v))

/-- The state with a one-bit field set from a Bool. -/
def State.putB (s : State) (f : Fld) (b : Bool) : State := s.put f (b2n b)

/-- A 64-bit quantity in two registers, the low half at `lo` (R10). -/
def State.get64 (s : State) (lo : Nat) : Nat := (s.word lo).toNat + 2 ^ 32 * (s.word (lo + 4)).toNat

/-- The state with a 64-bit quantity set. -/
def State.put64 (s : State) (lo v : Nat) : State :=
  (s.setWord lo (BitVec.ofNat 32 v)).setWord (lo + 4) (BitVec.ofNat 32 (v / 2 ^ 32))

/-- A counter that wraps, `n` counts on. -/
def State.bump (s : State) (f : Fld) (n : Nat := 1) : State := s.put f (s.get f + n)

/-- A counter that saturates at its width, `n` counts on. -/
def State.bumpSat (s : State) (f : Fld) (n : Nat := 1) : State := s.put f (min (2 ^ f.w - 1) (s.get f + n))

/-- A 64-bit counter in two registers, `n` counts on, modulo 2^64. -/
def State.bump64 (s : State) (lo n : Nat) : State := s.put64 lo ((s.get64 lo + n) % 2 ^ 64)

/-- The word in force of a register whose writes wait for a boundary (R27, R29). -/
def State.wordF (s : State) (off : Nat) : Word := sget (resetWord off) s.inForce off

/-- A field in force of such a register. -/
def State.getF (s : State) (f : Fld) : Nat := bits (s.wordF f.reg).toNat f.lo f.w

/-- Whether a one-bit field is 1 in force. -/
def State.onF (s : State) (f : Fld) : Bool := s.getF f == 1

/-- The registers whose writes apply at the next stroke boundary (R27, R94, R104, R118, R176, R180, R212, R241). -/
def boundaryApplied (off : Nat) : Bool :=
  (0x10100 ≤ off && off < 0x10240) || (0x10300 ≤ off && off < 0x10440)
  || (0x100000 ≤ off && off < 0x101800 && off % 0x100 < 12)
  || off == R.WH_RATE_RED || (0x310008 ≤ off && off < 0x310800)
  || (0x500000 ≤ off && off < 0x518000 && off % 0x1000 < 0x50)
  || (0x600400 ≤ off && off < 0x600440)

/-- Step 2 of the boundary: pending register changes apply (R28, R29). -/
def State.applyPending (s : State) : State :=
  { s with inForce := s.regs.filter fun e => boundaryApplied e.1 }

/-- The next free value (log 10): what it is, nothing constrains. -/
def State.free (s : State) : Nat × State := (Config.free s.fresh, { s with fresh := s.fresh + 1 })

/-- The next `n` free bytes (log 10). -/
def State.freeBytes (s : State) (n : Nat) : List Byte × State :=
  ((List.range n).map fun i => BitVec.ofNat 8 (Config.free (s.fresh + i)), { s with fresh := s.fresh + n })

/-- The state with something sent outside. -/
def State.emit (s : State) (o : Out) : State := { s with out := o :: s.out }

end Sys2Proof.Machine
end

