-- ==== Sys2Proof/Machine/Ops.lean ====
section
/-! DEFINITION. The operations every block shares: host memory behind the DMA window table, interrupts, the event ring,
standpipe space, the bypass, the relief valves. -/

namespace Sys2Proof.Machine

/-! ## Which phases answer and run (R62, R416, R417, R432, R438-R441) -/

abbrev Res := Host.Outcome State Fault Refusal

/-- The 880 is frozen (R439). -/
def State.frozen (s : State) : Bool := s.on F.GLB_STATUS_FROZEN

/-- The datapath and the engines run: READY, and not frozen (R416, R439). -/
def State.live (s : State) : Bool := s.phase == .ready && !s.frozen

/-- A block of BAR0 that answers in a fault hold and in recovery: GLB, PWR, SEC, DBG (R386, R417). -/
def holdBlock (off : Nat) : Bool :=
  off < 0x10000 || (0x1800000 ≤ off && off < 0x1900000) || (0x1A00000 ≤ off && off < 0x1C00000)

/-- The DBG block. -/
def dbgBlock (off : Nat) : Bool := 0x1B00000 ≤ off && off < 0x1C00000

/-- The boot ROM has halted in RETIRED: of the DBG block only DBG_STATUS answers (R395, R438). -/
def State.retiredHold (s : State) : Bool := s.phase == .hold && s.get F.GLB_STATUS_LIFECYCLE == 4

/-- Writes to a BAR0 offset reach its register (R416, R417, R432, R438, R441, R468). -/
def State.takesWrite (s : State) (off : Nat) : Bool :=
  if dbgBlock off && (!s.dbgClock || s.retiredHold) then false
  else if s.frozen then dbgBlock off
  else match s.phase with
    | .ready | .startup | .bist => true
    | .hold | .recovery => holdBlock off
    | .safe => 0x1A00000 ≤ off && off < 0x1B00000
    | .reset => false

/-- The PCI Express link is up: it goes down with its reference clock (R468). -/
def State.pcieUp (s : State) : Bool := s.host.config.refClock

/-- BAR2 and BAR4 accesses reach the 880: not in a hold, the safe state, a held reset or a freeze. -/
def State.barsOpen (s : State) : Bool := (s.phase == .ready || s.phase == .startup) && !s.frozen && s.pcieUp

/-- The timebase and the stroke generator run: from the release of internal reset on, and not frozen (R416, R440). -/
def State.clocked (s : State) : Bool := (s.phase == .ready || s.phase == .startup) && !s.frozen

/-- A step of the running part: it changes nothing while the part does not run (log 1). -/
def whenLive (s : State) (f : State → State) : Res := .next (if s.live then f s else s)

/-- A host write to the register at a BAR0 offset: discarded where writes do not reach it. -/
def whenWritable (s : State) (off : Nat) (f : State → State) : Res := .next (if s.takesWrite off then f s else s)

/-- A write that only host software can make (HO, R11): it needs the PCI Express link. -/
def whenHost (s : State) (off : Nat) (f : State → State) : Res := .next (if s.takesWrite off && s.pcieUp then f s else s)

/-- A step of the timebase. -/
def whenClocked (s : State) (f : State → State) : Res := .next (if s.clocked then f s else s)

/-! ## Time and strokes -/

/-- The active stroke period (R23). -/
def State.period (s : State) : Nat := s.get F.STK_ACTIVE_PERIOD_PERIOD

/-- The timebase count of boundary `k` (R23). -/
def State.count (s : State) (k : Nat) : Nat :=
  s.get64 R.STK_ORIGIN_LO + (k - s.get64 R.STK_BASE_LO) * s.period

/-- What STK_NOW reads (R23, R26). -/
def State.nowReg (s : State) : Nat := if s.clk.strokes then s.clk.now else 0xFFFFFFFFFFFFFFFF

/-- The stroke number as tables record it: 0 while strokes are not running (R129). -/
def State.strokeOr0 (s : State) : Nat := if s.clk.strokes then s.clk.now else 0

/-- The timebase count of the next boundary, or of the opening that the start waits for (R23, R469). -/
def State.nextEdge (s : State) : Option Nat :=
  if s.clk.strokes then some (s.count (s.clk.now + 1))
  else if s.clk.armed then some (s.get64 R.STK_ORIGIN_LO) else none

/-! ## Host memory and the DMA window table (R85) -/

/-- The word of a register whose reset value is 0. -/
def State.raw (s : State) (off : Nat) : Nat := (sget 0 s.regs off).toNat

/-- Whether window `n` covers a page and grants the direction. -/
def State.windowOk (s : State) (write : Bool) (page n : Nat) : Bool :=
  let base := s.raw (R.HIF_DMAW_0 n) / 4096 + 2 ^ 20 * s.raw (R.HIF_DMAW_4 n)
  let pages := s.raw (R.HIF_DMAW_8 n)
  let perm := s.raw (R.HIF_DMAW_C n)
  base ≤ page && page < base + pages && bit perm (if write then 1 else 0)

/-- Whether some enabled window covers a page of host memory and grants the direction. -/
def State.pageOk (s : State) (write : Bool) (page : Nat) : Bool :=
  s.regs.any fun e =>
    0x28000 ≤ e.1 && e.1 < 0x29000 && e.1 % 16 == 8 && s.windowOk write page ((e.1 - 0x28000) / 16)

/-- The first page at or after `page`, of `n` pages, that the windows refuse. -/
def State.badPage (s : State) (write : Bool) : Nat → Nat → Option Nat
  | 0, _ => none
  | n + 1, page => if s.pageOk write page then s.badPage write n (page + 1) else some page

/-- The lowest address of a host range that the window table refuses; none where the whole range is granted. -/
def State.dmaRefused (s : State) (write : Bool) (addr len : Nat) : Option Nat :=
  if len = 0 then none
  else (s.badPage write ((addr + len - 1) / 4096 - addr / 4096 + 1) (addr / 4096)).map fun p => max addr (4096 * p)

/-- Bytes of host memory. -/
def State.hostRead (s : State) (addr n : Nat) : List Byte := Memory.read s.host.mem addr n

/-- Host memory with bytes stored. -/
def State.hostPut (s : State) (addr : Nat) (bs : List Byte) : State :=
  { s with host := { s.host with mem := Memory.write s.host.mem addr bs } }

/-- A posted write of the 880: lost while the PCI Express link is down. -/
def State.hostWrite (s : State) (addr : Nat) (bs : List Byte) : State := if s.pcieUp then s.hostPut addr bs else s

/-- Host software's own stores to its memory, in order (log 4). -/
def State.hostStores (s : State) : List (Nat × List Byte) → State
  | [] => s
  | (a, bs) :: rest => (s.hostPut a bs).hostStores rest

/-- A read completed with Completer Abort, which AER logs (R62). -/
def State.abortRead (s : State) : State :=
  { s with host := { s.host with config := { s.host.config with aer := s.host.config.aer ||| 2 ^ 15 } } }.emit .completerAbort

/-! ## Interrupts (R84) -/

/-- The function or the table masks a vector. -/
def State.masked (s : State) (v : Nat) : Bool := s.host.config.msixMask || s.on (F.MSIX_CTRL_MASK v)

/-- A vector's pending bit set or cleared. -/
def State.setPending (s : State) (v : Nat) (b : Bool) : State := s.putB ⟨R.MSIX_PBA (v / 32), v % 32, 1⟩ b

/-- A ring fires its vector: a masked vector sets its pending bit instead (R84). -/
def State.fire (s : State) (v : Nat) : State :=
  if !s.host.config.msixEnable || !s.pcieUp then s
  else if s.masked v then s.setPending v true
  else s.emit (.irq v)

/-! ## The event ring (R87, R88) -/

/-- A payload of `n` bytes with the given fields: offset, bytes, value. -/
def payload (n : Nat) : List (Nat × Nat × Nat) → List Byte
  | [] => zeros n
  | (o, w, v) :: fs => putField (payload n fs) o w v

/-- Size of the event ring in records. -/
def State.evtSize (s : State) : Nat := 2 ^ s.get F.HIF_EVT_CTRL_LOG2

/-- Free records of the event ring (R65, R87). DESIGN CHOICE (log 32): a HIF_EVT_HEAD at or above the ring's size is taken modulo
that size. -/
def State.evtFree (s : State) : Nat :=
  let n := s.evtSize
  n - 1 - (s.get F.HIF_EVT_TAIL_INDEX + n - s.get F.HIF_EVT_HEAD_INDEX % n) % n

/-- Whether event writing is on: the ring enabled and not halted. -/
def State.evtOn (s : State) : Bool := s.on F.HIF_EVT_CTRL_ENABLE && !s.on F.GLB_STATUS_EVT_HALT

/-- Whether an event code is masked (R88). -/
def State.evtMasked (s : State) (code : Nat) : Bool := bit (s.raw (R.HIF_EVT_MASK (code / 256))) (code % 256 % 32)

/-- One more event counted in HIF_EVT_LOST. -/
def State.evtLose (s : State) : State := s.bumpSat F.HIF_EVT_LOST_COUNT

/-- The event ring's interrupt condition after `n` more records (R84): every record counts. DESIGN CHOICE (log 32): as
`State.cqIrq` has it, records count while IRQ_EN is 0, and the condition is looked at when a record is written. -/
def State.evtIrq (s : State) (n : Nat) : State :=
  let e := s.host.evt
  let since := if e.irqCount = 0 then s.clk.cycle else e.irqSince
  let c := e.irqCount + n
  if s.on F.HIF_EVT_CTRL_IRQ_EN && max 1 (s.get F.HIF_EVT_IRQ_COUNT) ≤ c then
    { s with host := { s.host with evt := { e with irqCount := 0, irqSince := since } } }.fire (s.get F.HIF_EVT_CTRL_VECTOR)
  else { s with host := { s.host with evt := { e with irqCount := c, irqSince := since } } }

/-- Address of the event ring's record `i` after the next one to write. -/
def State.evtAddr (s : State) (i : Nat) : Nat :=
  s.get64 R.HIF_EVT_BASE_LO + 32 * ((s.get F.HIF_EVT_TAIL_INDEX + i) % s.evtSize)

/-- The records of one event written from the tail on. -/
def State.evtRecords (s : State) : Nat → List (List Byte) → State
  | _, [] => s
  | i, r :: rs => (s.hostWrite (s.evtAddr i) r).evtRecords (i + 1) rs

/-- The PHASE of the record `i` after the next one: it inverts on each wrap (R87). -/
def State.evtPhase (s : State) (i : Nat) : Bool :=
  if s.get F.HIF_EVT_TAIL_INDEX + i < s.evtSize then s.host.evt.phase else !s.host.evt.phase

/-- The head record of an event (R87). -/
def State.evtHead (s : State) (code : Nat) (pl : List Byte) (cont : Bool) : List Byte :=
  natBytes 2 code ++ natBytes 1 (b2n (s.evtPhase 0) + 2 * b2n cont) ++ [0]
    ++ natBytes 4 s.host.evt.seq ++ natBytes 8 s.nowReg ++ padTo 16 pl

/-- The refused address among `n` records from the tail on, if the windows refuse one. -/
def State.evtRefused (s : State) : Nat → Nat → Option Nat
  | _, 0 => none
  | i, n + 1 => match s.dmaRefused true (s.evtAddr i) 32 with
    | some a => some a
    | none => s.evtRefused (i + 1) n

/-- Writes one event's records together and in order, given that they fit and are granted. -/
def State.evtPut (s : State) (code : Nat) (pl : List Byte) (cont : List (List Byte)) : State :=
  let n := 1 + cont.length
  let s1 := s.evtRecords 0 (s.evtHead code pl (!cont.isEmpty) :: cont.map (padTo 32))
  let s2 := { s1 with host := { s1.host with evt :=
    { s1.host.evt with seq := (s.host.evt.seq + 1) % 2 ^ 32, phase := s.evtPhase n } } }
  (s2.put F.HIF_EVT_TAIL_INDEX ((s.get F.HIF_EVT_TAIL_INDEX + n) % s.evtSize)).evtIrq n

/-- A core does its duties: it runs, or a handover gives it a new module (R389, R394). -/
def State.tended (s : State) (c : Nat) : Bool :=
  s.get (F.SEC_CORE_STATUS_STATE c) == 1 || s.get (F.SEC_CORE_STATUS_STATE c) == 2

/-- The freeze trigger on an event code (R437): the FREEZE_EVENT_TRIGGER step follows. -/
def State.evtTrigger (s : State) (code : Nat) : State :=
  if s.on F.DBG_TRIG_EVT_EN && s.get F.DBG_TRIG_EVENT == code then { s with trigger := true } else s

/-- Puts an event into the ring, or counts it lost; a refused write halts event writing and answers the refused address (R86). -/
def State.evtWrite (s : State) (code : Nat) (pl : List Byte) (cont : List (List Byte)) : State × Option Nat :=
  if !s.evtOn || s.evtFree < 1 + cont.length then (s.evtLose, none)
  else match s.evtRefused 0 (1 + cont.length) with
    | some a => ((s.evtLose).putB F.GLB_STATUS_EVT_HALT true, some a)
    | none => (s.evtPut code pl cont, none)

/-- EVENT_LOSS, at the first moment after a drop at which the ring has a free slot and writing is on (R88). -/
def State.evtLoss (s : State) : State × Option Nat :=
  let lost := s.get F.HIF_EVT_LOST_COUNT
  if lost = 0 || !s.evtOn || s.evtFree = 0 then (s, none)
  else if s.evtMasked 0x0201 then (s.put F.HIF_EVT_LOST_COUNT 0, none)
  else match s.evtRefused 0 1 with
    | some a => ((s.evtLose).putB F.GLB_STATUS_EVT_HALT true, some a)
    | none => ((s.evtPut 0x0201 (payload 16 [(0, 4, lost)]) []).put F.HIF_EVT_LOST_COUNT 0, none)

/-- Raises an event without the valve trip that a refused write of its record raises. -/
def State.raiseCore (s : State) (code : Nat) (pl : List Byte) (cont : List (List Byte)) : State × Option Nat :=
  let s := s.evtTrigger code
  if s.evtMasked code then (s, none)
  else match s.evtLoss with
    | (s1, some a) => ((s1.evtLose), some a)
    | (s1, none) => s1.evtWrite code pl cont

/-! ## Standpipe space (R99-R103) -/

/-- The standpipe of a link, frames in arrival order. -/
def State.pipe (s : State) (n : Nat) : List SpFrame := sget [] s.intake.pipes n

/-- The state with a link's standpipe replaced. -/
def State.setPipe (s : State) (n : Nat) (fs : List SpFrame) : State :=
  { s with intake := { s.intake with pipes := sset [] s.intake.pipes n fs } }

/-- 16-byte granules a frame occupies (R99). -/
def granules (f : SpFrame) : Nat := (f.bytes.length + 15) / 16

/-- Occupancy of a link's standpipe in bytes, pad and held frames included (R108). -/
def State.pipeFill (s : State) (n : Nat) : Nat := ((s.pipe n).map granules).sum * 16

/-- Space is freed strictly in arrival order: released frames at the front whose end is written (R102). -/
def freeFront : List SpFrame → List SpFrame
  | [] => []
  | f :: fs => if f.released && f.stat != .opening then freeFront fs else f :: fs

/-- Granules that a list of frames occupies. -/
def granulesOf (fs : List SpFrame) : Nat := (fs.map granules).sum

/-- Granules freed in a standpipe now: its writer goes on seeing them occupied for a while (R109). -/
def State.noteFreed (s : State) (n k : Nat) : State :=
  if k = 0 then s
  else
    let late (l : List (Nat × Nat)) := (s.clk.real, k) :: l.filter fun e => s.clk.real < e.1 + 4
    { s with intake := { s.intake with freed := smod [] s.intake.freed n late } }

/-- Granules freed in a standpipe that its writer still sees occupied: those freed in the last 1.28 ns, for as long as its lag
(R109). -/
def State.lagging (s : State) (n : Nat) : Nat :=
  ((sget [] s.intake.freed n).map fun (t, k) =>
    if s.clk.real < t + 4 && s.clk.real < t + Config.writeLag t % 5 then k else 0).sum

/-- The read side sees the last write of a frame: two core cycles after it at the latest (R109). -/
def State.seen (s : State) (f : SpFrame) : Bool :=
  f.wrote + 2 ≤ s.clk.real || f.wrote + Config.readLag f.id % 3 ≤ s.clk.real

/-- Bytes of a frame, and its end status, as the read side sees them. -/
def State.visible (s : State) (f : SpFrame) : Nat := if s.seen f then f.bytes.length else f.before
def State.endSeen (s : State) (f : SpFrame) : EndStatus := if s.seen f then f.stat else .opening

/-- A frame of a link's standpipe passed through `f`, then the front freed. -/
def State.modFrame (s : State) (n id : Nat) (f : SpFrame → SpFrame) : State :=
  let old := (s.pipe n).map fun x => if x.id = id then f x else x
  let new := freeFront old
  (s.setPipe n new).noteFreed n (granulesOf old - granulesOf new)

/-- A frame of a link's standpipe written through `f`. -/
def State.writeSp (s : State) (n id : Nat) (f : SpFrame → SpFrame) : State :=
  s.modFrame n id fun x => { f x with wrote := s.clk.real, before := s.visible x }

/-- A frame released (R102). -/
def State.releaseFrame (s : State) (n id : Nat) : State := s.modFrame n id fun f => { f with released := true }

/-- A frame of a link's standpipe. -/
def State.frame? (s : State) (n id : Nat) : Option SpFrame := (s.pipe n).find? (·.id == id)

/-! ## Class queues that go down (R210) -/

/-- The queue of class `c` of link `n`. -/
def State.classQ (s : State) (n c : Nat) : List QEntry := sget [] s.egress.queues (8 * n + c)

/-- The state with a class queue replaced. -/
def State.setClassQ (s : State) (n c : Nat) (q : List QEntry) : State :=
  { s with egress := { s.egress with queues := sset [] s.egress.queues (8 * n + c) q } }

/-- A queued frame's space released: an originated frame lies in no standpipe. -/
def State.releaseEntry (s : State) (e : QEntry) : State :=
  match e.own with
  | some _ => s
  | none => s.releaseFrame e.src e.frame

/-- The frames of one class dropped for a down or bypassed link. -/
def State.dropClass (s : State) (n c : Nat) : State :=
  let q := s.classQ n c
  ((q.foldl State.releaseEntry s).setClassQ n c []).bump (F.EG_DOWN_DROPS n c) q.length

/-- Every frame queued to a link dropped (R210). -/
def State.dropLink (s : State) (n : Nat) : State := (List.range 8).foldl (fun s c => s.dropClass n c) s

/-! ## The optical bypass (R361, R402) -/

/-- A pair beyond its registers. -/
def State.pair (s : State) (p : Nat) : Pair := sget {} s.pairs p

/-- The state with a pair passed through `f`. -/
def State.modPair (s : State) (p : Nat) (f : Pair → Pair) : State := { s with pairs := smod {} s.pairs p f }

/-- A link beyond its registers. -/
def State.link (s : State) (n : Nat) : Link := sget {} s.links n

/-- The state with a link passed through `f`. -/
def State.modLink (s : State) (n : Nat) (f : Link → Link) : State := { s with links := smod {} s.links n f }

/-- A link that is UP is to leave UP for a reason. -/
def State.sendDown (s : State) (n reason : Nat) : State :=
  if s.get (F.LK_STATUS_STATE n) = 4 then s.modLink n fun l => { l with going := some (l.going.getD reason) } else s

/-- A pair driven to bypass: TO_BYPASS with a cause, a new drive pulse, its queued frames dropped (R210, R361), its links on
their way down for a reason (R342). In a freeze only the switches move (R440, R450). -/
def State.toBypass (s : State) (p cause reason : Nat) : State :=
  let s1 := ((s.put (F.LK_PAIR_STATUS_STATE p) 4).put (F.LK_PAIR_STATUS_CAUSE p) cause).modPair p fun x =>
    { x with moveFrom := s.clk.cycle, repeated := false, reverse := none }
  if s.frozen then s1
  else (((s1.dropLink (2 * p)).dropLink (2 * p + 1)).sendDown (2 * p) reason).sendDown (2 * p + 1) reason

/-- A pair on its way to bypass: from TO_INLINE and TO_DIRECT once the in-line pulse completes (R361, R378). -/
def State.leavePair (s : State) (p cause reason : Nat) : State :=
  let st := s.get (F.LK_PAIR_STATUS_STATE p)
  if st = 1 || st = 6 then s.modPair p fun x => { x with reverse := some (x.reverse.getD (cause, reason)) }
  else if st = 2 || st = 3 || st = 5 then s.toBypass p cause reason
  else s

/-- A fail-open condition moves a pair only from TO_INLINE, TRAINING or INLINE (R361, R402, R471). -/
def State.latchBypass (s : State) (p cause : Nat) : State :=
  let st := s.get (F.LK_PAIR_STATUS_STATE p)
  if 1 ≤ st && st ≤ 3 then s.leavePair p cause 1 else s

/-- Every engaged in-line pair latched in bypass. -/
def State.latchAll (s : State) (cause : Nat) : State := (List.range 12).foldl (fun s p => s.latchBypass p cause) s

/-! ## Relief valves (R402) -/

/-- The bypass moves of a tripped valve, for a trip that concerns link `n`. -/
def State.valveBypass (s : State) (valve n : Nat) : State :=
  let on := bit (s.get F.RV_TRIP_BYPASS) valve
  let own := if n < 24 then s.latchBypass (n / 2) 3 else s
  if valve == 0 || valve == 1 then own
  else if valve == 4 || valve == 5 then (if on then s.latchAll 3 else s)
  else if valve == 6 then s
  else if on then own else s

/-- The VALVE_TRIP payload (R90). -/
def tripPayload (valve n detail : Nat) : List Byte := payload 16 [(0, 1, valve), (1, 1, n), (8, 8, detail)]

/-- Raises an event; a refused record trips valve 4, whose own VALVE_TRIP is then counted lost (R86). -/
def State.raise (s : State) (code : Nat) (pl : List Byte) (cont : List (List Byte) := []) : State :=
  match s.raiseCore code pl cont with
  | (s1, none) => s1
  | (s1, some a) => ((s1.valveBypass 4 0).raiseCore 0x0801 (tripPayload 4 0 a) []).1

/-- A valve trips: its bypass moves and its VALVE_TRIP. -/
def State.trip (s : State) (valve n detail : Nat) : State :=
  (s.valveBypass valve n).raise 0x0801 (tripPayload valve n detail)

/-- RING_ERROR (R90). -/
def State.ringError (s : State) (q kind : Nat) : State := s.raise 0x0202 (payload 16 [(0, 1, q), (1, 1, kind)])

end Sys2Proof.Machine
end

