-- ==== Sys2Proof/Machine/Queues.lean ====
section
/-! DEFINITION. The command queues (R64-R80), floats (R81-R83), the budget and its accounting (R31-R44), and the passing of time. -/

namespace Sys2Proof.Machine

/-! ## Status codes (R89) and the command header (R70) -/

abbrev Status.ok : Nat := 0x00
abbrev Status.overrun : Nat := 0x01
abbrev Status.skipped : Nat := 0x02
abbrev Status.aborted : Nat := 0x03
abbrev Status.poison : Nat := 0x04
abbrev Status.unitFault : Nat := 0x05
abbrev Status.scaleSkew : Nat := 0x06
abbrev Status.dmaFault : Nat := 0x07
abbrev Status.hostError : Nat := 0x08
abbrev Status.badCommand : Nat := 0x09
abbrev Status.badDescriptor : Nat := 0x0A
abbrev Status.modelTooLarge : Nat := 0x0B
abbrev Status.imageInvalid : Nat := 0x0C
abbrev Status.digestMismatch : Nat := 0x0D
abbrev Status.primeBusy : Nat := 0x0E
abbrev Status.signatureInvalid : Nat := 0x0F
abbrev Status.strokePassed : Nat := 0x10
abbrev Status.tableFull : Nat := 0x11
abbrev Status.notFound : Nat := 0x12
abbrev Status.unreachable : Nat := 0x13

def cmdOp (c : List Byte) : Nat := byteAt c 0
def cmdEngine (c : List Byte) : Nat := bits (fieldAt c 0 4) 8 3
def cmdNotify (c : List Byte) : Bool := bit (fieldAt c 0 4) 11
def cmdQual (c : List Byte) : Bool := bit (fieldAt c 0 4) 12
def cmdSignal (c : List Byte) : Bool := bit (fieldAt c 0 4) 13
def cmdAlways (c : List Byte) : Bool := bit (fieldAt c 0 4) 14
def cmdExt (c : List Byte) : Nat := bits (fieldAt c 0 4) 15 3
def cmdReserved (c : List Byte) : Nat := bits (fieldAt c 0 4) 18 14
def cmdSigFloat (c : List Byte) : Nat := bits (fieldAt c 4 4) 0 17
def cmdSigAdd (c : List Byte) : Nat := bits (fieldAt c 4 4) 17 15
def cmdNotBefore (c : List Byte) : Nat := fieldAt c 8 8

/-- The float and the value of a WAIT (R74). -/
def waitFloat (c : List Byte) : Nat := fieldAt c 16 4
def waitValue (c : List Byte) : Nat := fieldAt c 24 8

/-- The bytes of a fetched command; none of a refused fetch. -/
def Fetched.bytes : Fetched → List Byte
  | .cmd b => b
  | .cut b => b
  | .refused _ _ _ => []

/-! ## Queues and their rings -/

/-- A queue beyond its registers. -/
def State.q (s : State) (i : Nat) : Queue := sget {} s.host.queues i

/-- The state with a queue passed through `f`. -/
def State.modQ (s : State) (i : Nat) (f : Queue → Queue) : State :=
  { s with host := { s.host with queues := smod {} s.host.queues i f } }

/-! ## Floats (R81-R83) -/

/-- A float's value. -/
def State.float (s : State) (f : Nat) : BitVec 64 := sget 0 s.host.floats f

/-- A queue that waits for a float sees the float's new value: a WAIT that it satisfies is over, whatever comes later (R83). -/
def Queue.sees (Q : Queue) (f v : Nat) : Queue :=
  match Q.cur, Q.cmds with
  | some r, .cmd c :: _ =>
    if r.waiting && cmdOp c == 1 && waitFloat c == f && waitValue c ≤ v then { Q with cur := some { r with met := true } } else Q
  | _, _ => Q

/-- A float updated: every WAIT on it is evaluated against the new value (R83). -/
def State.setFloat (s : State) (f : Nat) (v : BitVec 64) : State :=
  { s with host := { s.host with
      floats := sset 0 s.host.floats f v
      queues := s.host.queues.map fun (q, Q) => (q, Q.sees f v.toNat) } }

/-- What the floats have taken in this core cycle. -/
def State.floatsNow (s : State) : FloatNow :=
  if s.host.floatNow.real = s.clk.real then s.host.floatNow else { real := s.clk.real }

/-- What the floats have taken in this core cycle, as it stands after one more update. -/
def State.noteFloats (s : State) (n : FloatNow) : State := { s with host := { s.host with floatNow := n } }

/-- An addition to a float, modulo 2^64. -/
def State.addFloat (s : State) (f : Nat) (v : Nat) : State :=
  let n := s.floatsNow
  (s.setFloat f (s.float f + BitVec.ofNat 64 v)).noteFloats
    { n with adds := sset 0 n.adds f (sget 0 n.adds f + BitVec.ofNat 64 v) }

/-- A float set by host software or by a SET command (R81): what the same core cycle adds to it is added to the value set, and
the value of a host write stands over that of a SET. -/
def State.assignFloat (s : State) (host : Bool) (f : Nat) (v : BitVec 64) : State :=
  let n := s.floatsNow
  if !host && n.hostSet.contains f then s
  else (s.setFloat f (v + sget 0 n.adds f)).noteFloats { n with hostSet := if host then f :: n.hostSet else n.hostSet }

/-- A float's tick increment lies in FLT_TICKn (R82). -/
def tickFld (f : Nat) : Fld := if f % 2 = 0 then F.FLT_TICK_TICK_EVEN (f / 2) else F.FLT_TICK_TICK_ODD (f / 2)

/-- Step 5 of the boundary: every float with a non-zero increment adds it (R82). -/
def State.tickFloats (s : State) : State :=
  s.regs.foldl (fun t e =>
    if 0x40000 ≤ e.1 && e.1 < 0x80000 then
      let n := (e.1 - 0x40000) / 4
      (t.addFloat (2 * n) (e.2.toNat % 65536)).addFloat (2 * n + 1) (e.2.toNat / 65536)
    else t) s

/-! ## Rings, budgets and units -/

def State.sqSize (s : State) (q : Nat) : Nat := 2 ^ s.get (F.HIF_QCTRL_SQ_LOG2 q)
def State.cqSize (s : State) (q : Nat) : Nat := 2 ^ s.get (F.HIF_QCTRL_CQ_LOG2 q)

/-- Descriptors pending (R66). -/
def State.sqPending (s : State) (q : Nat) : Nat :=
  let n := s.sqSize q
  ((s.q q).sqTail + n - s.get (F.HIF_QSQHEAD_INDEX q) % n) % n

/-- Free completion slots (R65, R67). -/
def State.cqFree (s : State) (q : Nat) : Nat :=
  let n := s.cqSize q
  n - 1 - (s.get (F.HIF_QCQTAIL_INDEX q) + n - (s.q q).cqHead % n) % n

/-- A queue may fetch and start: READY (R416), enabled, not stopped or stopping, not halted (R80, R86). -/
def State.qRuns (s : State) (q : Nat) : Bool :=
  s.live && s.on (F.HIF_QCTRL_ENABLE q) && !s.on (F.HIF_QCTRL_STOP q) && !(s.q q).stopping
    && !s.on (F.HIF_QSTATUS_HALTED q) && !s.on (F.HIF_QSTATUS_DMA_HALT q)

/-- The budget still allows a command to start (R26, R33, R34). -/
def State.budgetOk (s : State) (q : Nat) : Bool :=
  let b := s.getF (F.STK_BUDGET_BUDGET q)
  !s.clk.strokes || b == 0xFFFFFFFF || (s.q q).spent < b

/-- Whether a queue is on rung 4 (R33, R34, R26). -/
def State.rung4 (s : State) (q : Nat) : Bool := s.clk.strokes && s.onF (F.STK_QPOL_POLICY q) && s.budgetOk q

/-- The order of R40 as one number, lower first: rung, priority, queue. -/
def State.orderKey (s : State) (q : Nat) : Nat :=
  (if s.rung4 q then 0 else 8 * 80) + s.getF (F.STK_QPOL_PRIO q) * 80 + q

/-- A command's own stroke qualifier lets it start at stroke `now` (R26, R39). -/
def qualOk (strokes : Bool) (now : Nat) (c : List Byte) : Bool :=
  !cmdQual c || (strokes && cmdNotBefore c ≤ now)

/-- The queue's next command could start but for a unit or the order between queues (R33, R39, R67). -/
def State.headReady (s : State) (q : Nat) : Bool :=
  let Q := s.q q
  s.qRuns q && Q.active && Q.cur.isNone && s.budgetOk q && 0 < s.cqFree q && Q.recs.isEmpty
    && match Q.cmds with
      | [] => false
      | c :: _ => qualOk s.clk.strokes s.clk.now c.bytes

/-- The queue whose command holds the unit that TRB, PMP and TBL each share (R31, log 5). -/
def State.unitHolder (s : State) (e : Nat) : Option Nat :=
  (s.host.queues.find? fun (j, Q) => j / 16 == e && Q.cur.isSome &&
    match Q.cmds with
    | c :: _ => 0x10 ≤ cmdOp c.bytes
    | [] => false).map (·.1)

/-- The queue's head command needs a shared unit. -/
def State.needsUnit (s : State) (q : Nat) : Bool :=
  2 ≤ q / 16 && match (s.q q).cmds with
    | .cmd c :: _ => 0x10 ≤ cmdOp c
    | _ => false

/-- The shared unit is free for this queue, and no ready queue of the same engine comes before it (R40). -/
def State.unitFree (s : State) (q : Nat) : Bool :=
  !s.needsUnit q || ((s.unitHolder (q / 16)).isNone &&
    s.host.queues.all fun (j, _) => j == q || j / 16 != q / 16 || !s.headReady j || !s.needsUnit j
      || s.orderKey q < s.orderKey j)

/-! ## The passing of time (R18, R20, R25, R32) -/

/-- Clock fraction of the array and the vector units in eighths: the clamp's, or one half inside a brownout window, whichever
is lower (R45, R420). -/
def State.rate8 (s : State) : Nat :=
  let f := s.get F.PWR_STATUS_ARRAY_FRACTION
  if s.on F.PWR_STATUS_HALVED then min 4 f else f

/-- The opcode of a queue's first command. -/
def Queue.op (Q : Queue) : Nat := match Q.cmds with
  | c :: _ => cmdOp c.bytes
  | [] => 0

/-- Whether the work of a queue's first command goes at that clock: that of the MAT and VEC engines' own commands, but for MOVE,
whose rate R235 gives in core cycles (R8, R45, R237). The common commands take core cycles (R32). -/
def arrayClocked (q : Nat) (Q : Queue) : Bool :=
  0x10 ≤ Q.op && (q / 16 == 1 || (q / 16 == 0 && Q.op != 0x13))

/-- Of `n` cycles, those that a queue's running command is charged: NOP, WAIT, SET and ARM exactly 1 in all (R32). -/
def Queue.chargedOf (Q : Queue) (r : Run) (n : Nat) : Nat := if Q.op < 4 then min n (1 - r.charged) else n

/-- Of `n` cycles from now on, those that queue `j` is on rung 4 while its command runs (R33, R34). -/
def State.rung4Cycles (s : State) (j n : Nat) : Nat :=
  let b := s.getF (F.STK_BUDGET_BUDGET j)
  if !s.rung4 j then 0 else if b = 0xFFFFFFFF then n else min n (b - (s.q j).spent)

/-- Queue `j` comes before queue `q` in the order of R40: priority, then number. -/
def State.higher (s : State) (j q : Nat) : Bool :=
  s.getF (F.STK_QPOL_PRIO j) * 80 + j < s.getF (F.STK_QPOL_PRIO q) * 80 + q

/-- A queue's running command gives `n` core cycles from cycle `c` on to link `key % 64`, on rung `key / 64`; a cycle that
several passes take is lost once (R41-R43). -/
def Queue.giveWay (key c n : Nat) (Q : Queue) : Queue :=
  match Q.cur with
  | none => Q
  | some r =>
    let k := c + n - max c r.yieldTo
    { Q with cur := some { r with yielded := r.yielded + k, yieldTo := max (c + n) r.yieldTo }
             lostLinks := smod 0 Q.lostLinks key (· + k) }

/-- Engine commands that `uses` picks by their queue and words give way to a link of the packet path (R40, R41, R44). -/
def State.giveWay (s : State) (uses : Nat → List Byte → Bool) (key c n : Nat) : State :=
  { s with host := { s.host with queues := s.host.queues.map fun (q, Q) =>
    (q, match Q.cmds with
      | .cmd b :: _ => if 0x10 ≤ cmdOp b && uses q b then Q.giveWay key c n else Q
      | _ => Q) } }

/-- What `n` cycles charge to a queue and take from it (R32, R42, R43). -/
def State.accrueQ (s : State) (n q : Nat) (Q : Queue) : Queue :=
  match Q.cur with
  | some r =>
    if r.waiting then Q
    else
      let n := Q.chargedOf r n
      let lost := if arrayClocked q Q then n * (8 - s.rate8) else 0
      let half := s.on F.PWR_STATUS_HALVED && 4 < s.get F.PWR_STATUS_ARRAY_FRACTION
      { Q with
        cur := some { r with charged := r.charged + n, work8 := r.work8 + 8 * n - lost }
        spent := Q.spent + n
        lostClamp := if half then Q.lostClamp else Q.lostClamp + lost
        lostHalf := if half then Q.lostHalf + lost else Q.lostHalf }
  | none =>
    if s.headReady q && s.needsUnit q then
      match s.unitHolder (q / 16) with
      | some j => if s.higher j q then { Q with lostTo := smod 0 Q.lostTo j (· + s.rung4Cycles j n) } else Q
      | none => Q
    else Q

/-- Ticks of `n` core cycles, and the part of a tick carried (R419). -/
def State.ticksOf (s : State) (n : Nat) : Nat × Nat :=
  let t := n * s.clk.den + s.clk.frac
  (t / s.clk.num, t % s.clk.num)

/-- Ticks the servo slews in while `t` ticks pass: at most 100 ppm of them, how many is left open (R20, log 10). -/
def State.slewIn (s : State) (t : Nat) : Nat :=
  min s.clk.slew.natAbs (Config.free s.fresh % ((s.clk.slewAcc + t) / 10000 + 1))

/-- Whether `n` core cycles can pass before the next boundary is due, whatever the servo does. -/
def State.canElapse (s : State) (n : Nat) : Bool :=
  match s.nextEdge with
  | none => true
  | some e => s.clk.time + (s.ticksOf n).1 + (if s.clk.slew = 0 then 0 else (s.clk.slewAcc + (s.ticksOf n).1) / 10000) ≤ e

/-- `n` core cycles pass: the count, the timebase, every queue's charge. -/
def State.elapse (s : State) (n : Nat) : State :=
  let (t, fr) := s.ticksOf n
  let c := if s.clk.slew = 0 then 0 else s.slewIn t
  let up := 0 < s.clk.slew
  let f := s.get F.PWR_STATUS_ARRAY_FRACTION
  { s with
    fresh := if s.clk.slew = 0 then s.fresh else s.fresh + 1
    host := { s.host with queues := s.host.queues.map fun (q, Q) => (q, s.accrueQ n q Q) }
    clk := { s.clk with
      cycle := s.clk.cycle + n
      real := s.clk.real + t
      time := if up then s.clk.time + t + c else s.clk.time + t - c
      slew := if up then s.clk.slew - c else s.clk.slew + c
      slewAcc := if s.clk.slew = 0 then 0 else (s.clk.slewAcc + t) % 10000
      frac := fr
      below := if f < 8 then s.clk.below + n else s.clk.below
      lowest := min s.clk.lowest f } }

/-- Time passes to timebase count `e`, if that lies ahead. -/
def State.elapseTo (s : State) (e : Nat) : State :=
  let d := e - s.clk.time
  let c := if s.clk.slew = 0 then 0 else s.slewIn d
  let n := ceilDiv ((if 0 < s.clk.slew then d - c else d + c) * s.clk.num) s.clk.den
  let s1 := s.elapse n
  { s1 with clk := { s1.clk with time := max e s.clk.time, frac := 0 } }

/-- A step at core cycle `due`: time passes up to it if it lies ahead; none where a boundary comes first (log 1). -/
def State.reach (s : State) (due : Nat) : Option State :=
  if due ≤ s.clk.cycle then some s
  else if s.canElapse (due - s.clk.cycle) then some (s.elapse (due - s.clk.cycle)) else none

/-- A step at running time `due`, in ticks; none where a boundary comes first (log 1). -/
def State.reachReal (s : State) (due : Nat) : Option State :=
  if due ≤ s.clk.real then some s
  else
    let n := ceilDiv ((due - s.clk.real) * s.clk.num) s.clk.den
    if s.canElapse n then some (s.elapse n) else none

/-! ## Stationary blocks (R238) -/

/-- The stationary block of a tile set, with its ST_VALID bit (R238). -/
def State.setBlock (s : State) (l : Nat) (b : Option StBlock) : State :=
  ({ s with matrix := { s.matrix with blocks := sset none s.matrix.blocks l b } }).putB
    ⟨R.MX_PART_STATUS (l / 4), 4 + l % 4, 1⟩ b.isSome

/-- The tiles of its partition that a MATMUL, CONV or MOVE names (R233, R235). -/
def namedTiles (c : List Byte) : List Nat :=
  (List.range 4).filter fun i => bit (byteAt c (if cmdOp c = 0x13 then 38 else 54)) i

/-- A tile without a valid block; its cells and its accumulator file are left open. -/
def State.dropTile (s : State) (l : Nat) : State :=
  let t := s.setBlock l none
  { t with matrix := { t.matrix with cells := sset {} t.matrix.cells l { sr := .unspecified, sh := .unspecified, acc := none } } }

/-- A MAT command that ends with OVERRUN, ABORTED, POISON or UNIT_FAULT, started or not, leaves no tile it names a valid block.
DEDUCED (log 38): a command SKIPPED or refused with BAD_COMMAND has done nothing and leaves them. -/
def State.dropBlocks (s : State) (q status : Nat) (c : List Byte) : State :=
  if q < 16 && 0x11 ≤ cmdOp c && cmdOp c ≤ 0x13 && (status == 1 || (3 ≤ status && status ≤ 5)) then
    (namedTiles c).foldl (fun t i => State.dropTile t (4 * q + i)) s
  else s

/-! ## Model banks (R297, R300, R303) -/

def State.model (s : State) (b : Nat) : ModelBank := if b = 0 then s.models.bank0 else s.models.bank1

def State.setModel (s : State) (b : Nat) (m : ModelBank) : State :=
  { s with models := if b = 0 then { s.models with bank0 := m } else { s.models with bank1 := m } }

/-- A bank EMPTY again, its configuration kept. -/
def ModelBank.emptied (k : ModelBank) : ModelBank :=
  { quota := k.quota, mask := k.mask, aqBase := k.aqBase, aqSize := k.aqSize, amLimit := k.amLimit }

/-- PRIME finds its bank EMPTY in step 2: it is LOADING. DESIGN CHOICE (log 17): steps 3 to 5, whose time the spec does not give,
take the tiles in service at the command's start, and the mapping is fixed by them. -/
def State.beginPrime (s : State) (b : Nat) (tiles : List (Option Nat)) : State :=
  let k := s.model b
  if k.st = .empty then s.setModel b { k with st := .loading, tiles := tiles } else s

/-- A PRIME that ends before step 9 leaves its bank EMPTY, however it ends. -/
def State.endPrime (s : State) (q : Nat) (c : List Byte) : State :=
  let b := byteAt c 25
  if q / 16 = 4 && cmdOp c = 0x61 && (s.q q).cur.isSome && (s.model b).st = .loading then s.setModel b (s.model b).emptied else s

/-! ## Completion (R72, R73, R78, R79) -/

/-- A completion ring's interrupt condition after a record with IRQ (R84). DESIGN CHOICE (log 32): a record counts while IRQ_EN
is 0 too, and the condition is looked at when a record is written and at the holdoff's end, not when IRQ_EN or COUNT is
written. -/
def State.cqIrq (s : State) (q : Nat) : State :=
  let Q := s.q q
  let since := if Q.irqCount = 0 then s.clk.cycle else Q.irqSince
  if s.on (F.HIF_QCTRL_IRQ_EN q) && max 1 (s.get (F.HIF_QIRQ_COUNT q)) ≤ Q.irqCount + 1 then
    (s.modQ q fun Q => { Q with irqCount := 0, irqSince := since }).fire (s.get (F.HIF_QCTRL_VECTOR q))
  else s.modQ q fun Q => { Q with irqCount := Q.irqCount + 1, irqSince := since }

/-- The float signal of a command that ended with a status (R73). -/
def State.signal (s : State) (c : List Byte) (status : Nat) : State :=
  let ok := status == Status.ok || (cmdAlways c && 4 ≤ status)
  if cmdSignal c && ok then s.addFloat (cmdSigFloat c) (cmdSigAdd c) else s

/-- A record for `count` commands of the queue's list from index `first` on, joined to its waiting records. -/
def State.addRec (s : State) (q status first count cycles : Nat) (notify last : Bool) : State :=
  let irq := notify || status != 0 || (last && (s.q q).notify)
  let s1 := s.modQ q fun Q => { Q with recs := Q.recs ++
    [⟨Q.slot, status, first, count, min cycles 0xFFFFFFFF, s.nowReg % 2 ^ 32, last, irq, s.clk.cycle⟩] }
  if status = 0 then s1
  else (s1.put (F.HIF_QLAST_STATUS q) status).put (F.HIF_QLAST_CMD_INDEX q) (first + count - 1)

/-- The queue's list is over: it moves to its next descriptor. -/
def State.endList (s : State) (q : Nat) : State :=
  s.modQ q fun Q => { Q with active := false, cmds := [], cur := none, idx := 0 }

/-- The commands left in the list complete with one status, in one record with LAST set. -/
def State.restOfList (s : State) (q status : Nat) : State :=
  let Q := s.q q
  if Q.cmds.isEmpty then s.endList q
  else (Q.cmds.foldl (fun t f => State.dropBlocks t q status f.bytes)
    (s.addRec q status Q.idx Q.cmds.length 0 false true)).endList q

/-- HALTED follows the last record of a stop (R80). -/
def State.haltCheck (s : State) (q : Nat) : State :=
  let Q := s.q q
  if Q.stopping && Q.recs.isEmpty && Q.cur.isNone then
    let s1 := s.modQ q fun Q => { Q with stopping := false, rearmed := false }
    if Q.rearmed then s1 else s1.putB (F.HIF_QSTATUS_HALTED q) true
  else s

/-- The queue's head command ends with a status and a charge (R72, R73, R79): its signal, its record where one is due, the
rest of its list where its status or a stop ends the list. -/
def State.complete (s : State) (q status cycles : Nat) : State :=
  let Q := s.q q
  match Q.cmds with
  | [] => s
  | c :: rest =>
    let last := rest.isEmpty
    let s1 := ((s.signal c.bytes status).dropBlocks q status c.bytes).endPrime q c.bytes
    let s2 := if cmdNotify c.bytes || status != 0 || last
      then s1.addRec q status Q.idx 1 cycles (cmdNotify c.bytes) last else s1
    let s3 := s2.modQ q fun Q => { Q with cmds := rest, idx := Q.idx + 1, cur := none }
    if last then (s3.endList q).haltCheck q
    else if Q.stopping then (s3.restOfList q Status.aborted).haltCheck q
    else if 4 ≤ status then s3.restOfList q Status.skipped
    else s3

/-- A stop of the queue (R80): a running command goes on, anything else of the list is aborted. -/
def State.stopQueue (s : State) (q : Nat) : State :=
  let s1 := s.modQ q fun Q => { Q with stopping := true, rearmed := false }
  match (s.q q).cur with
  | some r => if r.waiting then (s1.restOfList q Status.aborted).haltCheck q else s1
  | none => (s1.restOfList q Status.aborted).haltCheck q

/-- The queue's running command, if it is a plain command with this opcode. -/
def State.running (s : State) (q op : Nat) : Option (List Byte × Run) :=
  match (s.q q).cur, (s.q q).cmds with
  | some r, .cmd c :: _ => if cmdOp c = op then some (c, r) else none
  | _, _ => none

/-- A WAIT is over: its float had reached its value when it started, or has since, or holds it now (R83). -/
def State.waitOver (s : State) (c : List Byte) (r : Run) : Bool :=
  !r.waiting || r.met || waitValue c ≤ (s.float (waitFloat c)).toNat

/-- Core cycles a running command of queue `q` still needs for `n` cycles of work at full clock (R45). -/
def State.cyclesLeft (s : State) (q n : Nat) (r : Run) : Nat :=
  max 1 (ceilDiv (8 * (n + r.yielded) - r.work8) (max 1 (if arrayClocked q (s.q q) then s.rate8 else 8)))

/-- The ranges of host memory that a command of queue `q` reads and writes: write, address, length (R85, R86). -/
def hostRanges (q : Nat) (c : List Byte) : List (Bool × Nat × Nat) :=
  let op := cmdOp c
  let at16 (w : Bool) (n : Nat) := if byteAt c 24 = 0 then [(w, fieldAt c 16 8, n)] else []
  let answer (o n : Nat) := if fieldAt c o 8 = 0 then [] else [(true, fieldAt c o 8, n)]
  if op < 0x10 then (if op = 4 then [(true, fieldAt c 16 8, 16)] else [])
  else if q / 16 = 2 then (if byteAt c 52 = 0 then [(true, fieldAt c 32 8, 16 * fieldAt c 44 4)] else [])
  else if q / 16 = 3 then
    (if op != 0x10 then []
     else (if byteAt c 36 = 0 then [(false, fieldAt c 16 8, fieldAt c 32 4)] else [])
       ++ if byteAt c 37 = 0 then [(true, fieldAt c 24 8, fieldAt c 32 4)] else [])
  else if q / 16 != 4 then []
  else match op with
  | 0x20 => answer 24 8
  | 0x22 => [(true, fieldAt c 24 8, 128 * fieldAt c 20 4)]
  | 0x26 => [(true, fieldAt c 24 8, 32 * fieldAt c 20 4)]
  | 0x30 | 0x31 => at16 false (fieldAt c 28 4)
  | 0x40 => at16 false (32 * (fieldAt c 30 2 + 1))
  | 0x41 => at16 true (64 * (fieldAt c 30 2 + 1))
  | 0x51 => at16 false 2048
  | 0x54 => [(true, fieldAt c 24 8, 64 * (byteAt c 17 + 1))]
  | 0x61 => at16 false (fieldAt c 32 8) ++ answer 40 1280
  | 0x62 => answer 40 1280
  | 0x64 => answer 24 1280
  | 0x65 => [(true, fieldAt c 24 8, 1280)]
  | 0x70 => at16 false (2 * (fieldAt c 30 2 + 1))
  | 0x71 => at16 true (2 * (fieldAt c 30 2 + 1))
  | _ => []

/-- Whether a command of queue `q` reads host memory: COPY, and the table commands that load from a space (R75, R86). -/
def hostReads (q : Nat) (c : List Byte) : Bool :=
  (q / 16 == 3 && cmdOp c == 0x10 && byteAt c 36 == 0)
  || (q / 16 == 4 && [0x30, 0x31, 0x40, 0x51, 0x61, 0x70].contains (cmdOp c) && byteAt c 24 == 0)

end Sys2Proof.Machine
end

