-- ==== Sys2Proof/Machine/MemOps.lean ====
section
/-! DEFINITION. Reads and writes of the Cistern, the Aquifer and the tile buffers through their codes: correction, poison,
remap, retirement, injection (R312-R339, R470). -/

namespace Sys2Proof.Machine

/-! ## The memories of the state -/

def State.coded (s : State) : MemId → CodedMem
  | .cis => s.mems.cis
  | .aq => s.mems.aq
  | .buf t => sget {} s.mems.bufs t

def State.setCoded (s : State) (m : MemId) (c : CodedMem) : State :=
  match m with
  | .cis => { s with mems := { s.mems with cis := c } }
  | .aq => { s with mems := { s.mems with aq := c } }
  | .buf t => { s with mems := { s.mems with bufs := sset {} s.mems.bufs t c } }

/-- The page of a word. -/
def pageOf (m : MemId) (w : Nat) : Nat := w / m.pageWords

/-- Bay and bank within the bay of a Cistern word (R312). -/
def bayOf (w : Nat) : Nat := w / 2 ^ 24
def bankOf (w : Nat) : Nat := w / 2 ^ 8 % 128

/-- Global bank number of a Cistern word, and its index within the bank (R312). -/
def globalBank (w : Nat) : Nat := 128 * bayOf w + bankOf w
def bankWord (w : Nat) : Nat := 256 * (w / 2 ^ 15 % 512) + w % 256

/-- Channel and channel-local page of an Aquifer word (R331). -/
def channelOf (w : Nat) : Nat := w / 64 % 48
def localPage (w : Nat) : Nat := w / 64 / 48

/-- Address of a word of the Wellhead table space (R315). -/
def tableAddr (o : Nat) : Nat :=
  let p := o / 4096
  0xA0000000 + 0x10000000 * (p % 6) + 4096 * (p / 6) + o % 4096

/-- Bytes 0-11 and 12 of a memory event's payload (R90). -/
def memPayload (m : MemId) (w last : Nat) : List Byte :=
  match m with
  | .aq => payload 16 [(0, 1, 1), (1, 1, channelOf w), (2, 2, localPage w), (4, 8, 32 * w), (12, 1, last)]
  | _ => payload 16 [(1, 1, bayOf w), (2, 2, bankOf w), (4, 8, 16 * w), (12, 1, last)]

/-- A bank beyond its registers. -/
def State.bank (s : State) (b : Nat) : BankRt := sget {} s.mems.banks b

def State.modBank (s : State) (b : Nat) (f : BankRt → BankRt) : State :=
  { s with mems := { s.mems with banks := smod {} s.mems.banks b f } }

/-- Spare banks left in a bay (CI_SPARE_LO, CI_SPARE_HI). -/
def spareFld (bay : Nat) : Fld := ⟨if bay < 8 then R.CI_SPARE_LO else R.CI_SPARE_HI, 4 * (bay % 8), 3⟩

/-- The channel of an Aquifer word is retired (R334). -/
def State.chanRetired (s : State) (m : MemId) (w : Nat) : Bool :=
  m == .aq && s.on (F.AQ_CHAN_RETIRED (channelOf w))

/-! ## Fault injection (R470) -/

/-- The injection registers name this word. -/
def State.injectHits (s : State) (m : MemId) (w : Nat) : Bool :=
  match m with
  | .cis => s.raw R.CI_INJECT_ADDR == w
  | .aq => (s.raw R.AQ_INJECT_ADDR_LO + 2 ^ 32 * s.raw R.AQ_INJECT_ADDR_HI) / 32 == w
  | .buf _ => false

def injMode : MemId → Fld
  | .aq => F.AQ_INJECT_CTRL_MODE
  | _ => F.CI_INJECT_CTRL_MODE

def injPersist : MemId → Fld
  | .aq => F.AQ_INJECT_CTRL_PERSIST
  | _ => F.CI_INJECT_CTRL_PERSIST

/-- The flips of modes 1 and 2: d0, or d0 and d9. -/
def injMask (mode : Nat) : Nat := if mode = 1 then 1 else if mode = 2 then 1 + 2 ^ 9 else 0

/-- Stored bits that every write of the word gets wrong: stuck cells, and a persistent injection. -/
def State.stuckMask (s : State) (m : MemId) (w : Nat) : Nat :=
  let hard := sget 0 (s.coded m).stuck w
  if s.injectHits m w && s.on (injPersist m) && s.get (injMode m) ≤ 2 then hard ^^^ injMask (s.get (injMode m)) else hard


/-! ## Words as stored -/

/-- The number a word's data stands for in the page code. -/
def CodedMem.word (c : CodedMem) (m : MemId) (w : Nat) : Nat :=
  bytesNat (Memory.read c.data (w * m.wordBytes) m.wordBytes)

/-- A word stored with fresh codes: the page code sees `data`, the word's stored bits differ from it by `mask`. -/
def CodedMem.store (c : CodedMem) (m : MemId) (w d mask : Nat) : CodedMem :=
  { c with data := Memory.write c.data (w * m.wordBytes) (natBytes m.wordBytes d)
           errs := sset 0 c.errs w mask, poison := sset false c.poison w false }

/-- A word stored as the poison pattern: data 0 (R319), but for the bits `mask` that the write gets wrong (R470). -/
def CodedMem.storePoison (c : CodedMem) (m : MemId) (w mask : Nat) : CodedMem :=
  { c with data := Memory.write c.data (w * m.wordBytes) (zeros m.wordBytes)
           errs := sset 0 c.errs w mask, poison := sset false c.poison w true }

/-- What a read of a word finds now. -/
def CodedMem.outcome (c : CodedMem) (m : MemId) (w : Nat) : WordOut :=
  wordOutFrom (if sget false c.poison w then m.poisonSyn else 0) m (sget 0 c.errs w)

/-- The data bits in which a read delivers a word otherwise than the page code has it. -/
def CodedMem.wrong (c : CodedMem) (m : MemId) (w : Nat) : Nat := errOf m (c.outcome m w) (sget 0 c.errs w)

/-- The data a read that does not fail delivers. -/
def CodedMem.value (c : CodedMem) (m : MemId) (w : Nat) : Nat := c.word m w ^^^ c.wrong m w

/-- The words that `p` picks, in other cells: a copy through their codes writes them with fresh codes over the data read, and leaves
stuck cells behind (R337-R339). -/
def CodedMem.moved (c : CodedMem) (m : MemId) (p : Nat → Bool) : CodedMem :=
  { c with
    stuck := c.stuck.filter fun e => !p e.1
    errs := c.errs.foldl (fun out e =>
      sset 0 out e.1 (if !p e.1 then e.2 else if sget false c.poison e.1 then 0 else silentMask m (c.wrong m e.1))) [] }

/-! ## The page code as stored (R321, R322, R332) -/

/-- The wrong bits, as read, of symbol r_k of column `j`; in the Cistern two columns share a code word. -/
def codeSymbol (c : CodedMem) (m : MemId) (page j k : Nat) : Nat :=
  match m with
  | .aq => bits (sget 0 c.codeErrs page) (64 * j + 16 * k) 16
  | _ => bits (deliveredErr .cis (sget 0 c.codeErrs (4 * page + j / 2))) (64 * (j % 2) + 16 * k) 16

/-- The word code cannot read the code word that holds column `j`; no code word is ever poisoned. -/
def codeLost (c : CodedMem) (m : MemId) (page j : Nat) : Bool :=
  m != .aq && match wordOut .cis (sget 0 c.codeErrs (4 * page + j / 2)) with
    | .bad => true
    | .poison => true
    | _ => false

/-- Column `j` of a page: the symbols that its code stands for, word 0 first (R321, R322). -/
def pageColumn (c : CodedMem) (m : MemId) (page j : Nat) : List Nat :=
  (List.range m.pageWords).map fun i => bits (c.word m (page * m.pageWords + i)) (16 * j) 16

/-- The check symbols r_0 to r_3 of column `j` as they are read. -/
def pageCode (c : CodedMem) (m : MemId) (page j : Nat) : List Nat :=
  List.zipWith (· ^^^ ·) (rsCheck (pageColumn c m page j)) ((List.range 4).map (codeSymbol c m page j))

/-- The wrong bits of the symbols of column `j`, as read. -/
def columnWrong (c : CodedMem) (m : MemId) (page j : Nat) : List Nat :=
  (List.range m.pageWords).map fun i => bits (c.wrong m (page * m.pageWords + i)) (16 * j) 16

/-- Column `j`'s code, recomputed from the page as read, disagrees with the code as read (R336). The code is linear: what is wrong
of the one is compared with what is wrong of the other. -/
def columnBad (c : CodedMem) (m : MemId) (page j : Nat) : Bool :=
  let col := columnWrong c m page j
  (if col.all (· == 0) then [0, 0, 0, 0] else rsCheck col)
    != (List.range 4).map (codeSymbol c m page j)

/-- The words of a page that fail their word code. -/
def failedWords (c : CodedMem) (m : MemId) (page : Nat) : List Nat :=
  ((List.range m.pageWords).map fun i => page * m.pageWords + i).filter fun w => c.outcome m w == .bad

/-- Symbol errors e of column `j`, in words that pass their word code (R325). -/
def columnErrors (c : CodedMem) (m : MemId) (page j : Nat) : Nat :=
  countIf (· != 0) (columnWrong c m page j)
    + if codeLost c m page j then 0 else countIf (fun k => codeSymbol c m page j k != 0) (List.range 4)

/-- Whether the page code recovers every failed word: 2e + f ≤ 4 in every column, a failed code word erasing the four check symbols
of each column it holds (R322, R325). -/
def pageRecovers (c : CodedMem) (m : MemId) (page : Nat) : Bool :=
  let f := (failedWords c m page).length
  (List.range m.columns).all fun j => 2 * columnErrors c m page j + f + (if codeLost c m page j then 4 else 0) ≤ 4

/-! ## Correction (R324-R326) -/

/-- Counts of a memory; tile buffers count nothing (R320). -/
def State.bumpMem (s : State) (m : MemId) (c a : Fld) : State :=
  match m with
  | .cis => s.bump c
  | .aq => s.bump a
  | .buf _ => s

/-- A corrected single error written back with fresh codes, counted, and told where CE_EVENTS asks for it (R324). -/
def State.writeBack (s : State) (m : MemId) (w : Nat) : State :=
  let c := s.coded m
  let s1 := (s.setCoded m (c.store m w (c.word m w) (silentMask m (c.wrong m w) ^^^ s.stuckMask m w))).bumpMem
    m F.CI_CE_WORD F.AQ_CE_WORD
  let ev := match m with
    | .cis => s.on F.CI_CTRL_CE_EVENTS
    | .aq => s.on F.AQ_CTRL_CE_EVENTS
    | .buf _ => false
  if ev then s1.raise 0x0401 (memPayload m w 1) else s1

/-- One failed word recovered: written back with fresh codes, MEM_CORRECTED with code 2 (R325). -/
def State.recoverWord (s : State) (m : MemId) (w : Nat) : State :=
  let c := s.coded m
  ((s.setCoded m (c.store m w (c.word m w) (s.stuckMask m w))).bumpMem m F.CI_CE_PAGE F.AQ_CE_PAGE).raise
    0x0401 (memPayload m w 2)

/-- One failed word lost: poison pattern, MEM_UNCORRECTABLE, its address held (R326). -/
def State.loseWord (s : State) (m : MemId) (w : Nat) : State :=
  let s1 := (s.setCoded m ((s.coded m).storePoison m w (s.stuckMask m w))).bumpMem m F.CI_UE F.AQ_UE
  let s2 := match m with
    | .cis => s1.put64 R.CI_UE_ADDR_LO (16 * w)
    | .aq => s1.put64 R.AQ_UE_ADDR_LO (32 * w)
    | .buf _ => s1
  s2.raise 0x0402 (memPayload m w 0)

/-- The page code rebuilt over the page as stored: silent errors become the data the code stands for (R326, R336). -/
def rebuildPage (c : CodedMem) (m : MemId) (page : Nat) : CodedMem :=
  let c1 := (List.range m.pageWords).foldl (fun c i =>
    let w := page * m.pageWords + i
    let mask := sget 0 c.errs w
    let d := c.wrong m w
    if d = 0 || c.outcome m w == .bad || c.outcome m w == .poison then c
    else c.store m w (c.word m w ^^^ d) (mask ^^^ silentMask m d)) c
  { c1 with codeErrs := match m with
      | .aq => sset 0 c1.codeErrs page 0
      | _ => (List.range 4).foldl (fun k i => sset 0 k (4 * page + i) 0) c1.codeErrs }

/-- The page code read: a code word with a single error is corrected by its word code and counted (R324, R340); no address names it,
so no event does (log 18). The code bytes of the Aquifer have no word code. -/
def State.readCode (s : State) (m : MemId) (page : Nat) : State :=
  if m == .aq then s
  else (List.range 4).foldl (fun t i =>
    let c := State.coded t m
    let mask := sget 0 c.codeErrs (4 * page + i)
    match wordOut .cis mask with
    | .fixed _ =>
      (t.setCoded m { c with codeErrs := sset 0 c.codeErrs (4 * page + i) (silentMask .cis (deliveredErr .cis mask)) }).bumpMem
        m F.CI_CE_WORD F.AQ_CE_WORD
    | _ => t) s

/-- The rebuild of a page's code, counted. -/
def State.rebuild (s : State) (m : MemId) (page : Nat) : State :=
  (s.setCoded m (rebuildPage (s.coded m) m page)).bumpMem m F.CI_CODE_REBUILD F.AQ_CODE_REBUILD

/-- A page correction (R325, R326). A failed code word beside data words that are all clean or correctable costs no data. -/
def State.correctPage (s0 : State) (m : MemId) (page : Nat) : State :=
  let s := s0.readCode m page
  let c := s.coded m
  let ws := failedWords c m page
  if ws.isEmpty then (if (List.range m.columns).any fun j => codeLost c m page j then s.rebuild m page else s)
  else if pageRecovers c m page then ws.foldl (fun t w => t.recoverWord m w) s
  else (ws.foldl (fun t w => t.loseWord m w) s).rebuild m page

/-! ## Remap and retirement (R337-R339) -/

/-- Banks of a bay whose retirement copy runs: each holds one of the bay's spares. -/
def State.baysRetiring (s : State) (bay : Nat) : Nat :=
  countIf (fun e => e.1 / 128 == bay && e.2.retireFrom.isSome) s.mems.banks

/-- Spare banks of a bay that no copy holds. -/
def State.sparesFree (s : State) (bay : Nat) : Nat := s.get (spareFld bay) - s.baysRetiring bay

/-- A bank is retired into a spare bank of its bay, if there is one: the copy starts (R339). -/
def State.retireBank (s : State) (w : Nat) : State :=
  let b := globalBank w
  if (s.bank b).retireFrom.isSome then s
  else if s.sparesFree (bayOf w) = 0 then s.raise 0x0403 (memPayload .cis w 0)
  else s.modBank b fun k => { k with retireFrom := some s.clk.cycle }

/-- A word read through its codes for a copy (R337, R338): a page correction, or a single error written back. -/
def State.readToCopy (s : State) (m : MemId) (w : Nat) : State :=
  match (s.coded m).outcome m w with
  | .bad => s.correctPage m (pageOf m w)
  | .fixed _ => s.writeBack m w
  | _ => s

/-- Words in other cells; a persistent injection on one of them ends (R470). -/
def State.moveWords (s : State) (m : MemId) (ws : List Nat) : State :=
  let s1 := s.setCoded m ((s.coded m).moved m ws.contains)
  if ws.any (s.injectHits m) && s.on (injPersist m) then (s1.put (injMode m) 0).put (injPersist m) 0 else s1

/-- A Cistern word remapped to a spare word, or its bank retired where none is free (R337). -/
def State.remapWord (s0 : State) (w : Nat) : State :=
  let s := s0.readToCopy .cis w
  let b := globalBank w
  let k := s.bank b
  if k.left = 0 then s.retireBank w
  else
    let s1 := s.modBank b fun k => { k with
      entries := if k.entries.contains (bankWord w) then k.entries else k.entries ++ [bankWord w]
      left := k.left - 1 }
    (((s1.moveWords .cis [w]).bump F.CI_REMAPS).raise 0x0403 (memPayload .cis w (k.left - 1)))

/-- An Aquifer page remapped to a spare page of its channel, copied through its codes (R338). -/
def State.remapPage (s0 : State) (w : Nat) : State :=
  let ws := (List.range 64).map fun i => 64 * pageOf .aq w + i
  let s := ws.foldl (fun t x => State.readToCopy t .aq x) s0
  let c := channelOf w
  let left := s.get (F.AQ_CHAN_REMAP_LEFT c)
  if left = 0 then s.raise 0x0403 (memPayload .aq w 0)
  else
    let used := (List.range 16).find? fun e =>
      s.on (F.AQ_REMAP_VALID c e) && s.get (F.AQ_REMAP_PAGE c e) == localPage w
    let s1 := match used with
      | some _ => s
      | none => match (List.range 16).find? fun e => !s.on (F.AQ_REMAP_VALID c e) with
        | some e => (s.put (F.AQ_REMAP_PAGE c e) (localPage w)).putB (F.AQ_REMAP_VALID c e) true
        | none => s
    let s2 := s1.moveWords .aq ws
    ((s2.put (F.AQ_CHAN_REMAP_LEFT c) (left - 1)).bump F.AQ_REMAPS).raise 0x0403 (memPayload .aq w (left - 1))

/-- A hard error in a word (R324): its memory's remap. Tile buffers have none. -/
def State.hardError (s : State) (m : MemId) (w : Nat) : State :=
  match m with
  | .cis => s.remapWord w
  | .aq => s.remapPage w
  | .buf _ => s

/-- A corrected single error: written back with fresh codes and read once more; a hard error is remapped (R324), without another
correction where a spare takes it. -/
def State.correctWord (s : State) (m : MemId) (w : Nat) : State :=
  let d := (s.coded m).wrong m w
  let s1 := s.writeBack m w
  if (s1.coded m).outcome m w = .clean then s1
  else
    let free := match m with
      | .cis => decide (0 < (s.bank (globalBank w)).left)
      | .aq => decide (0 < s.get (F.AQ_CHAN_REMAP_LEFT (channelOf w)))
      | .buf _ => false
    if free then (s1.setCoded m ((s1.coded m).store m w ((s1.coded m).word m w) (silentMask m d))).hardError m w
    else match m with
      | .cis => s1.retireBank w
      | .aq => s1.raise 0x0403 (memPayload .aq w 0)
      | .buf _ => s1


/-! ## Word reads and writes -/

/-- A word read through its codes: its data, none with a poison mark (R318, R320, R324, R334). -/
def State.rdWord (s : State) (m : MemId) (w : Nat) : State × Option Nat :=
  if s.chanRetired m w then (s.bump F.AQ_RETIRED_READS, none)
  else
    let c := s.coded m
    match c.outcome m w with
    | .clean => (s, some (c.value m w))
    | .fixed _ => (s.correctWord m w, some (c.value m w))
    | .poison => (s.bumpMem m F.CI_POISON_READS F.AQ_POISON_READS, none)
    | .bad => match m with
      | .buf _ => (s.setCoded m (c.storePoison m w (s.stuckMask m w)), none)
      | _ =>
        let s1 := s.correctPage m (pageOf m w)
        let c1 := s1.coded m
        if sget false c1.poison w then (s1, none) else (s1, some (c1.value m w))

/-- The old word of a write made readable: a word that fails its codes is first corrected (R323). -/
def State.readyWord (s : State) (m : MemId) (w : Nat) : State :=
  let c := s.coded m
  match c.outcome m w with
  | .bad => match m with
    | .buf _ => s.setCoded m (c.storePoison m w (s.stuckMask m w))
    | _ => s.correctPage m (pageOf m w)
  | .fixed _ => s.correctWord m w
  | _ => s

/-- A write of a word with a poison mark stores the poison pattern (R327); mode 3 of an injection is consumed by it (R470). -/
def State.markWord (s : State) (m : MemId) (w : Nat) : State :=
  if s.chanRetired m w then s
  else
    let s1 := s.readyWord m w
    let s2 := s1.setCoded m ((s1.coded m).storePoison m w (s1.stuckMask m w))
    if s1.injectHits m w && s1.get (injMode m) = 3 then s2.put (injMode m) 0 else s2

/-- A write of data into a word at byte `o`: whole words replace and clear poison, smaller ones are read-modify-write and
discarded on a poisoned word (R323, R327, R332, R470). -/
def State.wrWord (s : State) (m : MemId) (w o : Nat) (bs : List Byte) : State :=
  if s.chanRetired m w then s
  else
    let s1 := s.readyWord m w
    let c := s1.coded m
    let whole := bs.length = m.wordBytes
    let poisoned := sget false c.poison w || c.outcome m w == .poison
    if poisoned && !whole then s1
    else
      let old := if poisoned then 0 else c.value m w
      let new := bytesNat (putBytes (natBytes m.wordBytes old) o bs)
      -- a symbol the page code already misjudges stays misjudged: the delta is taken against what was read
      let residue := if poisoned then 0 else c.wrong m w
      -- reading the old word may have remapped it, which ends a persistent injection
      let mode := if s1.injectHits m w then s1.get (injMode m) else 0
      let persist := s1.on (injPersist m)
      let base := silentMask m residue ^^^ sget 0 c.stuck w
      let s2 :=
        if mode = 3 then s1.setCoded m (c.storePoison m w (sget 0 c.stuck w))
        else s1.setCoded m (c.store m w (new ^^^ residue) (base ^^^ injMask mode))
      if mode = 0 || (persist && mode ≤ 2) then s2 else s2.put (injMode m) 0

/-! ## Ranges -/

/-- `n` consecutive words from `w` on. -/
def wordsFrom : Nat → Nat → List Nat
  | 0, _ => []
  | n + 1, w => w :: wordsFrom n (w + 1)

/-- The words that a byte range touches. -/
def wordsOf (m : MemId) (a n : Nat) : List Nat :=
  if n = 0 then [] else wordsFrom ((a + n - 1) / m.wordBytes - a / m.wordBytes + 1) (a / m.wordBytes)

/-- Words read in order: their data, and whether each carried a mark. -/
def State.rdWords (s : State) (m : MemId) : List Nat → State × List (Nat × Bool)
  | [] => (s, [])
  | w :: ws =>
    let (s1, r) := s.rdWord m w
    let (s2, rs) := s1.rdWords m ws
    (s2, (r.getD 0, r.isNone) :: rs)

/-- A byte range read: its bytes (0 where marked), and the marks of the words it touches. -/
def State.rdRange (s : State) (m : MemId) (a n : Nat) : State × List Byte × List Bool :=
  let (s1, ws) := s.rdWords m (wordsOf m a n)
  let all := (ws.map fun (d, _) => natBytes m.wordBytes d).flatten
  (s1, (all.drop (a % m.wordBytes)).take n, ws.map (·.2))

/-- Unmarked bytes written at an address, word by word. `fuel` bounds the words. -/
def State.wrFrom (s : State) (m : MemId) : Nat → Nat → List Byte → State
  | 0, _, _ => s
  | fuel + 1, a, bs =>
    if bs.isEmpty then s
    else
      let k := m.wordBytes - a % m.wordBytes
      (s.wrWord m (a / m.wordBytes) (a % m.wordBytes) (bs.take k)).wrFrom m fuel (a + k) (bs.drop k)

/-- Unmarked bytes written at an address. -/
def State.wrRange (s : State) (m : MemId) (a : Nat) (bs : List Byte) : State :=
  s.wrFrom m (bs.length / m.wordBytes + 2) a bs

/-- 16-byte words from a 16-byte aligned address on, gathered into the writes they make: the two halves of an Aquifer word
that arrive together are one write of it, marked if either is (R332). -/
def markUnits (m : MemId) : Nat → Nat → List (List Byte × Bool) → List (Nat × List Byte × Bool)
  | 0, _, _ => []
  | _, _, [] => []
  | n + 1, a, (bs, k) :: rest =>
    match m, rest with
    | .aq, (bs2, k2) :: rest2 =>
      if a % 32 = 0 then (a, bs ++ bs2, k || k2) :: markUnits m n (a + 32) rest2
      else (a, bs, k) :: markUnits m n (a + 16) rest
    | _, _ => (a, bs, k) :: markUnits m n (a + 16) rest

/-- 16-byte words, each with its mark, written from a 16-byte aligned address (R328, R332). -/
def State.wrMarked (s : State) (m : MemId) (a : Nat) (ws : List (List Byte × Bool)) : State :=
  (markUnits m ws.length a ws).foldl (fun t (b, bs, k) =>
    if k then t.markWord m (b / m.wordBytes) else t.wrWord m (b / m.wordBytes) (b % m.wordBytes) bs) s

/-- A run of bytes cut into 16-byte words. -/
def chunks16 : Nat → List Byte → List (List Byte)
  | 0, _ => []
  | n + 1, bs => bs.take 16 :: chunks16 n (bs.drop 16)

/-- A 16-byte aligned range read as 16-byte words with their marks; both halves of a poisoned Aquifer word are marked. -/
def State.rdMarked (s : State) (m : MemId) (a n : Nat) : State × List (List Byte × Bool) :=
  let (s1, bs, marks) := s.rdRange m a n
  let per := m.wordBytes / 16
  let first := a % m.wordBytes / 16
  let cs := chunks16 (n / 16) bs
  (s1, (List.range cs.length).map fun i => (cs.getD i [], marks.getD ((first + i) / per) false))

/-- A byte range of a memory filled with free values: the contents the spec leaves unspecified (R37, log 10). -/
def State.scramble (s : State) (m : MemId) (a n : Nat) : State :=
  let (bs, s1) := s.freeBytes n
  s1.wrRange m a bs

/-- Upset bits: stored bits of a word flip, as stuck cells where `hard`. -/
def State.upset (s : State) (m : MemId) (w flips : Nat) (hard : Bool) : State :=
  let c := s.coded m
  s.setCoded m { c with
    errs := sset 0 c.errs w (sget 0 c.errs w ^^^ flips)
    stuck := if hard then sset 0 c.stuck w (sget 0 c.stuck w ^^^ flips) else c.stuck }

end Sys2Proof.Machine
end

