-- ==== Sys2Proof/Machine/Transfer.lean ====
section
/-! DEFINITION. Command data between host memory, the Cistern and the Aquifer: window checks, PCIe requests and poison marks
(R76, R77, R85, R86, R328, R329). -/

namespace Sys2Proof.Machine

/-- The coded memory of a command's space number: 1 Cistern, 2 Aquifer. -/
def spaceMem (sp : Nat) : MemId := if sp = 2 then .aq else .cis

/-- The first address past a space: host memory, Cistern 4 GiB, Aquifer 384 GiB (R76). -/
def spaceEnd (sp : Nat) : Nat := if sp = 0 then 2 ^ 64 else if sp = 2 then 384 * 2 ^ 30 else 2 ^ 32

/-- A command's host ranges (write, address, length) against the windows: a refusal trips valve 4 with the lowest refused
address (R86). -/
def State.grant (s : State) (ranges : List (Bool × Nat × Nat)) : Option State :=
  if s.host.granted then none else
  let bad := ranges.filterMap fun (w, a, n) => s.dmaRefused w a n
  match bad with
  | [] => none
  | a :: as => some (s.trip 4 0 (as.foldl min a))

/-- The write requests of a range: of the Max_Payload_Size, aligned to it (R77). -/
def requests (pay : Nat) : Nat → Nat → Nat → List (Nat × Nat)
  | 0, _, _ => []
  | k + 1, a, n =>
    if n = 0 then []
    else
      let m := min n (pay - a % pay)
      (a, m) :: requests pay k (a + m) (n - m)

/-- One request of command data sent, with Relaxed Ordering where configuration space enables it (R56): poisoned, its bytes at the
host are left open (R77, log 10). -/
def State.sendRequest (s : State) (a : Nat) (bs : List Byte) (ep : Bool) : State :=
  let s0 := if s.pcieUp && s.host.config.relaxed then s.emit (.roWrite a bs.length) else s
  if ep then
    let (free, s1) := s0.freeBytes bs.length
    (s1.hostWrite a free).emit (.epWrite a bs.length)
  else s0.hostWrite a bs

/-- The requests in which the 880 sends `n` bytes to address `a` (R77). -/
def State.requestsOf (s : State) (a n : Nat) : List (Nat × Nat) :=
  let pay := max 1 s.host.config.maxPayload
  requests pay (n / pay + 2) a n

/-- Command data without marks sent to host memory. -/
def State.dataWrite (s : State) (a : Nat) (bs : List Byte) : State :=
  (s.requestsOf a bs.length).foldl (fun t (b, n) => t.sendRequest b ((bs.drop (b - a)).take n) false) s

/-- 16-byte words with their marks sent to host memory; whether a request carried EP. -/
def State.sendHost (s : State) (a : Nat) (ws : List (List Byte × Bool)) : State × Bool :=
  let bs := (ws.map (·.1)).flatten
  let marked (o n : Nat) : Bool := (List.range ((n + 31) / 16)).any fun i => 16 * (o / 16 + i) < o + n && (ws.getD (o / 16 + i) ([], false)).2
  let s1 := (s.requestsOf a bs.length).foldl (fun t (b, n) =>
    t.sendRequest b ((bs.drop (b - a)).take n) (marked (b - a) n)) s
  (s1, ws.any (·.2))

/-- A 16-byte aligned range of a space read as words with their marks. -/
def State.readSpace (s : State) (sp a n : Nat) : State × List (List Byte × Bool) :=
  if sp = 0 then (s, (chunks16 (n / 16) (s.hostRead a n)).map fun b => (b, false))
  else s.rdMarked (spaceMem sp) a n

/-- Words with their marks written to a space; whether a host write carried EP. -/
def State.writeSpace (s : State) (sp a : Nat) (ws : List (List Byte × Bool)) : State × Bool :=
  if sp = 0 then s.sendHost a ws else (s.wrMarked (spaceMem sp) a ws, false)

/-- A 16-byte aligned range of a space filled with free values (R37, R86, log 10). -/
def State.scrambleSpace (s : State) (sp a n : Nat) : State :=
  if sp = 0 then
    let (bs, s1) := s.freeBytes n
    s1.hostWrite a bs
  else s.scramble (spaceMem sp) a n

/-- Bytes of words, and whether any was marked. -/
def wordBytesOf (ws : List (List Byte × Bool)) : List Byte := (ws.map (·.1)).flatten
def anyMark (ws : List (List Byte × Bool)) : Bool := ws.any (·.2)

/-! ## The bank record of a model bank (R304) -/

/-- The logical tiles in service of each partition, none of a failed one. -/
def State.tilesNow (s : State) : List (Option Nat) :=
  (List.range 16).map fun p => if s.on (F.MX_PART_STATUS_FAILED p) then none else some (s.get (F.MX_PART_STATUS_TILES p))

/-- Partitions that a mapping lacks under those tiles (R301). -/
def partsShort (tiles : List (Option Nat)) (m : ModelMap) : Nat :=
  m.parts - countIf (fun t => match t with
    | some n => decide (m.tpp ≤ n)
    | none => false) tiles

/-- The number of STATE in a bank record (R304). -/
def ModelState.code : ModelState → Nat
  | .empty => 0
  | .loading => 1
  | .primed => 2
  | .armed => 3
  | .active => 4
  | .draining => 5


/-- The bank record of 1,280 bytes. -/
def State.bankRecord (s : State) (b : Nat) (k : ModelBank) : List Byte :=
  let i := k.img
  let ex (n : Nat) := i.excess.getD n 0
  let fits := match k.mapping with
    | some n => partsShort s.tilesNow (i.maps.getD n ⟨0, 0, 0, 0, 0⟩) == 0
    | none => false
  padTo 128 (natBytes 1 b ++ natBytes 1 k.st.code ++ natBytes 1 (k.mapping.getD 0xFF)
    ++ natBytes 1 (b2n i.rate + 2 * b2n i.spill + 4 * b2n k.lost + 8 * b2n fits) ++ natBytes 4 i.id ++ natBytes 4 i.version
    ++ natBytes 4 (ex 0) ++ natBytes 4 (ex 1) ++ natBytes 8 (ex 2) ++ natBytes 2 (ex 3) ++ natBytes 2 (ex 4) ++ natBytes 2 (ex 5)
    ++ zeros 6 ++ natBytes 8 i.spillBytes ++ natBytes 8 k.commitAt ++ natBytes 8 k.retireAt ++ padTo 64 i.digest)
  ++ padTo 128 ((i.maps.map fun m => natBytes 2 (partsShort s.tilesNow m) ++ natBytes 1 m.tpp ++ [0] ++ natBytes 4 m.step).flatten)
  ++ padTo 1024 ((i.placed.map fun p => natBytes 1 p.space ++ natBytes 1 p.type ++ [0, 0] ++ natBytes 4 p.part
    ++ natBytes 8 p.addr).flatten)

/-- The record written to RESULT, where one is named and the status has one. -/
def State.putBankRecord (s : State) (result b : Nat) (k : ModelBank) : State :=
  if result = 0 then s else s.dataWrite result (s.bankRecord b k)

/-! ## The completion of a command (R32, R37, R86, R91) -/

/-- The host ranges of a command (write, address, length) beyond the `n` bytes of each whose requests are issued. -/
def rangesBeyond (n : Nat) (rs : List (Bool × Nat × Nat)) : List (Bool × Nat × Nat) :=
  rs.map fun (w, a, k) => (w, a + min n k, k - min n k)

/-- The lowest address of host ranges that the windows refuse. -/
def State.lowestRefused (s : State) (rs : List (Bool × Nat × Nat)) : Option Nat :=
  match rs.filterMap fun (w, a, n) => s.dmaRefused w a n with
  | [] => none
  | a :: as => some (as.foldl min a)

/-- Free values in those pages of a host range that the windows grant: no byte of a refused page is written. -/
def State.scrambleGranted (s : State) (a n : Nat) : State :=
  (requests 4096 (n / 4096 + 2) a n).foldl (fun t (b, k) =>
    if (t.dmaRefused true b k).isSome then t
    else
      let (bs, t1) := t.freeBytes k
      t1.hostWrite b bs) s

/-- The bay-local start of a bank's region (R297). -/
def State.regionStart (s : State) (b : Nat) : Nat :=
  2 ^ 28 - 2 ^ 24 * (if b = 0 then s.models.bank0.quota else s.models.bank0.quota + s.models.bank1.quota)

/-- The bays of a region, counted upwards. -/
def regionBays (mask : Nat) : List Nat := (List.range 10).filter fun i => bit mask i

/-- The region of a model bank that PRIME was filling: its bays' parts and its Aquifer range (R297). -/
def State.scrambleRegion (s : State) (b : Nat) : State :=
  let k := s.model b
  let s1 := (regionBays k.mask).foldl (fun t bay =>
    State.scramble t .cis (2 ^ 28 * bay + s.regionStart b) (2 ^ 24 * k.quota)) s
  s1.scramble .aq k.aqBase k.aqSize

/-- A PRIME that does not come to its own end: what it has written of its bank's region is left open, the bank EMPTY. -/
def State.dropPrime (s : State) (b : Nat) : State :=
  if (s.model b).st = .loading then (s.scrambleRegion b).setModel b (s.model b).emptied else s

/-- The bank EMPTY and its record written where RESULT is granted, for a PRIME that ends DMA_FAULT or HOST_ERROR on its way (R300);
what was found by then is left out of the record. -/
def State.failPrime (s : State) (q : Nat) (c : List Byte) : State :=
  if q / 16 = 4 && cmdOp c = 0x61 then
    let b := byteAt c 25
    let s1 := if (s.model b).st = .loading then s.setModel b (s.model b).emptied else s
    if (s1.dmaRefused true (fieldAt c 40 8) 1280).isSome then s1 else s1.putBankRecord (fieldAt c 40 8) b (s1.model b)
  else s

/-- Host ranges that have passed their check: a rewritten window no longer refuses the requests issued under them (R86). -/
def State.setGranted (s : State) (b : Bool) : State := { s with host := { s.host with granted := b } }

/-- The host's side of `u`: its memory and what has left the device. -/
def State.withHostOf (s u : State) : State := { s with host := { s.host with mem := u.host.mem }, out := u.out }

/-- A command whose later request a rewritten window refuses: what its destination holds is left open (R86, log 10). The table
commands that load have had their effect or not; nothing is written in a refused page. -/
def State.lateDest (s : State) (q : Nat) (c : List Byte) (eff : List Byte → State → State × Nat) : State :=
  let (f, s1) := s.free
  let s2 :=
    if q / 16 = 4 && cmdOp c = 0x61 then s1.dropPrime (byteAt c 25)
    else if f % 2 = 1 then
      ((eff c (s1.setGranted true)).1.setGranted false).withHostOf s1
    else s1
  let s3 := if q / 16 = 3 && cmdOp c = 0x10 && (byteAt c 37 = 1 || byteAt c 37 = 2) then
    s2.scrambleSpace (byteAt c 37) (fieldAt c 24 8) (fieldAt c 32 4) else s2
  (hostRanges q c).foldl (fun t (w, a, n) => if w then State.scrambleGranted t a n else t) s3

/-- The effect of a command with its status. Where its host ranges have passed their check before a window was rewritten, requests
issued by then stand, and a later one that the windows refuse ends it DMA_FAULT (R86, R91). -/
def State.effectOf (s : State) (q : Nat) (c : List Byte) (r : Run) (eff : List Byte → State → State × Nat) : State × Nat :=
  if !r.checked then eff c s
  else match s.lowestRefused (rangesBeyond r.issued (hostRanges q c)) with
    | some a => (((s.trip 4 0 a).lateDest q c eff).failPrime q c, Status.dmaFault)
    | none => ((eff c (s.setGranted true)).1.setGranted false, (eff c (s.setGranted true)).2)

/-- The step in which queue `q` completes its running command of opcode `op`. `dur` gives the command's cycles at full
clock where the spec fixes them (time passes to its completion, unless a boundary comes first: log 1); where it does not,
the command completes now, one cycle at least after its start. A command that reads host memory does not complete while the
PCI Express link is down. `eff` is its effect and its status. -/
def State.runOp (s : State) (q op : Nat) (dur : List Byte → State → Option Nat)
    (eff : List Byte → State → State × Nat) : State :=
  match s.running q op with
  | none => s
  | some (c, r) =>
    let n := match dur c s with
      | some d => s.cyclesLeft q d r
      | none => if r.charged = 0 then 1 else 0
    if hostReads q c && !s.pcieUp then s
    else if s.canElapse n then
      let s1 := s.elapse n
      let (s2, st) := s1.effectOf q c r eff
      s2.complete q st (match (s1.q q).cur with | some r' => r'.charged | none => 0)
    else s

end Sys2Proof.Machine
end

