-- ==== Sys2Proof/Machine/Host.lean ====
section
/-! DEFINITION. Host attachment: doorbells, floats, rings, queues, common commands, BAR4 (chapter 02, R54-R91). -/

namespace Sys2Proof.Machine

/-! ## Doorbells (R59, R66, R67) -/

/-- SQ_TAIL and CQ_HEAD are written only by one aligned 32-bit write of their own offset; anything else is discarded (R59). -/
def doorbellWrite (reg offset size : Nat) : Bool := offset == reg && size == 4

/-- A write of SQ_TAIL (R66). -/
def State.setSqTail (s : State) (q v : Nat) : State :=
  if s.sqSize q ≤ v then s.ringError q 1 else s.modQ q fun Q => { Q with sqTail := v }

/-- A write of CQ_HEAD (R67). -/
def State.setCqHead (s : State) (q v : Nat) : State :=
  if s.cqSize q ≤ v then s.ringError q 1 else s.modQ q fun Q => { Q with cqHead := v }

def execSqTailWrite (q : Fin 80) (offset size value : Nat) (stores : List (Nat × List Byte)) (s : State) : Res :=
  let s1 := s.hostStores stores
  .next (if s1.barsOpen && doorbellWrite 0 offset size then s1.setSqTail q (value % 2 ^ 32) else s1)

def execCqHeadWrite (q : Fin 80) (offset size value : Nat) (s : State) : Res :=
  .next (if s.barsOpen && doorbellWrite 4 offset size then s.setCqHead q (value % 2 ^ 32) else s)

/-! ## Descriptors and command lists (R68-R71, R86) -/

/-- Address of the queue's next descriptor. -/
def State.descAddr (s : State) (q : Nat) : Nat := s.get64 (R.HIF_QSQBASE_LO q) + 64 * s.get (F.HIF_QSQHEAD_INDEX q)

/-- A descriptor is refused: misaligned address, length out of range, reserved field not zero (R69). -/
def descBad (d : List Byte) : Bool :=
  let len := fieldAt d 8 4
  fieldAt d 0 8 % 32 != 0 || len % 32 != 0 || len < 32 || 1048576 < len
    || 2 ≤ fieldAt d 12 4 || !allZero (d.drop 16)

/-- The commands of a list, fetched from host memory at `addr`, `left` bytes of it left (R70, R71, R86). -/
def State.fetchList (s : State) : Nat → Nat → Nat → List Fetched
  | 0, _, _ => []
  | n + 1, addr, left =>
    if left = 0 then []
    else match s.dmaRefused false addr 32 with
      | some a => [.refused a [] left]
      | none =>
        let head := s.hostRead addr 32
        let size := 32 * (1 + cmdExt head)
        if left < size then [.cut (s.hostRead addr left)]
        else match s.dmaRefused false addr size with
          | some a => [.refused a head left]
          | none => .cmd (s.hostRead addr size) :: s.fetchList n (addr + size) (left - size)

/-- The 880 fetches the queue's next descriptor and its command list. -/
def State.fetchDesc (s : State) (q : Nat) : State :=
  if !s.qRuns q || !s.pcieUp || (s.q q).active || s.sqPending q = 0 then s
  else match s.dmaRefused false (s.descAddr q) 64 with
    | some a => (s.putB (F.HIF_QSTATUS_DMA_HALT q) true).trip 4 0 a
    | none =>
      let d := s.hostRead (s.descAddr q) 64
      let slot := s.get (F.HIF_QSQHEAD_INDEX q)
      let s1 := s.put (F.HIF_QSQHEAD_INDEX q) ((slot + 1) % s.sqSize q)
      let s2 := s1.modQ q fun Q => { Q with slot := slot, notify := bit (fieldAt d 12 4) 0, idx := 0 }
      if descBad d then s2.addRec q Status.badDescriptor 0 1 0 false true
      else
        let len := fieldAt d 8 4
        s2.modQ q fun Q => { Q with active := true, cmds := s.fetchList (len / 32) (fieldAt d 0 8) len }

def execDescriptorFetch (q : Fin 80) (stores : List (Nat × List Byte)) (s : State) : Res :=
  whenLive (s.hostStores stores) fun s => s.fetchDesc q

/-! ## Completion records (R67, R78, R86) -/

/-- The 16 bytes of a record (R78). -/
def recBytes (r : Rec) (phase : Bool) : List Byte :=
  natBytes 2 r.slot ++ natBytes 1 r.status ++ natBytes 1 (b2n phase + 2 * b2n r.last + 4 * b2n r.irq)
    ++ natBytes 4 (r.first % 2 ^ 15 + 2 ^ 15 * (r.count % 2 ^ 16)) ++ natBytes 4 r.cycles ++ natBytes 4 r.stroke

/-- The oldest waiting record goes to the completion ring: a free slot, a granting window (R67, R86). -/
def State.popRec (s : State) (q : Nat) : State :=
  match (s.q q).recs with
  | [] => s
  | r :: rs =>
    if s.cqFree q = 0 || s.on (F.HIF_QSTATUS_DMA_HALT q) then s
    else
      let tail := s.get (F.HIF_QCQTAIL_INDEX q)
      let addr := s.get64 (R.HIF_QCQBASE_LO q) + 16 * tail
      match s.dmaRefused true addr 16 with
      | some a => (s.putB (F.HIF_QSTATUS_DMA_HALT q) true).trip 4 0 a
      | none =>
        let next := (tail + 1) % s.cqSize q
        let s1 := (s.hostWrite addr (recBytes r (s.q q).phase)).put (F.HIF_QCQTAIL_INDEX q) next
        let s2 := s1.modQ q fun Q => { Q with recs := rs, phase := if next = 0 then !Q.phase else Q.phase }
        (if r.irq then s2.cqIrq q else s2).haltCheck q

/-- COMPLETION_RECORD_WRITE: a record can be taken from the staging queue from the cycle after it was put there (R110). -/
def State.writeRec (s : State) (q : Nat) : State :=
  match (s.q q).recs with
  | [] => s
  | r :: _ => match s.reach (r.at_ + 1) with
    | some s1 => s1.popRec q
    | none => s

def execCompletionRecordWrite (q : Fin 80) (s : State) : Res := whenLive s fun s => s.writeRec q

/-! ## Floats through BAR2 (R60) -/

/-- A write to the float windows is one naturally aligned 8-byte write; any other is discarded (R60). -/
def floatWrite (s : State) (offset size : Nat) : Bool := s.barsOpen && offset == 0 && size == 8

def execFloatSetWrite (f : Fin 131072) (offset size : Nat) (value : BitVec 64) (s : State) : Res :=
  .next (if floatWrite s offset size then s.assignFloat true f value else s)

def execFloatAddWrite (f : Fin 131072) (offset size : Nat) (value : BitVec 64) (s : State) : Res :=
  .next (if floatWrite s offset size then s.addFloat f value.toNat else s)

/-! ## Common commands (R74) -/

/-- Reserved bytes of the common commands that are not zero, a float index out of range, a misaligned address (R71, R74). DESIGN
CHOICE (log 32): R74 gives no outcome for a TIMESTAMP whose address is not 16-byte aligned; it ends BAD_COMMAND. -/
def commonBad (c : List Byte) : Bool :=
  let zero (o n : Nat) : Bool := allZero ((c.drop o).take n)
  match cmdOp c with
  | 0 => !zero 16 16
  | 1 | 2 => 131072 ≤ fieldAt c 16 4 || !zero 20 4
  | 3 => 131072 ≤ fieldAt c 16 4 || !zero 22 10
  | 4 => fieldAt c 16 8 % 16 != 0 || !zero 24 8
  | _ => true

/-- A command that takes one cycle. -/
def oneCycle (_ : List Byte) (_ : State) : Option Nat := some 1

def State.doNop (s : State) (q : Nat) : State := s.runOp q 0 oneCycle fun _ t => (t, Status.ok)

/-- The queue's WAIT, if it runs one that is over (R83), completes OK, charged 1 cycle (R32). -/
def State.doWait (s : State) (q : Nat) : State :=
  match s.running q 1 with
  | none => s
  | some (c, r) =>
    if !s.waitOver c r then s
    else (s.modQ q fun Q => { Q with cur := Q.cur.map fun r => { r with waiting := false } }).runOp q 1 oneCycle
      fun _ t => (t, Status.ok)

def State.doSet (s : State) (q : Nat) : State :=
  s.runOp q 2 oneCycle fun c t => (t.assignFloat false (fieldAt c 16 4) (BitVec.ofNat 64 (fieldAt c 24 8)), Status.ok)

def State.doArm (s : State) (q : Nat) : State :=
  s.runOp q 3 oneCycle fun c t => (t.put (tickFld (fieldAt c 16 4)) (fieldAt c 20 2), Status.ok)

/-- A command's host range is checked against the windows before its first request: a refusal trips valve 4 (R86). -/
def State.hostGrant (s : State) (write : Bool) (addr len : Nat) : Option State :=
  if s.host.granted then none else (s.dmaRefused write addr len).map fun a => s.trip 4 0 a

def State.doTimestamp (s : State) (q : Nat) : State :=
  s.runOp q 4 (fun _ _ => none) fun c t =>
    match (t.q q).cur, t.hostGrant true (fieldAt c 16 8) 16 with
    | _, some t' => (t', Status.dmaFault)
    | some r, none =>
      (t.hostWrite (fieldAt c 16 8) (natBytes 8 r.startTime ++ natBytes 8 r.startStroke), Status.ok)
    | none, none => (t, Status.ok)

def execNop (q : Fin 80) (s : State) : Res := whenLive s fun s => s.doNop q
def execWait (q : Fin 80) (s : State) : Res := whenLive s fun s => s.doWait q
def execWaitSatisfied (q : Fin 80) (s : State) : Res :=
  whenLive s fun s => if (s.q q).cur.any (·.waiting) then s.doWait q else s
def execSet (q : Fin 80) (s : State) : Res := whenLive s fun s => s.doSet q
def execArm (q : Fin 80) (s : State) : Res := whenLive s fun s => s.doArm q
def execTimestamp (q : Fin 80) (s : State) : Res := whenLive s fun s => s.doTimestamp q

/-! ## Queue control (R80) -/

/-- A ring's sizes and bases are writable: ENABLE 0, and no stop in progress (R80). -/
def State.ringWritable (s : State) (q : Nat) : Bool := !s.on (F.HIF_QCTRL_ENABLE q) && !(s.q q).stopping

/-- ENABLE set: refused with a misaligned base; a stop in progress goes on first (R80). -/
def State.enableQueue (s : State) (q : Nat) : State :=
  if s.on (F.HIF_QCTRL_ENABLE q) then s
  else if s.raw (R.HIF_QSQBASE_LO q) % 4096 != 0 || s.raw (R.HIF_QCQBASE_LO q) % 4096 != 0 then
    (s.putB (F.HIF_QSTATUS_CONFIG_ERR q) true).ringError q 2
  else
    let s1 := s.putB (F.HIF_QCTRL_ENABLE q) true
    if s.on (F.HIF_QCTRL_STOP q) then s1
    else if (s.q q).stopping then s1.modQ q fun Q => { Q with rearmed := true }
    else s1.putB (F.HIF_QSTATUS_HALTED q) false

/-- ENABLE cleared: with work in hand it stops as STOP does (R80). -/
def State.disableQueue (s : State) (q : Nat) : State :=
  if !s.on (F.HIF_QCTRL_ENABLE q) then s
  else
    let s1 := s.putB (F.HIF_QCTRL_ENABLE q) false
    let Q := s.q q
    if Q.active || !Q.recs.isEmpty then s1.stopQueue q else s1

/-- STOP set (R80, R91: STOP wins over a WAIT satisfied in its cycle). -/
def State.setStop (s : State) (q : Nat) : State :=
  if s.on (F.HIF_QCTRL_STOP q) then s else (s.putB (F.HIF_QCTRL_STOP q) true).stopQueue q

/-- STOP cleared: an enabled queue goes on with the descriptor at SQ_HEAD; one whose ENABLE is 0 stays stopped. DESIGN CHOICE
(log 32): R80 gives no outcome for a STOP cleared before HALTED reads 1; the stop's records are written, then the queue goes on
and HALTED does not become 1, as where ENABLE is set again. -/
def State.clearStop (s : State) (q : Nat) : State :=
  if !s.on (F.HIF_QCTRL_STOP q) then s
  else
    let s1 := s.putB (F.HIF_QCTRL_STOP q) false
    if !s.on (F.HIF_QCTRL_ENABLE q) then s1
    else if (s.q q).stopping then s1.modQ q fun Q => { Q with rearmed := true }
    else s1.putB (F.HIF_QSTATUS_HALTED q) false

/-- RESET: only while HALTED, or while ENABLE is 0 with no record left to write (R80). -/
def State.resetQueue (s : State) (q : Nat) : State :=
  if s.on (F.HIF_QSTATUS_HALTED q) || (!s.on (F.HIF_QCTRL_ENABLE q) && (s.q q).recs.isEmpty && !(s.q q).stopping) then
    ((s.put (F.HIF_QSQHEAD_INDEX q) 0).put (F.HIF_QCQTAIL_INDEX q) 0).modQ q fun Q => { Q with phase := true }
  else s

def execQueueEnable (q : Fin 80) (s : State) : Res := whenWritable s (R.HIF_QCTRL q) fun s => s.enableQueue q
def execQueueDisable (q : Fin 80) (s : State) : Res := whenWritable s (R.HIF_QCTRL q) fun s => s.disableQueue q
def execQueueStop (q : Fin 80) (s : State) : Res := whenWritable s (R.HIF_QCTRL q) fun s => s.setStop q
def execQueueResume (q : Fin 80) (s : State) : Res := whenWritable s (R.HIF_QCTRL q) fun s => s.clearStop q
def execQueueReset (q : Fin 80) (s : State) : Res := whenWritable s (R.HIF_QCTRL q) fun s => s.resetQueue q

/-- HIF_QSTATUSq.DMA_HALT written 1: the queue resumes (R86). -/
def execDmaHaltClear (q : Fin 80) (s : State) : Res :=
  whenWritable s (R.HIF_QSTATUS q) fun s => s.putB (F.HIF_QSTATUS_DMA_HALT q) false

/-! ## The DMA window table and the lock (R85) -/

/-- A write of one register of a window: read-only once locked; one that would put the window's end past 2^64 is discarded
by itself. -/
def State.writeWindow (s : State) (n part v : Nat) : State :=
  if s.on F.HIF_LOCK_LOCK then s
  else
    let s1 := match part with
      | 0 => s.put (F.HIF_DMAW_0_BASE_LO n) (v / 4096)
      | 1 => s.put (F.HIF_DMAW_4_BASE_HI n) v
      | 2 => s.put (F.HIF_DMAW_8_PAGES n) v
      | _ => (s.put (F.HIF_DMAW_C_READ n) v).put (F.HIF_DMAW_C_WRITE n) (v / 2)
    let fin := s1.raw (R.HIF_DMAW_0 n) + 2 ^ 32 * s1.raw (R.HIF_DMAW_4 n) + 4096 * s1.raw (R.HIF_DMAW_8 n)
    if part < 3 && 2 ^ 64 < fin then s else s1

def execHifLock (s : State) : Res := whenHost s R.HIF_LOCK fun s => s.putB F.HIF_LOCK_LOCK true

/-! ## The event ring (R87, R88) and interrupts (R84) -/

/-- HIF_EVT_CTRL.ENABLE set: refused with a misaligned base (R87). -/
def State.enableEvents (s : State) : State :=
  if s.on F.HIF_EVT_CTRL_ENABLE then s
  else if s.raw R.HIF_EVT_BASE_LO % 4096 != 0 then s.ringError 0xFF 2
  else s.putB F.HIF_EVT_CTRL_ENABLE true

def execEvtRingEnable (s : State) : Res := whenWritable s R.HIF_EVT_CTRL State.enableEvents

def execEvtHeadWrite (value : Word) (s : State) : Res :=
  whenWritable s R.HIF_EVT_HEAD fun s => s.put F.HIF_EVT_HEAD_INDEX value.toNat

/-- EVENT_LOSS written at the first moment it can be; a refused record trips valve 4 (R86, R88). -/
def State.lossStep (s : State) : State :=
  match s.evtLoss with
  | (s1, none) => s1
  | (s1, some a) => ((s1.valveBypass 4 0).raiseCore 0x0801 (tripPayload 4 0 a) []).1

def execEventLoss (s : State) : Res := .next (if s.frozen then s else s.lossStep)

def execEvtHaltClear (s : State) : Res :=
  whenWritable s R.GLB_STATUS fun s => s.putB F.GLB_STATUS_EVT_HALT false

/-- A ring whose oldest record with IRQ has waited HOLDOFF fires (R84): rings 0-79 are the queues', 80 is the event ring. -/
def State.holdoff (s : State) (ring : Nat) : State :=
  if ring < 80 then
    let Q := s.q ring
    let h := s.get (F.HIF_QIRQ_HOLDOFF ring)
    if Q.irqCount = 0 || h = 0 || !s.on (F.HIF_QCTRL_IRQ_EN ring) then s
    else match s.reach (Q.irqSince + 250 * h) with
      | none => s
      | some s1 => (s1.modQ ring fun Q => { Q with irqCount := 0 }).fire (s.get (F.HIF_QCTRL_VECTOR ring))
  else
    let e := s.host.evt
    let h := s.get F.HIF_EVT_IRQ_HOLDOFF
    if e.irqCount = 0 || h = 0 || !s.on F.HIF_EVT_CTRL_IRQ_EN then s
    else match s.reach (e.irqSince + 250 * h) with
      | none => s
      | some s1 => ({ s1 with host := { s1.host with evt := { s1.host.evt with irqCount := 0 } } }).fire
          (s.get F.HIF_EVT_CTRL_VECTOR)

def execIrqHoldoffExpiry (ring : Fin 81) (s : State) : Res :=
  .next (if s.frozen || !s.barsOpen then s else s.holdoff ring)

/-- A vector unmasked in the MSI-X table fires if it is pending (R84). -/
def State.unmask (s : State) (v : Nat) : State :=
  let s1 := s.putB (F.MSIX_CTRL_MASK v) false
  if s1.on ⟨R.MSIX_PBA (v / 32), v % 32, 1⟩ && s1.host.config.msixEnable && !s1.host.config.msixMask then
    (s1.setPending v false).emit (.irq v)
  else s1

def execMsixUnmask (vector : Fin 256) (s : State) : Res := whenWritable s (R.MSIX_CTRL vector) fun s => s.unmask vector

/-! ## BAR4 (R61, R62) -/

/-- BAR4 answers: enabled, and the Cistern initialised (R61, R62, R335). -/
def State.bar4Open (s : State) : Bool := s.on F.HIF_BAR4_CTRL_ENABLE && 4 ≤ s.get F.GLB_STATUS_STAGE

/-- A naturally aligned access of 4, 8 or 16 bytes inside the window. -/
def bar4Shape (offset size : Nat) : Bool :=
  (size == 4 || size == 8 || size == 16) && offset % size == 0 && offset < 2 ^ 30

def State.bar4Addr (s : State) (offset : Nat) : Nat := 2 ^ 28 * s.get F.HIF_BAR4_BAY_BAY + offset

def State.doBar4Read (s : State) (offset size : Nat) : State :=
  if s.frozen || s.phase == .safe then s.abortRead
  else if !s.barsOpen || !s.bar4Open || !bar4Shape offset size then s.emit .unsupported
  else
    let (s1, bs, marks) := s.rdRange .cis (s.bar4Addr offset) size
    if marks.any id then s1.abortRead else s1.emit (.data (bytesNat bs))

def execBar4Read (offset size : Nat) (s : State) : Res := .next (s.doBar4Read offset size)

def execBar4Write (offset : Nat) (data : List Byte) (s : State) : Res :=
  .next (if s.barsOpen && s.bar4Open && bar4Shape offset data.length then s.wrRange .cis (s.bar4Addr offset) data else s)

end Sys2Proof.Machine
end

