-- ==== Sys2Proof/Machine/Access.lean ====
section
/-! DEFINITION. What a register takes of a written word: the values its table admits, and the fields that keep theirs (R11,
R13, and the value ranges of the register tables). -/

namespace Sys2Proof.Machine

/-- Fields that admit a range of values only; another value is discarded and leaves the field unchanged. -/
def rangeRows : List (Fld × Nat × Nat) := [
  (F.STK_CTRL_SOURCE, 0, 3), (F.STK_CTRL_PTP_LINK, 0, 23), (F.STK_CTRL_ROLE, 0, 2), (F.STK_HOLDOVER_MS, 1, 60000),
  (F.HIF_QCTRL_SQ_LOG2 0, 6, 16), (F.HIF_QCTRL_CQ_LOG2 0, 6, 16), (F.HIF_EVT_CTRL_LOG2, 6, 16), (F.HIF_BAR4_BAY_BAY, 0, 12),
  (F.WH_STP_CTRL_CUT 0, 0, 64), (F.WH_STP_MAXLEN_BYTES 0, 64, 16384), (F.WH_SUMP_LINK, 0, 23),
  (F.WH_PROF_CTRL_FRAG_MODE 0, 0, 2), (F.WH_PROF_CTRL_NFIELDS 0, 1, 48),
  (F.WH_FE_CTRL_LOG2, 8, 20), (F.WH_SND_CTRL_WINDOW, 1, 255), (F.WH_SND_CTRL_K, 1, 255), (F.WH_FKEY_C_SKEY_KIND 0, 0, 2),
  (F.WH_VF_CTRL_MAXREC 0, 1, 32), (F.WH_VF_CTRL_HOLD 0, 0, 200),
  (F.EG_TC_WEIGHT 0 0, 1, 255), (F.EG_TC_LIMIT 0 0, 1, 768), (F.EG_GCL_CTRL_NENTRIES 0, 0, 256),
  (F.MX_CTRL_FAIL_THRESH, 1, 255), (F.CI_SCRUB_PERIOD_SECONDS, 60, 3600), (F.AQ_SCRUB_PERIOD_HOURS, 1, 24),
  (F.LK_CTRL_RATE 0, 0, 2), (F.LK_PAIR_CTRL_TIMEOUT 0, 1, 255), (F.LK_MON_SEL_LINK 0, 0, 39),
  (F.RV_WDT 0, 100, 1000000), (F.PWR_LIMIT_WATTS, 300, 950), (F.PWR_TWARN_LEVEL, 850, 1100), (F.PWR_IST_CTRL_HOURS, 1, 168)]

/-- A field, named by its register row's base and its lowest bit, admits a value. -/
def admits (base lo v : Nat) : Bool :=
  match rangeRows.find? fun r => r.1.reg == base && r.1.lo == lo with
  | some (_, a, b) => decide (a ≤ v ∧ v ≤ b)
  | none => true

/-- A word that its register discards whole: a descriptor that ends past byte 127 (R114), a mark entry wider than its byte
(R180). -/
def wordRefused (base v : Nat) : Bool :=
  (base == R.WH_PROF_FIELD_0 0 0 && 127 < bits v 0 7 + (bits v 7 3 + bits v 10 5) / 8)
  || (base == R.WH_MARK_0 0 && 8 < bits v 7 3 + bits v 10 3 + 1)

/-- What a field holds after a write of `v` to it: `open_` says whether its guard lets the write reach it. A W1S field of a
lock register keeps a written 1; every other W1S or WO field starts something and holds nothing. -/
def writtenField (base : Nat) (f : FieldRow) (open_ : Bool) (old v : Nat) : Nat :=
  if !open_ then old
  else match f.acc with
    | .rw | .rwl => if admits base f.lo v then v else old
    | .w1c => (List.range f.w).foldl (fun a i => if bit v i then a - bits a i 1 * 2 ^ i else a) old
    | .w1s => if base == R.HIF_LOCK || base == R.RV_LOCK || (base == R.DBG_CTRL && f.lo == 4) then old ||| v else old
    | .ro | .wo => old

/-- The word of a register after a write: fields not guarded take their values, reserved bits stay 0 (R13). -/
def mergeWord (base : Nat) (open_ : FieldRow → Bool) (old v : Nat) : List FieldRow → Nat
  | [] => 0
  | f :: fs =>
    writtenField base f (open_ f) (bits old f.lo f.w) (bits v f.lo f.w) * 2 ^ f.lo + mergeWord base open_ old v fs

/-- One register written as far as it only stores. -/
def State.putWord (s : State) (row : RegRow) (off : Nat) (open_ : Nat → FieldRow → Bool) (v : Nat) : State :=
  s.setWord off (BitVec.ofNat 32 (mergeWord row.base (open_ row.base) (s.word off).toNat v row.fields))

/-- A register write as far as it only stores: a low half is held until its high half comes (R10). DESIGN CHOICE (log 32): a
high half with no low half held leaves the low half as it is, and a guard or lock is judged for both halves when the high half
is written. -/
def State.store (s : State) (row : RegRow) (off : Nat) (open_ : Nat → FieldRow → Bool) (v : Nat) : State :=
  match row.half with
  | .single => s.putWord row off open_ v
  | .lo => { s with host := { s.host with writeHold := sset 0 s.host.writeHold off (2 ^ 32 + v % 2 ^ 32) } }
  | .hi =>
    let h := sget 0 s.host.writeHold (off - 4)
    let s1 := { s with host := { s.host with writeHold := sset 0 s.host.writeHold (off - 4) 0 } }
    let s2 := match findRow regRows (off - 4) with
      | some (r, _) => if h = 0 then s1 else s1.putWord r (off - 4) open_ (h % 2 ^ 32)
      | none => s1
    s2.putWord row off open_ v

end Sys2Proof.Machine
end

