-- ==== Sys2Proof/Machine/Contexts.lean ====
section
/-! DEFINITION. The Wellhead table space and the flow contexts in it: their fields, and what a frame does to one (chapter 04, R123,
R128, R129). -/

namespace Sys2Proof.Machine

/-! ## The table space (R123, R315) -/

/-- A range of the Wellhead table space read; it lies within one 4 KiB page. -/
def State.rdTab (s : State) (o n : Nat) : State × List Byte × List Bool := s.rdRange .cis (tableAddr o) n

/-- A range of the Wellhead table space written with fresh codes. -/
def State.wrTab (s : State) (o : Nat) (bs : List Byte) : State := s.wrRange .cis (tableAddr o) bs

/-- Offset of a context, and of a bucket of a set (0 X, 1 Y) and way. -/
def ctxOff (i : Nat) : Nat := 128 * i
def bucketOff (set way b : Nat) : Nat := 0x40000000 + 0x04000000 * set + 0x02000000 * way + 64 * b

/-! ## Contexts (R128, R129) -/

def ctxKeyLen (c : List Byte) : Nat := byteAt c 48
def ctxKeyspace (c : List Byte) : Nat := byteAt c 49 % 64
def ctxStatic (c : List Byte) : Bool := bit (byteAt c 49) 6
def ctxLive (c : List Byte) : Bool := bit (byteAt c 49) 7
def ctxKey (c : List Byte) : List Byte := c.take (ctxKeyLen c)
def ctxSlotRef (c : List Byte) : Nat := fieldAt c 50 4
def ctxProfile (c : List Byte) : Nat := byteAt c 54
def ctxConflict (c : List Byte) : Bool := bit (byteAt c 55) 0
def ctxFrames (c : List Byte) : Nat := fieldAt c 80 4
def ctxLastStroke (c : List Byte) : Nat := fieldAt c 88 4

/-- SLOTREF of a slot. -/
def slotRef (set way b slot : Nat) : Nat := b + 2 ^ 19 * way + 2 ^ 20 * slot + 2 ^ 23 * set

/-- A bit of a byte of a structure set or cleared. -/
def putBit (c : List Byte) (o i : Nat) (b : Bool) : List Byte := putField c o 1 (setBits (byteAt c o) i 1 (b2n b))

/-- What a frame brings to a context beside its length: its time, its stroke, the tallies it adds to. -/
structure FrameIn where
  time : Nat
  stroke : Nat
  tally : List Bool
  deriving DecidableEq, Repr

/-- The tallies after a frame. -/
def addTallies (c : List Byte) (t : List Bool) : List Byte :=
  (List.range 4).foldl (fun c i =>
    if t.getD i false then putField c (112 + 4 * i) 4 (sat32 (fieldAt c (112 + 4 * i) 4 + 1)) else c) c

/-- The fields that the first frame of a context writes, its length apart (R129). -/
def firstFrame (c : List Byte) (f : FrameIn) : List Byte :=
  let c1 := putField (putField c 56 8 f.time) 64 8 f.time
  let c2 := putField (putField c1 72 8 0) 80 4 1
  let c3 := putField (putField c2 84 4 f.stroke) 88 4 f.stroke
  let c4 := putField (putField (putField c3 92 4 0) 96 2 0) 98 2 0
  addTallies (putBytes c4 112 (zeros 16)) f.tally

/-- `m + ((x − m) >> 4)`, arithmetic. -/
def ewma (m : Nat) (x : Int) : Int := (m : Int) + (x - m) / 16

/-- The update of a context by a hit, the frame's length apart (R129). -/
def hitUpdate (c : List Byte) (f : FrameIn) : List Byte :=
  if ctxFrames c = 0 then firstFrame c f
  else
    let d := min ((f.time : Int) - fieldAt c 64 8) (2 ^ 32 - 1)
    let iat := if ctxFrames c = 1 then d else ewma (fieldAt c 92 4) d
    let c1 := putField (putField c 92 4 (uInt 32 iat)) 80 4 (sat32 (ctxFrames c + 1))
    addTallies (putField (putField c1 64 8 f.time) 88 4 f.stroke) f.tally

/-- A frame's length in a context (R129); a length above 65,535 is taken as 65,535. LEN_MAX is 0 until a first length is in. -/
def addLen (c : List Byte) (length : Nat) : List Byte :=
  let l := min length 65535
  let mean := if fieldAt c 98 2 = 0 then (l : Int) else ewma (fieldAt c 96 2) l
  let c1 := putField (putField c 96 2 (uInt 16 mean)) 98 2 (max (fieldAt c 98 2) l)
  putField c1 72 8 (min (2 ^ 64 - 1) (fieldAt c 72 8 + l))

/-- A fresh context without its frame: key, flags, slot, profile; deviations NaN (R128, R129). -/
def newContext (ks : Nat) (key : List Byte) (static : Bool) (ref profile : Nat) : List Byte :=
  let c := padTo 128 (padTo 48 key ++ natBytes 1 key.length ++ natBytes 1 (ks % 64 + 64 * b2n static + 128)
    ++ natBytes 4 ref ++ natBytes 1 profile)
  putField (putField c 100 4 0x7FC00000) 104 4 0x7FC00000

/-- A context read with its marks, written whole, and written from byte `o` on: no word that holds none of those bytes is written,
so that a mark elsewhere in the context stays (R124, R328). -/
def State.rdCtx (s : State) (i : Nat) : State × List Byte × List Bool := s.rdTab (ctxOff i) 128
def State.wrCtx (s : State) (i : Nat) (c : List Byte) : State := s.wrTab (ctxOff i) c
def State.wrCtxAt (s : State) (i o : Nat) (bs : List Byte) : State := s.wrTab (ctxOff i + o) bs

/-- One byte of a context changed in place. -/
def State.modCtxByte (s : State) (i o : Nat) (f : Nat → Nat) : State :=
  let (s1, c, _) := s.rdCtx i
  s1.wrCtxAt i o (natBytes 1 (f (byteAt c o)))

/-- CONFLICT set in a context; LIVE cleared in it. -/
def State.setCtxConflict (s : State) (i : Nat) : State := s.modCtxByte i 55 fun b => setBits b 0 1 1
def State.clearLive (s : State) (i : Nat) : State := s.modCtxByte i 49 fun b => setBits b 7 1 0

/-- SLOTREF of a context. -/
def State.wrSlotRef (s : State) (i ref : Nat) : State := s.wrCtxAt i 50 (natBytes 4 ref)

/-- A frame's length reaches the contexts that its passes have updated before it was known (R129). DESIGN CHOICE (log 35). -/
def State.settleLen (s : State) (link frame len : Nat) : State :=
  let mine := s.flow.lenDue.filter fun d => d.1 == link && d.2.1 == frame
  mine.foldl (fun t d =>
    let (t1, c, _) := t.rdCtx d.2.2
    t1.wrCtxAt d.2.2 72 ((addLen c len).drop 72 |>.take 28))
    { s with flow := { s.flow with lenDue := s.flow.lenDue.filter fun d => !(d.1 == link && d.2.1 == frame) } }

end Sys2Proof.Machine
end

