-- ==== Sys2Proof/Machine/Frames.lean ====
section
/-! DEFINITION. What the packet path's blocks share: link and pair conditions, big-endian frame fields, passes and reorder
entries, the abort of a frame (R92-R107). -/

namespace Sys2Proof.Machine

/-! ## Links and pairs -/

/-- A link of the Ethernet personality (R1, R92). -/
def State.ethernet (s : State) (n : Nat) : Bool := n < 24 && !s.on (F.LK_CTRL_PERS n)

/-- A link's STATE is UP. -/
def State.linkUp (s : State) (n : Nat) : Bool := s.get (F.LK_STATUS_STATE n) == 4

/-- The switches of a link's pair join it to its engine: TRAINING, INLINE or DIRECT (R361). -/
def State.joined (s : State) (n : Nat) : Bool :=
  let p := s.get (F.LK_PAIR_STATUS_STATE (n / 2))
  p == 2 || p == 3 || p == 5

/-- An Ethernet link that receives and can transmit: up, its pair not in bypass (R93, R210). -/
def State.lit (s : State) (n : Nat) : Bool := s.ethernet n && s.linkUp n && s.joined n

/-- The partner link of an in-line pair. -/
def partner (n : Nat) : Nat := if n % 2 = 0 then n + 1 else n - 1

def State.mode (s : State) (n : Nat) : Nat := s.get (F.WH_LINK_CTRL_MODE n)

/-- A link's privilege in force (R94). -/
def State.priv (s : State) (n : Nat) : Bool := s.onF (F.WH_LINK_CTRL_PRIV n)

/-- Bytes of a frame per timebase tick at a link's rate in use (R92, R356). -/
def State.bytesPerTick (s : State) (n : Nat) : Nat :=
  match s.get (F.LK_STATUS_RATE_NOW n) with
  | 0 => 80
  | 1 => 40
  | _ => 20

/-! ## Fields of a frame -/

/-- A run of bytes in transmission order as one number. -/
def beNat (bs : List Byte) : Nat := bs.foldl (fun a b => 256 * a + b.toNat) 0

/-- A number as `n` bytes in transmission order. -/
def beBytes (n v : Nat) : List Byte := (natBytes n v).reverse

/-- The big-endian 16-bit field at an offset. -/
def be16 (bs : List Byte) (o : Nat) : Nat := beNat ((bs.drop o).take 2)

/-- An ethertype that names a tag. -/
def isTag (e : Nat) : Bool := e == 0x8100 || e == 0x88A8

/-- Where the UDP header lies behind IPv6 extension headers, the next of which, `kind`, lies at `o`: hop-by-hop, routing and
destination options, authentication, a fragment header of the first fragment (PRESUMED, RFC 8200, log 34). -/
def udpBehind (bs : List Byte) : Nat → Nat → Nat → Option Nat
  | 0, _, _ => none
  | k + 1, kind, o =>
    if kind = 17 then some o
    else if kind = 0 || kind = 43 || kind = 60 then udpBehind bs k (byteAt bs o) (o + 8 * (byteAt bs (o + 1) + 1))
    else if kind = 51 then udpBehind bs k (byteAt bs o) (o + 4 * (byteAt bs (o + 1) + 2))
    else if kind = 44 && be16 bs (o + 2) < 8 then udpBehind bs k (byteAt bs o) (o + 8)
    else none

/-- The UDP header of a datagram whose IP header lies at `o` under ethertype `e`. -/
def udpAt (bs : List Byte) (o e : Nat) : Option Nat :=
  if e = 0x0800 then
    (if byteAt bs (o + 9) = 17 && be16 bs (o + 6) % 8192 = 0 then some (o + 4 * (byteAt bs o % 16)) else none)
  else if e = 0x86DD then udpBehind bs (bs.length / 8) (byteAt bs (o + 6)) (o + 40)
  else none

/-- Where the PTP message of a frame lies that R95 copies to link-management firmware: behind ethertype 0x88F7, or in a UDP
datagram to port 319 or 320. -/
def ptpAt (bs : List Byte) : Option Nat :=
  let o := if isTag (be16 bs 12) then 18 else 14
  let e := be16 bs (o - 2)
  if e = 0x88F7 then some o
  else (udpAt bs o e).bind fun u =>
    if be16 bs (u + 2) = 319 || be16 bs (u + 2) = 320 then some (u + 8) else none

/-- A frame that R95 copies. -/
def ptpFrame (bs : List Byte) : Bool := (ptpAt bs).isSome

/-- A PTP event message, which the 880 timestamps in hardware (R19): message types 0 to 3 of IEEE 1588-2019 (PRESUMED, log 34). -/
def ptpEvent (bs : List Byte) : Bool := (ptpAt bs).any fun o => byteAt bs o % 16 < 4

/-- R95 takes this frame on this link. -/
def State.ptpTakes (s : State) (n : Nat) (bs : List Byte) : Bool :=
  s.get F.STK_CTRL_SOURCE == 0 && s.get F.STK_CTRL_PTP_LINK == n && ptpFrame bs

/-- The timestamp of a frame that began to arrive at count `t`: with the link's correction, in 1/256 tick, added (R359). -/
def State.rxStamp (s : State) (n t : Nat) : Nat := ((256 * (t : Int) + sInt 32 (s.get (F.LK_PTP_ASYM_ASYM n))) / 256).toNat

/-! ## Passes and reorder entries -/

/-- A frame's end is written: a shaper charged with WH_STP_MAXLENn for it gets the difference back (R200). -/
def State.refund (s : State) (n frame len : Nat) : State :=
  let mine := s.egress.refunds.filter fun r => r.1 == n && r.2.1 == frame
  let back (bs : SMap Bucket) (r : Nat × Nat × Nat × Nat) : SMap Bucket :=
    smod {} bs r.2.2.1 fun k => { k with tc := k.tc + ((r.2.2.2 - len : Nat) : Int) * 65536 }
  { s with egress := { s.egress with
      buckets := mine.foldl back s.egress.buckets
      refunds := s.egress.refunds.filter fun r => !(r.1 == n && r.2.1 == frame) } }

/-- A frame's length becomes known (R129): to its entry, its passes, the contexts that they have updated, its shaper. -/
def State.setLen (s : State) (n frame len : Nat) : State :=
  let s1 : State := { s with intake := { s.intake with
      reorder := smod [] s.intake.reorder n fun l => l.map fun e => if e.frame = frame && e.len.isNone then { e with len := some len } else e
      passes := s.intake.passes.map fun p =>
        if p.link = n && p.frame = frame && p.len.isNone then { p with len := some len } else p } }
  (s1.settleLen n frame len).refund n frame len

/-- A pass has an INSPECT result (R165). -/
def Pass.inspects (p : Pass) : Bool :=
  match p.result with
  | .rule w => bit w 20 && (p.second || !bit w 21)
  | _ => false

/-- A pass has a final result: a TERMINAL one, a vote, the default action (R156, R158). -/
def Pass.final (p : Pass) : Bool :=
  match p.result with
  | .none => false
  | .rule _ => !p.inspects
  | .vote _ _ _ _ | .dflt => true

/-- A frame's verdict has entered the verdict stage: a final result in the cycle after it stands, or the deadline (R156, R158). -/
def State.entered (s : State) (n : Nat) (e : RoEntry) : Bool :=
  e.issued || e.dealt + 1592 ≤ s.clk.cycle || s.intake.passes.any fun p =>
    p.link == n && p.seq == e.seq && (p.second || !e.two) && p.final && p.resultAt < s.clk.cycle

/-- A link's reorder buffer, in sequence order (R121). -/
def State.reorder (s : State) (n : Nat) : List RoEntry := sget [] s.intake.reorder n

def State.setReorder (s : State) (n : Nat) (l : List RoEntry) : State :=
  { s with intake := { s.intake with reorder := sset [] s.intake.reorder n l } }

def State.entry? (s : State) (n seq : Nat) : Option RoEntry := (s.reorder n).find? (·.seq == seq)

def State.modEntry (s : State) (n seq : Nat) (f : RoEntry → RoEntry) : State :=
  s.setReorder n ((s.reorder n).map fun e => if e.seq = seq then f e else e)

def Pass.is (p : Pass) (r : PassRef) : Bool := p.link == r.link.val && p.seq == r.seq.val && p.second == r.second

def State.pass? (s : State) (r : PassRef) : Option Pass := s.intake.passes.find? (·.is r)

def State.setPasses (s : State) (l : List Pass) : State := { s with intake := { s.intake with passes := l } }

/-- The pass with the same link, number and order replaced. -/
def State.putPass (s : State) (p : Pass) : State :=
  s.setPasses (s.intake.passes.map fun x => if x.link = p.link && x.seq = p.seq && x.second = p.second then p else x)

/-- A pass that has nothing left to do: its flow stage is over, and its frame's verdict has been issued, or its second pass
runs (R156, R159). -/
def State.passOver (s : State) (p : Pass) : Bool :=
  p.flow == .done && match s.entry? p.link p.seq with
    | none => true
    | some e => e.issued || (!p.second && e.two)

/-- Passes that have nothing left to do leave their lanes. -/
def State.sweep (s : State) : State := s.setPasses (s.intake.passes.filter fun p => !s.passOver p)

/-- The reorder entry that holds a frame of a link. -/
def State.entryOf (s : State) (n frame : Nat) : Option RoEntry := (s.reorder n).find? (·.frame == frame)

/-! ## Frames cut off (R105, R106, R210) -/

/-- A frame of the standpipe leaves every class queue and the frames waiting for one. -/
def State.unqueue (s : State) (src frame : Nat) : State :=
  { s with egress := { s.egress with
      ready := s.egress.ready.filter fun r => !(r.src == src && r.frame == frame)
      queues := s.egress.queues.foldl (fun acc e =>
        sset [] acc e.1 (e.2.filter fun x => !(x.src == src && x.frame == frame && x.own.isNone))) [] } }

/-- The link whose transmitter sends a frame of the standpipe. -/
def State.sender? (s : State) (src frame : Nat) : Option Nat :=
  (s.egress.tx.find? fun e => match e.2 with
    | some t => t.entry.src == src && t.entry.frame == frame && t.entry.own.isNone
    | none => false).map (·.1)

/-- A transmitter ends its frame with an errored end of frame. -/
def State.errorEnd (s : State) (n : Nat) (bytes : List Byte) : State :=
  let head := ((sget none s.egress.tx n).bind (·.rewrite)).getD []
  { s with egress := { s.egress with tx := sset none s.egress.tx n none } }.emit (.frame n (putBytes bytes 0 head) true)

/-- A frame whose verdict is issued goes no further: it is dropped at egress, or ended with an error if it has started. -/
def State.cutFrame (s : State) (src frame : Nat) (bytes : List Byte) : State :=
  let s1 := s.unqueue src frame
  match s1.sender? src frame with
  | some n => s1.errorEnd n bytes
  | none => s1

/-- A frame's head is ready for dealing (R101): in look-aside mode the whole head frame is visible; else the whole frame, or 128
bytes of it and as many more as an FCS would take, before which the head's length min(L − 4, 128) is not settled (log 34). -/
def State.headSeen (s : State) (look : Bool) (f : SpFrame) : Bool :=
  s.endSeen f == .good || (!look && 132 ≤ s.visible f)

/-- The abort of a frame by its standpipe's writer (R105), by how far it has got. A frame whose verdict is issued and waits for
its release keeps its entry, marked aborted: it goes no further than the reorder stage. -/
def State.abortFrame (s0 : State) (n : Nat) (f : SpFrame) : State :=
  let s := s0.setLen n f.id f.bytes.length
  let mark := fun x : SpFrame => { x with stat := .aborted }
  let cut (t : State) : State := (t.cutFrame n f.id f.bytes).writeSp n f.id fun x => { mark x with released := true }
  if !f.dealt then
    if s.headSeen (s.mode n == 2) f then s.writeSp n f.id mark
    else s.writeSp n f.id fun x => { mark x with released := true }
  else match s.entryOf n f.id with
    | some e =>
      let s1 := s.modEntry n e.seq fun e => { e with aborted := true }
      if e.issued then cut s1 else s1.writeSp n f.id mark
    | none => cut s

/-- The frame that a link's writer has open. -/
def State.openFrame (s : State) (n : Nat) : Option SpFrame := (s.pipe n).find? (·.stat == .opening)

/-- The bytes that arrive on a link. -/
def State.rx (s : State) (n : Nat) : List Byte := sget [] s.intake.rx n

def State.setRx (s : State) (n : Nat) (bs : List Byte) : State :=
  { s with intake := { s.intake with rx := sset [] s.intake.rx n bs } }

def State.setDiscard (s : State) (n : Nat) (b : Bool) : State :=
  { s with intake := { s.intake with discarding := sset false s.intake.discarding n b } }

/-- The count of a frame that R97 discards: foreign by its ethertype as received, else bad; a frame that R95 takes is neither. -/
def State.asideCount (s : State) (n : Nat) (bs : List Byte) : State :=
  if be16 bs 12 != 0x88B5 then (if s.ptpTakes n bs then s else s.bump (F.WH_LA_FOREIGN n)) else s.bump (F.WH_LA_BAD n)

/-- The count of an FCS error, a receive error or an oversize frame (R97, R105). -/
def State.errCount (s : State) (n : Nat) (bs : List Byte) : State :=
  if s.mode n == 2 then s.asideCount n bs else s.bump (F.WH_STP_ERR_DROPS n)

/-- The light of a link goes: the frame being written is aborted as a receive error (R211). -/
def State.rxCut (s : State) (n : Nat) : State :=
  let s1 := (s.setRx n []).setDiscard n false
  match s1.openFrame n with
  | some f => (s1.errCount n f.bytes).abortFrame n f
  | none => s1

/-- A count of the stroke, by link. -/
def bumpMap (m : SMap Nat) (n k : Nat) : SMap Nat := smod 0 m n (· + k)

end Sys2Proof.Machine
end

