-- ==== Sys2Proof/Machine/Sched.lean ====
section
/-! DEFINITION. What the egress scheduler goes by: policer and shaper buckets, time gates, eligibility, finish tags (chapter 06,
R192-R209). -/

namespace Sys2Proof.Machine

/-! ## Policer entries (R194) -/

def polCir (e : List Byte) : Nat := fieldAt e 0 4
def polPir (e : List Byte) : Nat := fieldAt e 4 4
def polCbs (e : List Byte) : Nat := fieldAt e 8 3
def polMode (e : List Byte) : Nat := byteAt e 11 % 4
def polYDrop (e : List Byte) : Bool := bit (byteAt e 11) 2
def polRDrop (e : List Byte) : Bool := bit (byteAt e 11) 3
def polMark (e : List Byte) : Bool := bit (byteAt e 11) 4
def polBurst2 (e : List Byte) : Nat := fieldAt e 12 3
def polOverhead (e : List Byte) : Nat := byteAt e 15 % 64

/-- An entry refused at write. -/
def polBad (e : List Byte) : Bool :=
  let m := polMode e
  32 ≤ byteAt e 11 || 64 ≤ byteAt e 15 || !allZero (e.drop 18)
    || (m == 1 && ((polCbs e == 0 && polBurst2 e == 0) || polPir e != 0))
    || (m == 2 && (polPir e < polCir e || polCbs e == 0 || polBurst2 e == 0))
    || (m == 3 && (polCbs e == 0 || polPir e != 0 || polBurst2 e != 0))
    || (m != 0 && polCir e == 0)

/-- Policer entry `i` as written. -/
def State.polEntry (s : State) (i : Nat) : List Byte := Memory.read s.egress.policers (32 * i) 32

def State.bucket (s : State) (i : Nat) : Bucket := sget {} s.egress.buckets i

def State.setBucket (s : State) (i : Nat) (b : Bucket) : State :=
  { s with egress := { s.egress with buckets := sset {} s.egress.buckets i b } }

/-! ## Buckets (R195-R197) -/

/-- Credit of a rate in 1/65,536 byte over some core cycles, and the remainder carried. -/
def credit (rate cycles rem : Nat) : Nat × Nat :=
  let t := 65536 * (rate * cycles) + rem
  (t / 20000000, t % 20000000)

/-- A bucket filled up to a burst: no credit, no remainder above it. -/
def fillTo (burst : Nat) (v : Int) (rem : Nat) : Int × Nat :=
  if (burst : Int) * 65536 ≤ v then ((burst : Int) * 65536, 0) else (v, rem)

/-- An entry's buckets brought up to date. -/
def Bucket.refresh (e : List Byte) (now : Nat) (b : Bucket) : Bucket :=
  let d := now - b.last
  let (ac, rc) := credit (polCir e) d b.remC
  let (ap, rp) := credit (polPir e) d b.remP
  let cbs : Int := 65536 * polCbs e
  let b0 := { b with last := now }
  match polMode e with
  | 1 =>
    let tc := b.tc + ac
    if cbs < tc then
      let (te, rem) := fillTo (polBurst2 e) (b.te + (tc - cbs)) rc
      { b0 with tc := cbs, te := te.toNat, remC := rem }
    else { b0 with tc := tc, remC := rc }
  | 2 =>
    let (tp, rp1) := fillTo (polBurst2 e) ((b.te : Int) + ap) rp
    let (tc, rc1) := fillTo (polCbs e) (b.tc + ac) rc
    { b0 with tc := tc, te := tp.toNat, remC := rc1, remP := rp1 }
  | 3 =>
    let (tc, rc1) := fillTo (polCbs e) (b.tc + ac) rc
    { b0 with tc := tc, remC := rc1 }
  | _ => b0

/-- A colour (R196, R197). -/
inductive Colour where
  | green | yellow | red
  deriving DecidableEq, Repr

/-- A frame of `len` bytes metered by buckets that are up to date. -/
def Bucket.meter (e : List Byte) (len : Nat) (b : Bucket) : Bucket × Colour :=
  let c := 65536 * (len + polOverhead e)
  if polMode e = 1 then
    if (c : Int) ≤ b.tc then ({ b with tc := b.tc - c, green := (b.green + 1) % 2 ^ 32 }, .green)
    else if c ≤ b.te then ({ b with te := b.te - c, yellow := (b.yellow + 1) % 2 ^ 32 }, .yellow)
    else ({ b with red := (b.red + 1) % 2 ^ 32 }, .red)
  else
    if b.te < c then ({ b with red := (b.red + 1) % 2 ^ 32 }, .red)
    else if b.tc < c then ({ b with te := b.te - c, yellow := (b.yellow + 1) % 2 ^ 32 }, .yellow)
    else ({ b with te := b.te - c, tc := b.tc - c, green := (b.green + 1) % 2 ^ 32 }, .green)

/-! ## Lengths at egress (R192) -/

/-- A frame's length as egress uses it: WH_STP_MAXLENn while its end is not written (R192); and whether it is known. -/
def State.entryLen (s : State) (e : QEntry) : Nat × Bool :=
  match e.own with
  | some bs => (bs.length, true)
  | none => match s.frame? e.src e.frame with
    | some f => if f.stat == .opening then (s.get (F.WH_STP_MAXLEN_BYTES e.src), false) else (f.bytes.length, true)
    | none => (0, true)

/-! ## Time gates (R205-R209) -/

/-- The timebase tick of a time in ns (R206), and the last ns whose tick is not above a tick. -/
def nsTick (t : Nat) : Nat := t * 5 / 2
def tickNs (k : Nat) : Nat := (2 * k + 1) / 5

/-- The entry in force `off` ns into a cycle, and where it ends in the cycle. -/
def gateEntry (cycle off : Nat) : Nat → Nat → List (Nat × Nat) → Nat × Nat × Nat
  | i, _, [] => (i, 0xFF, cycle)
  | i, start, [(g, _)] => (i, g, max cycle (start + 1))
  | i, start, (g, d) :: rest =>
    if off < start + d then (i, g, min cycle (start + d)) else gateEntry cycle off (i + 1) (start + d) rest

/-- Entry, gates and the tick of the next gate event of a list that started at `start` ns, at a tick. -/
def GateList.at_ (l : GateList) (start tick : Nat) : Nat × Nat × Nat :=
  if l.entries.isEmpty || l.cycle = 0 then (0, 0xFF, tick + 2 ^ 40)
  else
    let t := tickNs tick
    let off := (t - start) % l.cycle
    let (i, g, fin) := gateEntry l.cycle off 0 0 l.entries
    (i, g, nsTick (t - off + fin))

def State.gates (s : State) (n : Nat) : Gates := sget {} s.egress.gates n

def State.modGates (s : State) (n : Nat) (f : Gates → Gates) : State :=
  { s with egress := { s.egress with gates := smod {} s.egress.gates n f } }

/-- Entry, gates and the next tick at which they can change, takeover included (R207, R208). -/
def Gates.at_ (g : Gates) (tick : Nat) : Nat × Nat × Nat :=
  let own (k : Nat) := match g.oper with
    | some (l, st) => l.at_ st k
    | none => (0, 0xFF, k + 2 ^ 40)
  match g.pending with
  | some (l, st) =>
    if nsTick st ≤ tick then l.at_ st tick
    else
      let (i, b, nx) := own tick
      (i, b, min nx (nsTick st))
  | none => own tick

/-- A class's gate stays open from one tick up to another, by gates known at every tick. -/
def staysOpen (at_ : Nat → Nat × Nat × Nat) (c : Nat) : Nat → Nat → Nat → Bool
  | 0, _, _ => false
  | n + 1, tick, fin =>
    if fin ≤ tick then true
    else
      let (_, b, nx) := at_ tick
      bit b c && staysOpen at_ c n nx fin

/-- The intervals of one cycle with their gates, cut or held as R206 says. -/
def cycleSpans (cycle : Nat) : Nat → List (Nat × Nat) → List (Nat × Nat)
  | _, [] => []
  | start, [(g, _)] => [(g, cycle - start)]
  | start, (g, d) :: rest => (g, min d (cycle - start)) :: cycleSpans cycle (start + d) rest

/-- The longest run of open time of a class over two cycles; none where the class is always open (log 14). -/
def longestOpen (l : GateList) (c : Nat) : Option Nat :=
  let spans := (cycleSpans l.cycle 0 l.entries).filter fun x => 0 < x.2
  if l.entries.isEmpty || spans.all (fun x => bit x.1 c) then none
  else some ((spans ++ spans).foldl (fun (best, run) x =>
    let r := if bit x.1 c then run + x.2 else 0
    (max best r, r)) ((0, 0) : Nat × Nat)).1

/-- Timebase ticks that a frame's B = L + 20 bytes take at a link's rate (R202, R203). -/
def State.wireTicks (s : State) (n len : Nat) : Nat := ceilDiv (len + 20) (s.bytesPerTick n)

/-- The staging list of a link. -/
def State.stagedList (s : State) (n : Nat) : GateList :=
  { entries := (List.range (s.get (F.EG_GCL_CTRL_NENTRIES n))).map fun i =>
      (s.get (F.EG_GCL_0_GATES n i), s.raw (R.EG_GCL_4 n i))
    base := s.get64 (R.EG_GCL_BASE_LO n), cycle := s.raw (R.EG_GCL_CYCLE n) }

/-- The first time base + n × cycle whose tick is not below `now`; with a cycle of 0, the first such time (log 14). -/
def takeoverNs (l : GateList) (now : Nat) : Nat :=
  let t := ceilDiv (2 * now) 5
  if now ≤ nsTick l.base then l.base
  else if l.cycle = 0 then t else l.base + ceilDiv (t - l.base) l.cycle * l.cycle

/-! ## Eligibility (R200, R201, R203, R204) -/

/-- The shaper of a class: its entry, if the class is shaped by one in MODE 3. -/
def State.shaper (s : State) (n c : Nat) : Option Nat :=
  let e := s.getF (F.EG_SHAPE_SHAPER n c)
  if s.onF (F.EG_SHAPE_EN n c) && polMode (s.polEntry e) == 3 then some e else none

/-- A shaped class is eligible from a bucket of 0 on. -/
def State.shaperOk (s : State) (n c : Nat) : Bool :=
  match s.shaper n c with
  | some e => 0 ≤ ((s.bucket e).refresh (s.polEntry e) s.clk.cycle).tc
  | none => true

/-- Egress may begin to read a frame (R104). -/
def State.cutReady (s : State) (e : QEntry) : Bool :=
  match e.own with
  | some _ => true
  | none => match s.frame? e.src e.frame with
    | some f => s.endSeen f != .opening
        || (s.getF (F.WH_STP_CTRL_CUT e.src) != 0 && 256 * s.getF (F.WH_STP_CTRL_CUT e.src) ≤ s.visible f)
    | none => false

/-- Gates of a link at a tick to come: a list that is STAGED becomes the pending one at the next boundary (R203, R207). -/
def State.gateAt (s : State) (n tick : Nat) : Nat × Nat × Nat :=
  let g := s.gates n
  match (if s.on (F.EG_GCL_STATUS_STAGED n) then s.nextEdge else none) with
  | none => g.at_ tick
  | some e =>
    if tick < e then
      let (i, b, nx) := g.at_ tick
      (i, b, min nx e)
    else
      let l := s.stagedList n
      let oper := match g.pending with
        | some (p, st) => if nsTick st ≤ e then some (p, st) else g.oper
        | none => g.oper
      Gates.at_ { oper := oper, pending := some (l, takeoverNs l e) } tick

/-- A class's gate has stayed open since a tick. -/
def State.openSince (s : State) (n c tick : Nat) : Bool := staysOpen (s.gates n).at_ c 4096 tick s.clk.time

/-- A class whose head did not fit what was left of its window: barred until its gate has been closed (R203). -/
def State.isBarred (s : State) (n c : Nat) : Bool :=
  match sget 0 s.egress.barred (8 * n + c) with
  | 0 => false
  | k + 1 => s.openSince n c k

/-- A class is active: it holds a frame, its gate is open in a window it may still use, its shaper allows it (R201, R203). -/
def State.active (s : State) (n c : Nat) : Bool :=
  !(s.classQ n c).isEmpty && bit ((s.gates n).at_ s.clk.time).2.1 c && s.shaperOk n c && !s.isBarred n c

/-- A frame started now would end before its class's gate closes (R203). -/
def State.fits (s : State) (n c : Nat) (e : QEntry) : Bool :=
  staysOpen (s.gateAt n) c 4096 s.clk.time (s.clk.time + s.wireTicks n (s.entryLen e).1)

/-- A class can send its head frame now. -/
def State.eligible (s : State) (n c : Nat) : Bool :=
  match s.classQ n c with
  | [] => false
  | e :: _ => s.active n c && s.cutReady e && s.fits n c e

/-- A class whose head could start but for what is left of its window is not eligible until the next one. -/
def State.barClass (s : State) (n c : Nat) : State :=
  match s.classQ n c with
  | [] => s
  | e :: _ =>
    if s.active n c && s.cutReady e && !s.fits n c e then
      { s with egress := { s.egress with barred := sset 0 s.egress.barred (8 * n + c) (s.clk.time + 1) } }
    else s

/-- A head frame too long for any window of its class is dropped (R204). -/
def State.gateDrop (s : State) (n c : Nat) : State :=
  match s.classQ n c, (s.gates n).oper with
  | e :: rest, some (l, _) => match longestOpen l c with
    | some w =>
      if w != 0 && 5 * w * s.bytesPerTick n < 2 * ((s.entryLen e).1 + 20) then
        ((s.setClassQ n c rest).bump (F.EG_GATE_DROPS n c)).releaseEntry e
      else s
    | none => s
  | _, _ => s

/-- Every head of a link's classes that can never start is dropped. -/
def State.gateDrops (s : State) (n : Nat) : State :=
  (List.range 8).foldl (fun t c => (List.range (t.classQ n c).length).foldl (fun u _ => u.gateDrop n c) t) s

/-! ## WFQ (R202) -/

def State.vtime (s : State) (n : Nat) : Nat := sget 0 s.egress.vtime n

/-- The head of a class with its tag set. -/
def State.setTag (s : State) (n c : Nat) (tag : Option Nat) : State :=
  s.setClassQ n c (modAt (s.classQ n c) 0 fun e => { e with tag := tag, tagAt := s.clk.time })

/-- The finish tag of a head that starts at the virtual time. -/
def State.finishTag (s : State) (n c : Nat) (e : QEntry) : Nat :=
  (s.vtime n + 65536 * ((s.entryLen e).1 + 20) / max 1 (s.getF (F.EG_TC_WEIGHT n c))) % 2 ^ 64

/-- The head of a class brought up to date: an active class keeps the tag it has had since then, or gets one at the virtual time; an
inactive one loses it. V moves only when a frame is selected, so that a class that was inactive for a while starts at V here. -/
def State.tagClass (s : State) (n c : Nat) : State :=
  match s.classQ n c with
  | [] => s
  | e :: _ =>
    if !s.active n c then s.setTag n c none
    else if e.tag.isSome && s.openSince n c e.tagAt then s.setTag n c e.tag
    else s.setTag n c (some (s.finishTag n c e))

def State.tagClasses (s : State) (n : Nat) : State := (List.range 8).foldl (fun t c => t.tagClass n c) s

/-- What a frame that has become the head of a class goes through: R204, and its tag. -/
def State.newHeads (s : State) (n : Nat) : State := (s.gateDrops n).tagClasses n

/-- The tag of a frame that heads a class, taken before its length changes (R192, R202). -/
def State.tagHead (s : State) (src frame : Nat) : State :=
  (s.egress.queues.filter fun x => x.2.head?.any fun e => e.own.isNone && e.src == src && e.frame == frame).foldl
    (fun t x => t.tagClass (x.1 / 8) (x.1 % 8)) s

/-- Every link's tags brought up to date, before a boundary changes what later ones are computed from (R212). -/
def State.tagAll (s : State) : State :=
  (s.egress.queues.filter fun x => !x.2.isEmpty).foldl (fun t x => t.tagClass (x.1 / 8) (x.1 % 8)) s

def State.strict (s : State) (n c : Nat) : Bool := bit (s.getF (F.EG_LINK_CTRL_STRICT n)) c

end Sys2Proof.Machine
end

