-- ==== Sys2Proof/Machine/Intake.lean ====
section
/-! DEFINITION. Wellhead intake: standpipes, look-aside head frames, rewind marks, extraction profiles, the dealer (chapter
03, R92-R122). -/

namespace Sys2Proof.Machine

/-! ## Rewind marks (R107) -/

/-- A rewind mark given up: its space is freed, and its frame takes the default action in place of a second pass. What a second
pass dealt in the same cycle would need is kept: the dealing wins (R122). -/
def State.loseMark (s : State) (n : Nat) (f : SpFrame) : State :=
  let s1 := s.modFrame n f.id fun x => { x with marked := false, released := true }
  let s2 := (s1.bump (F.WH_STP_MARK_LOST n)).setPasses (s1.intake.passes.map fun p =>
    match s.entryOf n f.id with
    | some e => if p.link = n && p.seq = e.seq && !p.second && e.second.isSome
        then { p with result := .dflt, resultAt := s.clk.cycle } else p
    | none => p)
  let s3 := match s.entryOf n f.id with
    | some e => s2.modEntry n e.seq fun e =>
        { e with markLost := true, lost := e.second.map fun p => (s.clk.cycle, p), second := none }
    | none => s2
  { s3 with intake := { s3.intake with marksLost := bumpMap s3.intake.marksLost n 1 } }

/-- Marks are given up while a MODE 2 standpipe has less than 4 KiB free and its oldest unfreed data is a marked head. -/
def State.giveUpN (s : State) (n : Nat) : Nat → State
  | 0 => s
  | k + 1 =>
    if s.mode n == 2 && 196608 < s.pipeFill n + 4096 then
      match s.pipe n with
      | f :: _ => if f.marked then (s.loseMark n f).giveUpN n k else s
      | [] => s
    else s

/-- The marks that a standpipe has to give up: looked at wherever its data grows, a head is marked or its front is freed. -/
def State.giveUp (s : State) (n : Nat) : State := s.giveUpN n (s.pipe n).length

/-! ## The standpipe writer (R97, R99, R105) -/

/-- A head frame that R97 accepts: ethertype, length, TYPE, VERSION, LENGTH. -/
def headFrameOk (bs : List Byte) : Bool :=
  be16 bs 12 == 0x88B5 && bs.length == 164 && byteAt bs 14 == 1 && byteAt bs 15 == 1 && 5 ≤ fieldAt bs 18 2


/-- A frame in which a word did not fit the free space: counted, and for the stroke's LADDER_YIELD (R119). -/
def State.fullCount (s : State) (n : Nat) : State :=
  let s1 := s.bump (F.WH_STP_FULL_DROPS n)
  { s1 with intake := { s1.intake with fullDrops := bumpMap s1.intake.fullDrops n 1 } }

/-- The frame that the writer has open, a new one where it has none. -/
def State.openOrNew (s : State) (n : Nat) : State × SpFrame :=
  match s.openFrame n with
  | some f => (s, f)
  | none =>
    let f : SpFrame := { id := s.intake.nextId, bytes := [] }
    (({ s with intake := { s.intake with nextId := s.intake.nextId + 1 } }).setPipe n (s.pipe n ++ [f]), f)

/-- Granules that a link's other frames leave free, as its writer sees them (R109). -/
def State.room (s : State) (n id : Nat) : Nat := 12288 - (granulesOf ((s.pipe n).filter (·.id != id)) + s.lagging n)

/-- The writer takes a frame's bytes so far: all of them, or those before the first that does not fit or that passes
WH_STP_MAXLENn, where it aborts the frame and discards its remainder. -/
def State.writeFrame (s : State) (n : Nat) (bs : List Byte) : State :=
  let (s1, f) := s.openOrNew n
  let room := s1.room n f.id
  let fit := if (bs.length + 15) / 16 ≤ room then bs.length else 128 * (room / 8)
  let top := s1.get (F.WH_STP_MAXLEN_BYTES n)
  let put (k : Nat) : State := s1.writeSp n f.id fun x => { x with bytes := bs.take k }
  let cut (k : Nat) (count : State → State) : State :=
    ((count (put k)).abortFrame n { f with bytes := bs.take k }).setDiscard n true
  if bs.length ≤ fit && bs.length ≤ top then put bs.length
  else if fit < bs.length && fit ≤ top then cut fit fun t => t.fullCount n
  else cut top fun t => t.errCount n bs

/-- The end of a frame in the standpipe: its end status, and what waited for its length (R100, R192, R200). -/
def State.endFrame (s : State) (n : Nat) (bs : List Byte) (good : Bool) : State :=
  match s.openFrame n with
  | none => s
  | some f =>
    if good && (s.mode n != 2 || headFrameOk bs) then
      let s1 := ((s.tagHead n f.id).setLen n f.id bs.length).modFrame n f.id fun x =>
        { x with stat := .good, wrote := s.clk.real }
      { s1 with egress := { s1.egress with
          ready := s1.egress.ready.map fun r =>
            if r.src == n && r.frame == f.id && r.at_.isNone then { r with at_ := some s.clk.cycle } else r } }
    else (s.errCount n bs).abortFrame n f

/-- A frame's chunk arrives on a link whose light reaches the 880 (R92, R93, R95, R99, R105, log 8). The MAC hands over
nothing of a frame shorter than 64 bytes (R101). -/
def State.receive (s : State) (n : Nat) (first : Bool) (chunk : List Byte) (fin : Option Bool) : State :=
  let s0 := if first then (if (s.rx n).isEmpty then s else s.rxCut n) else s
  if (!first && (s.rx n).isEmpty) || chunk.isEmpty then s
  else
    let bs := (s0.rx n ++ chunk)
    let s1 := (s0.setRx n bs).setDiscard n (sget false s0.intake.discarding n)
    let at_ := if first then s.clk.time else sget 0 s0.intake.rxAt n
    let s1 := { s1 with intake := { s1.intake with rxAt := sset 0 s1.intake.rxAt n at_ } }
    let takes := s1.mode n == 1 || s1.mode n == 2
    let s2 := if bs.length < 64 || !takes || sget false s1.intake.discarding n then s1 else s1.writeFrame n bs
    let s3 := match fin with
      | none => s2
      | some good =>
        let s4 := if sget false s2.intake.discarding n then s2 else s2.endFrame n bs good
        let stamp := if ptpEvent bs then some (s4.rxStamp n at_) else none
        let s5 := if 64 ≤ bs.length && s4.ptpTakes n bs then s4.emit (.ptpCopy n bs stamp) else s4
        (s5.setRx n []).setDiscard n false
    s3.giveUp n

/-- FEC codewords received on a link: corrected ones and undecodable ones count (R366). -/
def State.countWords (s : State) (n : Nat) (fec : List Bool) : State :=
  (s.bump (F.LK_FEC_CORR n) (fec.filter id).length).bump (F.LK_FEC_UNCORR n) (fec.filter not).length

def execFrameReceive (link : Fin 24) (first : Bool) (chunk : FrameChunk) (fin : Option Bool) (s : State) : Res :=
  whenLive s fun s => if s.lit link then (s.countWords link chunk.fec).receive link first chunk.bytes fin else s

/-! ## Flush (R106) -/

/-- FLUSH empties the standpipe: every frame in it is discarded and counted, none of them leaves, their verdicts are discarded
at the reorder stage. DESIGN CHOICE (log 34): R106 speaks of flushed heads in lanes; a frame that waits between its passes, with
its second pass asked for and not dealt, has no second pass any more, and its deadline's default action, counted late, ends
it. -/
def State.flush (s : State) (n : Nat) : State :=
  let fs := (s.pipe n).filter fun f => !f.released && f.stat != .aborted
  let open_ := (s.openFrame n).isSome
  let s1 := fs.foldl (fun t f =>
    let t1 := (t.setLen n f.id f.bytes.length).cutFrame n f.id f.bytes
    match t1.entryOf n f.id with
    | some e => t1.modEntry n e.seq fun e => { e with flushed := true, second := none }
    | none => t1) s
  ((s1.setPipe n []).bump (F.WH_STP_FLUSH_DROPS n) fs.length).setDiscard n (open_ || sget false s.intake.discarding n)

def execStandpipeFlush (link : Fin 24) (s : State) : Res :=
  whenWritable s (R.WH_STP_CTRL link) fun s => s.flush link

/-! ## Modes (R93, R471) -/

/-- A write of MODE: discarded while the link is up, for value 3, and where its pair, engaged, would gain or lose an Ethernet
link in MODE 1. -/
def State.setMode (s : State) (n m : Nat) : State :=
  let was := s.ethernet n && s.mode n == 1
  let now := s.ethernet n && m == 1
  if m = 3 || s.linkUp n || (s.get (F.LK_PAIR_STATUS_STATE (n / 2)) != 0 && was != now) then s
  else s.put (F.WH_LINK_CTRL_MODE n) m

def execLinkModeWrite (link : Fin 24) (mode : Fin 4) (s : State) : Res :=
  whenWritable s (R.WH_LINK_CTRL link) fun s => s.setMode link mode

/-! ## Feature-bank words (R112, R151, R167) -/

/-- A word of the feature bank that carries an epoch: the active bank, or the former one in the staging registers. -/
def State.fbWord (s : State) (epoch dflt off : Nat) : Nat :=
  if epoch = s.raw R.WH_FBANK_EPOCH then (sget (BitVec.ofNat 32 dflt) s.banks.fActive off).toNat
  else (sget (BitVec.ofNat 32 dflt) s.regs off).toNat

/-- A profile's control word (R113): its NFIELDS resets to 1. -/
def State.profCtrl (s : State) (epoch p : Nat) : Nat := s.fbWord epoch 0x10000 (R.WH_PROF_CTRL p)

def State.profValid (s : State) (epoch p : Nat) : Bool := bit (s.profCtrl epoch p) 0
def State.nfields (s : State) (epoch p : Nat) : Nat := bits (s.profCtrl epoch p) 16 6

/-- A descriptor's low word and mask (R114). -/
def State.desc (s : State) (epoch p f : Nat) : Nat × Nat :=
  (s.fbWord epoch 0 (R.WH_PROF_FIELD_0 p f), s.fbWord epoch 0 (R.WH_PROF_FIELD_4 p f))

def descOff (d : Nat) : Nat := bits d 0 7
def descBit (d : Nat) : Nat := bits d 7 3
def descWidth (d : Nat) : Nat := bits d 10 5 + 1
def descValid (d : Nat) : Bool := bit d 15
def descTransport (d : Nat) : Bool := bit d 16

/-- The last byte of a field (R114). -/
def descEnd (d : Nat) : Nat := descOff d + (descBit d + descWidth d - 1) / 8

/-! ## Selection, fragments, extraction (R111, R115-R117) -/

/-- Whether a selection entry matches (R111). -/
def State.selMatch (s : State) (epoch link : Nat) (head : List Byte) (i : Nat) : Bool :=
  let w8 := s.fbWord epoch 0 (R.WH_PROFILE_SEL_8 i)
  let w4 := s.fbWord epoch 0 (R.WH_PROFILE_SEL_4 i)
  let e1 := bits w4 0 16
  bit w8 31 && bit (s.fbWord epoch 0 (R.WH_PROFILE_SEL_0 i)) link && 14 ≤ head.length && be16 head 12 == e1
    && (!isTag e1 || bit w8 8 || (18 ≤ head.length && be16 head 16 == bits w4 16 16))
    && s.profValid epoch (bits w8 0 6)

/-- The profile of a first pass: the lowest-index entry that matches. -/
def State.selectProfile (s : State) (epoch link : Nat) (head : List Byte) : Option Nat :=
  ((List.range 256).find? fun i => s.selMatch epoch link head i).map fun i =>
    bits (s.fbWord epoch 0 (R.WH_PROFILE_SEL_8 i)) 0 6

/-- The fragment test (R116): bytes beyond the head find no fragment. -/
def isFragment (ctrl : Nat) (head : List Byte) : Bool :=
  let o := bits ctrl 4 7
  match bits ctrl 2 2 with
  | 1 => o + 8 ≤ head.length && (bit (byteAt head (o + 6)) 5 || be16 head (o + 6) % 8192 != 0)
  | 2 => o < head.length && byteAt head o == 44
  | _ => false

/-- The value of a field (R115). -/
def extract (head : List Byte) (d mask : Nat) : Nat :=
  let n := descEnd d - descOff d + 1
  let v := beNat ((head.drop (descOff d)).take n)
  (v / 2 ^ (8 * n - descBit d - descWidth d) % 2 ^ descWidth d) &&& mask

/-- What a pass's parser comes to (R117). -/
inductive Parsed where
  | noProfile
  | short (frag : Bool)
  | fields (frag : Bool) (fs : List (Nat × Bool))
  deriving DecidableEq, Repr

/-- Field values with their missing bits, or the failure that takes the default action. -/
def State.parse (s : State) (epoch prof : Nat) (head : List Byte) : Parsed :=
  if !s.profValid epoch prof then .noProfile
  else
    let frag := isFragment (s.profCtrl epoch prof) head
    let ds := (List.range (s.nfields epoch prof)).map fun f => s.desc epoch prof f
    let missing (d : Nat) : Bool := frag && descTransport d
    if ds.any fun (d, _) => descValid d && !missing d && head.length ≤ descEnd d then .short frag
    else .fields frag (ds.map fun (d, m) =>
      if !descValid d then (0, false) else if missing d then (0, true) else (extract head d m, false))

/-! ## Keys latched at dealing (R125, R142, R129) -/

/-- The bytes of one key field: ceil(width ÷ 8) bytes of its value, zeros where it is missing. -/
def keyBytes (d : Nat) (v : Nat × Bool) : List Byte := natBytes ((descWidth d + 7) / 8) (if v.2 then 0 else v.1)

/-- A pass's flow key, if its profile has one. -/
def State.flowKey (s : State) (epoch prof : Nat) (fs : List (Nat × Bool)) : Option (List Byte) :=
  let hi := s.fbWord epoch 0 (R.WH_FKEY_4 prof)
  let mask := s.fbWord epoch 0 (R.WH_FKEY_0 prof) + 2 ^ 32 * bits hi 0 16
  if !bit hi 31 then none
  else some (((List.range fs.length).filter (bit mask ·)).map fun f =>
    keyBytes (s.desc epoch prof f).1 (fs.getD f (0, true))).flatten

/-- A pass's sender key: kind and address, in transmission order (R142). -/
def State.senderKey (s : State) (epoch prof : Nat) (head : List Byte) : Option (Nat × List Byte) :=
  let w := s.fbWord epoch 0 (R.WH_FKEY_C prof)
  let kind := bits w 0 2
  let (o, n) := match kind with
    | 0 => (6, 6)
    | 1 => (bits w 2 7, 4)
    | _ => (bits w 2 7, 16)
  if !bit w 31 || head.length < o + n then none else some (kind, (head.drop o).take n)

/-- The tallies a pass adds to: field and mask of each enabled tally, in place. -/
def State.tallyDefs (s : State) (epoch prof : Nat) : List (Nat × Nat) :=
  (List.range 4).map fun c =>
    let w := s.fbWord epoch 0 (R.WH_FKEY_10 prof c)
    if bit w 31 then (bits w 0 6, s.fbWord epoch 0 (R.WH_FKEY_14 prof c)) else (64, 0)

/-! ## The dealer (R119-R121) -/

/-- A pass parsed as it is dealt (R111, R117): its counts, its keys, or the default action. -/
def State.startPass (s : State) (link : Nat) (second : Bool) (e : RoEntry) (prof : Option Nat) : State :=
  let epoch := e.fEpoch
  let head := e.head
  let base : Pass :=
    { link := link, seq := e.seq, second := second, lane := e.lane, frame := e.frame, dealt := s.clk.cycle
      time := e.time, stroke := e.stroke, since := e.since, len := e.len, epoch := epoch
      profile := prof.getD 0, frag := false, fields := [], flow := .done, resultAt := s.clk.cycle }
  let add (t : State) (p : Pass) : State := t.setPasses (t.intake.passes ++ [p])
  match prof.map fun p => (p, s.parse epoch p head) with
  | none | some (_, .noProfile) => add (s.bump (F.WH_PARSE_NOPROF link)) { base with result := .dflt }
  | some (_, .short frag) =>
    add ((if frag then s.bump (F.WH_PARSE_FRAG link) else s).bump (F.WH_PARSE_SHORT link))
      { base with result := .dflt, frag := frag }
  | some (p, .fields frag fs) =>
    let key := s.flowKey epoch p fs
    let skey := s.senderKey epoch p head
    add (if frag then s.bump (F.WH_PARSE_FRAG link) else s) { base with
      frag := frag, fields := fs, key := key, skey := skey, flow := .pending
      keyspace := bits (s.fbWord epoch 0 (R.WH_FKEY_4 p)) 16 6, tallies := s.tallyDefs epoch p }

/-- Passes ready for the tree stage in a lane (R177). -/
def State.treeReady (s : State) (lane : Nat) : List Pass :=
  sortBy (fun p => p.ready.getD 0) (s.intake.passes.filter fun p => p.lane == lane && p.ready.isSome)

/-- A lane takes a head this cycle: in service, no head dealt to it yet, its tree queue not full (R119, R177). -/
def State.laneOpen (s : State) (l : Nat) : Bool :=
  bit (s.raw R.WH_LANES) l && !(s.intake.dealCycle == s.clk.cycle && s.intake.dealLanes.contains l)
    && (s.treeReady l).length < 32

/-- The next lane of the rotation. -/
def State.nextLane (s : State) : Option Nat :=
  ((List.range 24).map fun i => (s.intake.lanePtr + i) % 24).find? fun l => s.laneOpen l

/-- Heads dealt of a link in this cycle. -/
def State.dealtNow (s : State) (n : Nat) : Nat :=
  if s.intake.dealCycle = s.clk.cycle then sget 0 s.intake.dealt n else 0

/-- The profile of the second pass that a frame waits for: asked for in the cycle after its rule result (R156), its mark not given
up before this cycle (R122). -/
def State.awaits (s : State) (e : RoEntry) : Option Nat :=
  if s.clk.cycle ≤ e.secondAt then none
  else match e.second, e.lost with
    | some p, _ => some p
    | none, some (c, p) => if c = s.clk.cycle then some p else none
    | none, none => none

/-- The second pass that a link has to deal: its oldest frame's first. -/
def State.secondOf (s : State) (n : Nat) : Option RoEntry :=
  if 2 ≤ s.dealtNow n then none else (s.reorder n).find? fun e => (s.awaits e).isSome && !s.entered n e

/-- Bit of a link in WH_RATE_RED: no effect while the link is privileged (R176). -/
def State.rateRed (s : State) (n : Nat) : Bool := bit (s.wordF R.WH_RATE_RED).toNat n && !s.priv n

/-- The first pass that a link has to deal: its oldest undealt frame, once its head is ready. -/
def State.firstOf (s : State) (n : Nat) : Option SpFrame :=
  if 2 ≤ s.dealtNow n || 4096 ≤ (s.reorder n).length
    || (s.rateRed n && s.clk.cycle < sget 0 s.intake.nextRed n) then none
  else match (s.pipe n).find? fun f => !f.dealt && !f.released with
    | some f => if s.headSeen (s.mode n == 2) f then some f else none
    | none => none

/-- The head that the dealer takes next: link, then a second pass or a first pass (R119). -/
def State.nextHead (s : State) : Option (Nat × (RoEntry ⊕ SpFrame)) :=
  let links := List.range 24
  let sec (pr : Bool) := firstSome (fun n => if s.priv n == pr then (s.secondOf n).map fun e => (n, Sum.inl e) else none) links
  let fst (pr : Bool) := firstSome (fun n => if s.priv n == pr then (s.firstOf n).map fun f => (n, Sum.inr f) else none) links
  firstSome (fun g => g) [sec true, fst true, sec false, fst false]

/-- The head as the parser sees it: the frame's own, or the HEAD of a head frame (R98, R101). -/
def headOf (look : Bool) (f : SpFrame) : List Byte :=
  if look then ((f.bytes.drop 32).take (min (fieldAt f.bytes 18 2 - 4) 128))
  else if f.stat == .good then f.bytes.take (min (f.bytes.length - 4) 128) else f.bytes.take 128

/-- The lane slot that a deal takes. -/
def State.takeSlot (s : State) (n lane : Nat) : State :=
  let i := s.intake
  let same := i.dealCycle == s.clk.cycle
  { s with intake := { i with
      lanePtr := (lane + 1) % 24, dealCycle := s.clk.cycle
      dealLanes := if same then lane :: i.dealLanes else [lane]
      dealt := bumpMap (if same then i.dealt else []) n 1
      laneSlots := if s.priv n then bumpMap i.laneSlots n 1 else i.laneSlots } }

/-- The stroke of a frame dealt in this cycle, and the ticks since the boundary that opened it; in a boundary cycle the stroke that
opens in it, whose boundary actions follow (R28, R129, R273). -/
def State.dealtStroke (s : State) : Nat × Option Nat :=
  if s.nextEdge == some s.clk.time then (if s.clk.strokes then s.clk.now + 1 else s.get64 R.STK_BASE_LO, some 0)
  else (s.strokeOr0, if s.clk.strokes then some (s.clk.time - s.clk.openTime) else none)

/-- A first pass dealt: a reorder entry, the epochs in force, the mark its profile asks for (R102, R107, R120, R121). -/
def State.dealFirst (s : State) (n lane : Nat) (f : SpFrame) : State :=
  let look := s.mode n == 2
  let fe := s.raw R.WH_FBANK_EPOCH
  let seq := sget 0 s.intake.nextSeq n
  let head := headOf look f
  let prof := s.selectProfile fe n head
  let marked := match prof with
    | some p => bit (s.profCtrl fe p) 1
    | none => false
  let e : RoEntry := { seq := seq, frame := f.id, dealt := s.clk.cycle, time := s.clk.time, stroke := s.dealtStroke.1
                       since := s.dealtStroke.2
                       rEpoch := s.raw R.WH_RBANK_EPOCH, eEpoch := s.raw R.WH_EBANK_EPOCH, fEpoch := fe
                       rBank := s.get F.WH_RBANK_STATUS_ACTIVE, eBank := s.get F.WH_EBANK_STATUS_ACTIVE
                       capMap := s.capture.mapNo
                       len := if look then some (fieldAt f.bytes 18 2)
                         else if s.endSeen f == .opening then none else some f.bytes.length
                       port := fieldAt f.bytes 16 2, lseq := fieldAt f.bytes 20 4, stamp := fieldAt f.bytes 24 8
                       head := head, aborted := f.stat == .aborted, lane := lane }
  let s1 := (s.takeSlot n lane).setReorder n (s.reorder n ++ [e])
  let s2 := { s1 with intake := { s1.intake with
    nextSeq := sset 0 s1.intake.nextSeq n ((seq + 1) % 4096)
    nextRed := if s.rateRed n then sset 0 s1.intake.nextRed n (s.clk.cycle + 2) else s1.intake.nextRed } }
  let s3 := s2.modFrame n f.id fun x =>
    { x with dealt := true, marked := marked, released := x.released || (look && !marked) }
  (s3.startPass n false e prof).giveUp n

/-- A mark given up in the cycle in which its second pass is dealt was not lost (R122). -/
def State.unlose (s : State) (n : Nat) (e : RoEntry) : State :=
  if e.lost.isNone then s
  else
    let f := F.WH_STP_MARK_LOST n
    let s1 := s.put f (s.get f + (2 ^ f.w - 1))
    { s1 with intake := { s1.intake with marksLost := smod 0 s1.intake.marksLost n (· - 1) } }

/-- A second pass dealt from its rewind mark, under its first pass's epochs (R120, R166); the mark is released. -/
def State.dealSecond (s : State) (n lane : Nat) (e : RoEntry) : State :=
  let s1 := ((s.unlose n e).takeSlot n lane).modEntry n e.seq fun x =>
    { x with second := none, lost := none, markLost := false, two := true }
  let s2 := if s.mode n == 2 then s1.modFrame n e.frame fun x => { x with marked := false, released := true } else s1
  ((s2.startPass n true { e with lane := lane } (s.awaits e)).sweep).giveUp n

/-- One head dealt in this cycle, if one can be; none is dealt once more in a boundary cycle, whose heads came before the
boundary (R120). -/
def State.dealOne (s : State) : Option State :=
  if s.clk.strokes && s.clk.cycle == s.clk.openCycle then none
  else match s.nextHead, s.nextLane with
    | some (n, .inl e), some l => some (s.dealSecond n l e)
    | some (n, .inr f), some l => some (s.dealFirst n l f)
    | _, _ => none

/-- The dealer deals the next head, in this cycle or in one of the next two, where limits per cycle hold it back. -/
def State.deal (s : State) : State :=
  firstSome (fun k => (s.reach (s.clk.cycle + k)).bind State.dealOne) [0, 1, 2] |>.getD s

def execHeadDeal (s : State) : Res := whenLive s State.deal

end Sys2Proof.Machine
end

