-- ==== Sys2Proof/Machine/Flow.lean ====
section
/-! DEFINITION. The flow table and the sender table: lookup, insertion, relocation, aging, sender learning (chapter 04,
R123-R146). -/

namespace Sys2Proof.Machine

/-! ## Hashes (R126) -/

/-- A key's hash input: its keyspace byte, then the key. -/
def hashIn (keyspace : Nat) (key : List Byte) : List Byte := BitVec.ofNat 8 keyspace :: key

/-- The distance between an entry's two buckets. -/
def hashStep (fp : Nat) : Nat := 0x9E3779B1 * fp % 2 ^ 32 / 2 ^ 13

/-- One way of finding a key: the bucket set, its seeds. -/
structure SetSeeds where
  set : Nat
  seedb : Nat
  seedf : Nat
  deriving DecidableEq, Repr

/-- Fingerprint and way-0 bucket of a key under a set's seeds. -/
def SetSeeds.fp (v : SetSeeds) (ks : Nat) (key : List Byte) : Nat := crc32c v.seedf (hashIn ks key)
def SetSeeds.b0 (v : SetSeeds) (ks : Nat) (key : List Byte) : Nat := crc32c v.seedb (hashIn ks key) % 2 ^ 19
def SetSeeds.bucket (v : SetSeeds) (ks : Nat) (key : List Byte) (way : Nat) : Nat :=
  if way = 0 then v.b0 ks key else v.b0 ks key ^^^ hashStep (v.fp ks key)

/-- A rehash is in progress. -/
def State.rehashing (s : State) : Bool := s.on F.WH_FT_STATUS_REHASH

/-- The set in use, with the seeds in force. -/
def State.oldSet (s : State) : SetSeeds :=
  ⟨s.get F.WH_FT_STATUS_ACTIVE_SET, s.raw R.WH_FT_SEEDB, s.raw R.WH_FT_SEEDF⟩

/-- The set that a rehash fills. -/
def State.newSet (s : State) : SetSeeds :=
  ⟨1 - s.get F.WH_FT_STATUS_ACTIVE_SET, s.raw R.WH_FT_NEW_SEEDB, s.raw R.WH_FT_NEW_SEEDF⟩

/-- The set that inserts place entries in (R137). -/
def State.insertSet (s : State) : SetSeeds := if s.rehashing then s.newSet else s.oldSet

/-! ## Slots (R127) -/

def slotFp (v : Nat) : Nat := bits v 0 32
def slotIndex (v : Nat) : Nat := bits v 32 23
def slotValid (v : Nat) : Bool := bit v 55
def slotKeyspace (v : Nat) : Nat := bits v 57 6

/-- A valid slot's 64 bits. -/
def mkSlot (fp index : Nat) (static : Bool) (ks : Nat) : Nat :=
  fp % 2 ^ 32 + 2 ^ 32 * index + 2 ^ 55 + 2 ^ 56 * b2n static + 2 ^ 57 * (ks % 64)

/-- The eight slots of a bucket; an uncorrectable bucket is rewritten empty with fresh codes (R141). -/
def State.rdBucket (s : State) (set way b : Nat) : State × List Nat :=
  let (s1, bs, marks) := s.rdTab (bucketOff set way b) 64
  if marks.any id then (s1.wrTab (bucketOff set way b) (zeros 64), List.replicate 8 0)
  else (s1, (List.range 8).map fun i => fieldAt bs (8 * i) 8)

/-- A slot written. -/
def State.wrSlot (s : State) (set way b slot v : Nat) : State := s.wrTab (bucketOff set way b + 8 * slot) (natBytes 8 v)

/-- The relocator has claimed a bucket: one of a victim's, or the one with the free slot that its plan found (R134). -/
def State.claimed (s : State) (set way b : Nat) : Bool :=
  s.flow.chain.any fun c => c.set == set && (c.victims ++ c.dst.toList).any fun p => p.1 == way && p.2.1 == b

/-- The first free slot of a key's two buckets in a set, in bucket order, claimed buckets skipped (R131). -/
def State.freeSlot (s : State) (v : SetSeeds) (ks : Nat) (key : List Byte) : State × Option (Nat × Nat × Nat) :=
  let free (l : List Nat) := (List.range 8).find? fun i => !slotValid (l.getD i 0)
  let (s1, l0) := s.rdBucket v.set 0 (v.bucket ks key 0)
  match if s.claimed v.set 0 (v.bucket ks key 0) then none else free l0 with
  | some i => (s1, some (0, v.bucket ks key 0, i))
  | none =>
    let (s2, l1) := s1.rdBucket v.set 1 (v.bucket ks key 1)
    if s.claimed v.set 1 (v.bucket ks key 1) then (s2, none)
    else (s2, (free l1).map fun i => (1, v.bucket ks key 1, i))

/-! ## What a frame brings to its context (R129) -/

/-- The frame that a pass brings. -/
def Pass.frameIn (p : Pass) : FrameIn :=
  { time := p.time, stroke := p.stroke % 2 ^ 32
    tally := p.tallies.map fun (f, m) =>
      f < 48 && (p.fields.getD f (0, true)).1 &&& m != 0 && !(p.fields.getD f (0, true)).2 }

/-! ## Lookup (R130, R138, R141) -/

/-- What a lookup comes to. -/
inductive Found where
  | hit (ctx : Nat)
  | poisoned (ctx : Nat)
  | miss
  deriving DecidableEq, Repr

/-- The slots of one bucket compared with a key. -/
def State.scanSlots (s : State) (ks : Nat) (key : List Byte) (fp : Nat) : List Nat → State × Found
  | [] => (s, .miss)
  | v :: vs =>
    if slotValid v && slotKeyspace v == ks && slotFp v == fp then
      let (s1, c, marks) := s.rdCtx (slotIndex v)
      if marks.any id then (s1, .poisoned (slotIndex v))
      else if ctxKey c = key then (s1, .hit (slotIndex v))
      else (s1.bump F.WH_FT_FALSE_MATCH).scanSlots ks key fp vs
    else s.scanSlots ks key fp vs

/-- A list of buckets read, each given by set, way, bucket and fingerprint: the fingerprint and the slots of each. -/
def State.readBuckets (s : State) : List (Nat × Nat × Nat × Nat) → State × List (Nat × List Nat)
  | [] => (s, [])
  | (set, way, b, fp) :: rest =>
    let (s1, l) := s.rdBucket set way b
    let (s2, ls) := s1.readBuckets rest
    (s2, (fp, l) :: ls)

/-- Buckets that have been read searched in order. -/
def State.scanBuckets (s : State) (ks : Nat) (key : List Byte) : List (Nat × List Nat) → State × Found
  | [] => (s, .miss)
  | (fp, l) :: rest => match s.scanSlots ks key fp l with
    | (s1, .miss) => s1.scanBuckets ks key rest
    | r => r

/-- The buckets that a lookup reads, in bucket order. -/
def State.lookupBuckets (s : State) (ks : Nat) (key : List Byte) : List (Nat × Nat × Nat × Nat) :=
  let of (v : SetSeeds) := [0, 1].map fun w => (v.set, w, v.bucket ks key w, v.fp ks key)
  let old := s.oldSet
  let cur := s.get F.WH_FT_CURSOR
  if !s.rehashing then of old
  else of s.newSet ++ (if old.bucket ks key 0 < cur && old.bucket ks key 1 < cur then [] else of old)

/-- A key looked up: all its buckets are read, then their slots compared (R130). -/
def State.lookup (s : State) (ks : Nat) (key : List Byte) : State × Found :=
  let (s1, ls) := s.readBuckets (s.lookupBuckets ks key)
  s1.scanBuckets ks key ls

/-! ## Insertion (R131, R132) -/

/-- The context index that the next insert takes: never-used ones first, then the one freed longest ago, after 4,096 cycles. -/
def State.nextIndex (s : State) : Option Nat :=
  if s.flow.fresh < 8388608 then some s.flow.fresh
  else match s.flow.freed with
    | (i, c) :: _ => if c + 4096 ≤ s.clk.cycle then some i else none
    | [] => none

/-- The free list without the index that `nextIndex` names. -/
def State.takeIndex (s : State) : State :=
  if s.flow.fresh < 8388608 then { s with flow := { s.flow with fresh := s.flow.fresh + 1 } }
  else { s with flow := { s.flow with freed := s.flow.freed.drop 1 } }

/-- An index back on the free list. -/
def State.freeIndex (s : State) (i : Nat) : State :=
  { s with flow := { s.flow with freed := s.flow.freed ++ [(i, s.clk.cycle)] } }

/-- An insert remembered for 1,024 core cycles. -/
def State.rememberInsert (s : State) (ks : Nat) (key : List Byte) (i : Nat) : State :=
  { s with flow := { s.flow with
      recent := (s.clk.cycle, ks, key, i) :: s.flow.recent.filter fun e => s.clk.cycle < e.1 + 1024 } }

/-- The context that an insert of the previous 1,024 core cycles gave this key. -/
def State.recentInsert (s : State) (ks : Nat) (key : List Byte) : Option Nat :=
  (s.flow.recent.find? fun (c, k, b, _) => s.clk.cycle < c + 1024 && k == ks && b == key).map (·.2.2.2)

/-- An entry and its context written into a free slot, as far as hardware inserts and FLOW_INSERT share it. -/
def State.place (s : State) (v : SetSeeds) (ks : Nat) (key : List Byte) (static : Bool) (profile : Nat)
    (at_ : Nat × Nat × Nat) (i : Nat) (fill : List Byte → List Byte) : State :=
  let (w, b, slot) := at_
  let s1 := s.takeIndex.wrSlot v.set w b slot (mkSlot (v.fp ks key) i static ks)
  let s2 := s1.wrCtx i (fill (newContext ks key static (slotRef v.set w b slot) profile))
  (s2.bump F.WH_FT_USED).rememberInsert ks key i

/-! ## What a pass gets -/

/-- A pass as it now stands. -/
def State.current (s : State) (p : Pass) : Pass :=
  (s.intake.passes.find? fun x => x.link == p.link && x.seq == p.seq && x.second == p.second).getD p

/-- A pass's length (R129): known once its frame's end is written. -/
def State.flowLen (s : State) (p : Pass) : Option Nat :=
  match p.len with
  | some l => some l
  | none => (s.entry? p.link p.seq).bind (·.len)

/-- The flow stage of a pass has ended: its verdict, and its record in a verdict queue, get its CONFLICT (R186). -/
def State.tellConflict (s : State) (p : Pass) (b : Bool) : State :=
  let s1 := s.modEntry p.link p.seq fun e =>
    if e.two == p.second then { e with verdict := e.verdict.map fun v =>
      if v.conflict.isNone then { v with conflict := some b } else v } else e
  let told (r : VRec) : VRec :=
    if r.pass == some (p.seq, p.second) then { r with bits := r.bits + 2 ^ 59 * b2n b, pass := none } else r
  { s1 with intake := { s1.intake with verdictQ := smod [] s1.intake.verdictQ p.link fun l => l.map told } }

/-- A pass goes on with a context: its features are computed from the context as it is now (R131). -/
def State.giveCtx (s : State) (p : Pass) (i : Nat) (c : List Byte) (new : Bool) (prev : Nat) : State :=
  let s1 : State := { s with flow := { s.flow with recentSnd := s.flow.recentSnd.map fun r =>
    if r.link == p.link && r.seq == p.seq && r.second == p.second then { r with ctx := some i } else r } }
  ((s1.tellConflict p (ctxConflict c)).putPass { p with
    flow := .done, flowAt := s.clk.cycle, ctx := some i, ctxSnap := some c, newFlow := new, prevTime := prev }).sweep

/-- A pass goes on without a context. -/
def State.noCtx (s : State) (p : Pass) : State :=
  ((s.tellConflict p false).putPass { p with flow := .done, flowAt := s.clk.cycle }).sweep

/-- A pass's update of a context lands: `c` is the context after it but for CONFLICT (R145) and the frame's length. DESIGN CHOICE
(log 35): R129 does not say how a length counts that is not known yet, of a frame dealt before its end. Everything else is
written now and the length when the frame's end is; this pass's features see a free length in its place. -/
def State.meetCtx (s : State) (p : Pass) (i : Nat) (c : List Byte) (new : Bool) (prev : Nat) : State :=
  let c1 := if p.conflict then putBit c 55 0 true else c
  match s.flowLen p with
  | some l => (s.wrCtxAt i 48 ((addLen c1 l).drop 48)).giveCtx p i (addLen c1 l) new prev
  | none =>
    let (f, s1) := s.free
    let s2 := { s1 with flow := { s1.flow with lenDue := s1.flow.lenDue ++ [(p.link, p.frame, i)] } }
    (s2.wrCtxAt i 48 (c1.drop 48)).giveCtx p i (addLen c1 (f % 65536)) new prev

/-- The first core cycle after the move lock on a context; 0 where there is none (R135). -/
def State.lockEnd (s : State) (i : Nat) : Nat :=
  match s.flow.chain.bind (·.lock) with
  | some (j, due, _) => if j = i then due else 0
  | none => 0

/-- The last cycle of the move lock: the victim's SLOTREF is written. -/
def State.endLock (s : State) : State :=
  match s.flow.chain with
  | none => s
  | some c => match c.lock with
    | none => s
    | some (i, _, ref) => { s with flow := { s.flow with chain := some { c with lock := none } } }.wrSlotRef i ref

/-- What would write a context waits for the end of its move lock (R135, R155). -/
def State.settleLock (s : State) (i : Nat) : State :=
  if s.lockEnd i = 0 then s else ((s.reach (s.lockEnd i)).getD s).endLock

/-- No length is due any more to a context. -/
def State.dropDue (s : State) (i : Nat) : State :=
  { s with flow := { s.flow with lenDue := s.flow.lenDue.filter (·.2.2 != i) } }

/-- A context that cannot be read is re-initialised from the frame, which takes its link's default action (R141). -/
def State.reinitCtx (s : State) (p : Pass) (i ref : Nat) : State :=
  let c := firstFrame (newContext p.keyspace (p.key.getD []) false ref p.profile) p.frameIn
  (((s.bump F.WH_FT_POISON_REINIT).dropDue i).wrCtx i c).meetCtx
    { p with result := .dflt, resultAt := s.clk.cycle } i c true 0

/-- SLOTREF of the slot that names a context, found again among a key's buckets. -/
def State.findRef (s : State) (ks : Nat) (key : List Byte) (i : Nat) : Nat :=
  (firstSome (fun (set, w, b, _) =>
    let l := (s.rdBucket set w b).2
    ((List.range 8).find? fun k => slotValid (l.getD k 0) && slotIndex (l.getD k 0) == i).map fun k => slotRef set w b k)
    (s.lookupBuckets ks key)).getD 0

/-- A pass that hits a context, once no move lock is on it: the update, and the features from it (R129, R130, R135); a context that
cannot be read is re-initialised (R141). -/
def State.hitCtx (s : State) (p : Pass) (i : Nat) : State :=
  let (s1, c, marks) := (s.settleLock i).rdCtx i
  if marks.any id then s1.reinitCtx p i (s1.findRef p.keyspace (p.key.getD []) i)
  else s1.meetCtx p i (hitUpdate c p.frameIn) (ctxFrames c == 0) (fieldAt c 64 8)

/-! ## Sender learning (R142-R146) -/

def sndKind (e : List Byte) : Nat := byteAt e 16 % 4
def sndValid (e : List Byte) : Bool := bit (byteAt e 16) 2
def sndStatic (e : List Byte) : Bool := bit (byteAt e 16) 3
def sndConflict (e : List Byte) : Bool := bit (byteAt e 16) 4
def sndOff (n : Nat) : Nat := 0x48000000 + 32 * n

/-- The set of a sender address (R144). -/
def State.sndSet (s : State) (kind : Nat) (addr : List Byte) : Nat :=
  crc32c (s.raw R.WH_SND_SEED) (BitVec.ofNat 8 kind :: addr) % 2 ^ 19

/-- WH_SND_USED down by one, not below 0. -/
def State.lessSenders (s : State) : State := s.put F.WH_SND_USED (s.get F.WH_SND_USED - 1)

/-- The four entries of a set; one that cannot be read is rewritten invalid with fresh codes (R141) and is in use no more. DESIGN
CHOICE (log 35): an entry whose VALID cannot be read either counts as one that was in use. -/
def State.rdSenders (s : State) (set : Nat) : State × List (List Byte) :=
  let (s1, bs, marks) := s.rdTab (sndOff (4 * set)) 128
  let bad (w : Nat) : Bool := marks.getD (2 * w) false || marks.getD (2 * w + 1) false
  let used (w : Nat) : Bool := marks.getD (2 * w + 1) false || sndValid ((bs.drop (32 * w)).take 32)
  ((List.range 4).foldl (fun t w => if bad w then
      (if used w then t.lessSenders else t).wrTab (sndOff (4 * set + w)) (zeros 32) else t) s1,
    (List.range 4).map fun w => if bad w then zeros 32 else (bs.drop (32 * w)).take 32)

/-- A new entry bound to a link, seen in a stroke. -/
def newSender (kind : Nat) (addr : List Byte) (static : Bool) (link stroke : Nat) : List Byte :=
  padTo 32 (padTo 16 addr ++ natBytes 1 (kind + 4 + 8 * b2n static) ++ natBytes 1 link ++ [0xFF, 0]
    ++ natBytes 4 stroke ++ natBytes 2 stroke)

/-- The way that a new address takes: the first invalid one, else the non-static one seen longest ago; true evicts (R144). -/
def senderWay (es : List (List Byte)) (stroke : Nat) : Option (Nat × Bool) :=
  match (List.range 4).find? fun w => !sndValid (es.getD w []) with
  | some w => some (w, false)
  | none =>
    let ages := ((List.range 4).filter fun w => !sndStatic (es.getD w [])).map fun w =>
      (w, (stroke % 65536 + 65536 - fieldAt (es.getD w []) 24 2) % 65536)
    (ages.foldl (fun best x => match best with
      | some b => if b.2 < x.2 then some x else some b
      | none => some x) none).map fun x => (x.1, true)

/-- The binding hysteresis of a sighting on another link (R146): the entry, and whether the binding moved. -/
def hysteresis (e : List Byte) (link stroke k : Nat) (running : Bool) : List Byte × Bool :=
  let st := stroke % 65536
  let same := byteAt e 18 == link
  let prev := fieldAt e 26 2
  let e1 :=
    if same && prev == (st + 65535) % 65536 then putField (putField e 19 1 (min 255 (byteAt e 19 + 1))) 26 2 st
    else if same && prev == st then e
    else putField (putField (putField e 18 1 link) 19 1 1) 26 2 st
  if k ≤ byteAt e1 19 && !sndStatic e && running then
    let e2 := putField (putField e1 17 1 link) 31 1 (min 255 (byteAt e1 31 + 1))
    (putBit (putField (putField (putField e2 24 2 st) 18 1 0xFF) 19 1 0) 16 4 false, true)
  else (e1, false)

/-- SENDER_CONFLICT (R90). -/
def State.senderConflict (s : State) (bound other kind : Nat) (addr : List Byte) : State :=
  s.raise 0x0302 (payload 16 [(0, 1, bound), (1, 1, other), (2, 1, kind)]) [padTo 32 addr]

/-- The insert of an entry in the same core cycle. -/
def State.sameCycle (s : State) (p : Pass) (entry : Nat) : Option SndInsert :=
  s.flow.recentSnd.find? fun r => r.cycle == p.dealt && r.entry == entry

/-- CONFLICT set in the flow context of the pass that won an insert, or when it gets one (R145). -/
def State.conflictOf (s : State) (r : SndInsert) : State :=
  let s1 := match r.ctx with
    | some i => (s.settleLock i).setCtxConflict i
    | none => s
  s1.setPasses (s1.intake.passes.map fun p =>
    if p.link == r.link && p.seq == r.seq && p.second == r.second then
      { p with conflict := true, ctxSnap := p.ctxSnap.map fun c => putBit c 55 0 true } else p)

/-- A sighting of an entry (R145, R146): the pass takes the entry as it then stands. DESIGN CHOICE (log 35): a sighting that itself
clears the entry's CONFLICT still sets CONFLICT in its own flow context. -/
def State.sight (s : State) (p : Pass) (n : Nat) (e : List Byte) (kind : Nat) (addr : List Byte) : State :=
  let st := p.stroke
  let bound := byteAt e 17
  let away := p.link != bound
  let win := s.get F.WH_SND_CTRL_WINDOW
  let first := if away then s.sameCycle p n else none
  let hit := away && (first.isSome || (st % 65536 + 65536 - fieldAt e 24 2) % 65536 < win)
  let e1 := if hit then putBit e 16 4 true else e
  let (e2, moved) :=
    if away then hysteresis e1 p.link st (s.get F.WH_SND_CTRL_K) s.clk.strokes
    else
      let e' := putField e1 24 2 (st % 65536)
      if win ≤ (st % 65536 + 65536 - fieldAt e1 26 2) % 65536 then
        (putField (putField (putBit e' 16 4 false) 18 1 0xFF) 19 1 0, false)
      else (e', false)
  let e3 := putField e2 28 3 (min (2 ^ 24 - 1) (fieldAt e2 28 3 + 1))
  let s1 := s.wrTab (sndOff n) e3
  let s2 := if moved then s1.bump F.WH_SND_MOVES else s1
  let s3 := if hit then s2.bump F.WH_SND_CONFLICTS else s2
  let s4 := if hit && !sndConflict e then s3.senderConflict bound p.link kind addr else s3
  let s5 := match first with
    | some r => if hit then s4.conflictOf r else s4
    | none => s4
  s5.putPass { p with sndSnap := some e3, conflict := hit || sndConflict e }

/-- A new address learned, where a way is free for it (R144). -/
def State.learn (s : State) (p : Pass) (set : Nat) (es : List (List Byte)) (kind : Nat) (addr : List Byte) : State :=
  match senderWay es p.stroke with
  | none => s.bump F.WH_SND_NOROOM
  | some (w, evict) =>
    let e := putField (newSender kind addr false p.link p.stroke) 28 3 1
    let s1 := (s.wrTab (sndOff (4 * set + w)) e).bump F.WH_SND_INSERTS
    let s2 := if evict then s1.bump F.WH_SND_EVICTIONS else s1.bump F.WH_SND_USED
    { s2.putPass { p with sndSnap := some e } with flow := { s2.flow with
        recentSnd := { cycle := p.dealt, entry := 4 * set + w, link := p.link, seq := p.seq, second := p.second }
          :: s2.flow.recentSnd.filter fun r => p.dealt < r.cycle + 1024 } }

/-- A pass's sender access. -/
def State.senderStep (s : State) (p : Pass) : State :=
  match p.skey with
  | none => s
  | some (kind, addr) =>
    let set := s.sndSet kind addr
    let (s1, es) := s.rdSenders set
    match (List.range 4).find? fun w =>
        let e := es.getD w []
        sndValid e && sndKind e == kind && e.take 16 == padTo 16 addr with
    | some w => s1.sight p (4 * set + w) (es.getD w []) kind addr
    | none => if s1.on F.WH_SND_CTRL_LEARN then s1.learn p set es kind addr else s1

/-! ## The flow stage of a pass -/

/-- Passes whose lookup is due, in the order in which their fields were delivered: by cycle, then by lane (R131). -/
def State.lookupOrder (s : State) : List Pass :=
  sortBy (fun p => p.dealt * 32 + p.lane) (s.intake.passes.filter fun p => p.flow == .pending)

/-- The lookup of the pass that comes next (R130): it hits and updates its context, or goes to the insert port (R131), or
goes on without a context. -/
def State.lookupPass (s : State) (p : Pass) : State :=
  let s1 := s.senderStep p
  let p1 := s1.current p
  match p1.key with
  | none => s1.noCtx p1
  | some key =>
    match s1.lookup p1.keyspace key with
    | (s2, .hit i) | (s2, .poisoned i) => s2.hitCtx p1 i
    | (s2, .miss) =>
      if s2.on F.WH_FT_CTRL_LEARN then s2.putPass { p1 with flow := .waitPort, waitFrom := p1.dealt + 40 } else s2.noCtx p1

/-- A command of the PMP or TBL engine that uses the Wellhead's bays, and so gives way to a lookup (R41, R44). -/
def wellheadUse (q : Nat) (c : List Byte) : Bool :=
  if q / 16 = 4 then cmdOp c < 0x32
  else q / 16 == 3 && cmdOp c == 0x10 && ((byteAt c 36 == 1 && 0xA0000000 ≤ fieldAt c 16 8 + fieldAt c 32 4)
    || (byteAt c 37 == 1 && 0xA0000000 ≤ fieldAt c 24 8 + fieldAt c 32 4))

/-- A link of the packet path and its rung, as the key of what commands lose to it (R39, R43). -/
def State.rungKey (s : State) (n : Nat) : Nat := 64 * (if s.priv n then 2 else 3) + n

/-- FLOW_LOOKUP: 12 cycles to the fields, then 52 to the updated context, 27 to a miss (R130, R157); an update waits for the move
lock (R135). -/
def State.flowLookup (s : State) (r : PassRef) : State :=
  match s.lookupOrder with
  | [] => s
  | p :: _ =>
    if !p.is r then s
    else
      let found := p.key.map fun key => (s.lookup p.keyspace key).2
      let takes := if found == some .miss && s.on F.WH_FT_CTRL_LEARN then 27 else 52
      let lock := match found with
        | some (.hit i) | some (.poisoned i) => s.lockEnd i
        | _ => 0
      match s.reach (max (p.dealt + 12 + takes) lock) with
      | none => s
      | some s1 => (s1.giveWay wellheadUse (s1.rungKey p.link) s1.clk.cycle 1).lookupPass p

def execFlowLookup (p : PassRef) (s : State) : Res := whenLive s fun s => s.flowLookup p

/-- The passes waiting in a stage, in the order in which they arrived, ties in lane order. -/
def State.waiting (s : State) (st : FlowStage) : List Pass :=
  sortBy (fun p => p.waitFrom * 32 + p.lane)
    (s.intake.passes.filter fun p => p.flow == st && s.clk.cycle ≤ p.waitFrom + 64)

/-- The relocator holds a chain for the pass's key (R131, R134). -/
def State.served (s : State) (p : Pass) : Bool :=
  s.flow.chain.any fun c => c.pass.keyspace == p.keyspace && c.pass.key == p.key

/-- A hardware insert into a free slot. -/
def State.insertPass (s : State) (p : Pass) (key : List Byte) (at_ : Nat × Nat × Nat) (i : Nat) : State :=
  let s1 := (s.place s.insertSet p.keyspace key false p.profile at_ i fun c => firstFrame c p.frameIn).bump F.WH_FT_INSERTS
  let (s2, c, _) := s1.rdCtx i
  s2.meetCtx p i c true 0

/-- The insert port takes one pass (R131). -/
def State.portStep (s : State) (p : Pass) : State :=
  let key := p.key.getD []
  match s.recentInsert p.keyspace key with
  | some i => s.hitCtx p i
  | none =>
    if s.served p || (s.waiting .waitReloc).any fun x => x.keyspace == p.keyspace && x.key == p.key then
      s.putPass { p with flow := .waitReloc }
    else match s.nextIndex with
      | none => (s.bump F.WH_FT_FULL).noCtx p
      | some i =>
        match s.freeSlot s.insertSet p.keyspace key with
        | (s1, some a) => s1.insertPass p key a i
        | (s1, none) => s1.putPass { p with flow := .waitReloc }

/-- The port handles up to 4 inserts per core cycle. -/
def State.flowInsertPort (s : State) : State :=
  match s.waiting .waitPort with
  | [] => s
  | p :: _ =>
    let full := s.flow.portCycle == s.clk.cycle && 4 ≤ s.flow.portCount
    match s.reach (max p.waitFrom (if full then s.clk.cycle + 1 else s.clk.cycle)) with
    | none => s
    | some s1 =>
      let n := if s1.flow.portCycle = s1.clk.cycle then s1.flow.portCount + 1 else 1
      ({ s1 with flow := { s1.flow with portCycle := s1.clk.cycle, portCount := n } }).portStep p

def execFlowInsertPort (s : State) : Res := whenLive s State.flowInsertPort

/-- More than 64 core cycles of waiting: the pass goes on without a context (R133). A pass whose key the relocator serves waits no
more. -/
def State.insertTimeout (s : State) (r : PassRef) : State :=
  match s.pass? r with
  | none => s
  | some p =>
    if p.flow == .waitPort || (p.flow == .waitReloc && !s.served p) then
      match s.reach (p.waitFrom + 65) with
      | none => s
      | some s1 =>
        (s1.bump (if p.flow == .waitPort then F.WH_FT_INSERT_BUSY else F.WH_FT_RELOC_BUSY)).noCtx p
    else s

def execInsertWaitTimeout (p : PassRef) (s : State) : Res := whenLive s fun s => s.insertTimeout p

/-! ## Relocation (R134, R135) -/

/-- A position of the table: way, bucket, slot. -/
abbrev SlotPos := Nat × Nat × Nat

/-- The plan of a chain in one set: the victims' positions in order, and the free slot found, if there is one. -/
def State.planChain (s : State) (set : Nat) : Nat → Nat → Nat → Nat → Nat → List SlotPos → State × List SlotPos × Option SlotPos
  | 0, _, _, _, _, chain => (s, chain, none)
  | n + 1, i, fpx, w, b, chain =>
    let (s1, l) := s.rdBucket set w b
    match ((List.range 8).map fun k => (fpx % 8 + i + k) % 8).find? fun k => !chain.contains (w, b, k) with
    | none => (s1, chain, none)
    | some k =>
      let fpv := slotFp (l.getD k 0)
      let b' := b ^^^ hashStep fpv
      let chain' := chain ++ [(w, b, k)]
      let (s2, l') := s1.rdBucket set (1 - w) b'
      match (List.range 8).find? fun j => !slotValid (l'.getD j 0) with
      | some j => (s2, chain', some (1 - w, b', j))
      | none => s2.planChain set n (i + 1) fpv (1 - w) b' chain'

/-- A complete plan's moves in the order in which they are made: from its last move backwards. -/
def chainMoves : List SlotPos → SlotPos → List (SlotPos × SlotPos)
  | [], _ => []
  | v :: vs, dst => chainMoves vs dst ++ [(v, vs.headD dst)]

/-- A slot's position written. -/
def State.wrPos (s : State) (set : Nat) (p : SlotPos) (v : Nat) : State := s.wrSlot set p.1 p.2.1 p.2.2 v

/-- One move's copy: the victim's slot, as it is now, stands in its destination too; a victim whose flow has ended since it was
planned leaves an empty slot. What moved is answered with it. -/
def State.copySlot (s : State) (set : Nat) (m : SlotPos × SlotPos) : State × Nat :=
  let (s1, l) := s.rdBucket set m.1.1 m.1.2.1
  let v := l.getD m.1.2.2 0
  (s1.wrPos set m.2 v, v)

/-- The SLOTREF of a position. -/
def posRef (set : Nat) (p : SlotPos) : Nat := slotRef set p.1 p.2.1 p.2.2

/-- One move made at once: the copy, SLOTREF, the old slot cleared. -/
def State.moveSlot (s : State) (set : Nat) (m : SlotPos × SlotPos) : State :=
  let (s1, v) := s.copySlot set m
  (if slotValid v then s1.wrSlotRef (slotIndex v) (posRef set m.2) else s1).wrPos set m.1 0

/-- REHASH_REQUEST, at most one per 4,096 core cycles (R133). -/
def State.rehashRequest (s : State) (profile : Nat) (key : List Byte) : State :=
  if s.flow.lastRehashReq ≠ 0 && s.clk.cycle < s.flow.lastRehashReq - 1 + 4096 then s
  else
    let s1 := { s with flow := { s.flow with lastRehashReq := s.clk.cycle + 1 } }
    s1.raise 0x0301 (payload 16 [(0, 1, profile), (1, 1, key.length)])
      ((List.range ((key.length + 31) / 32)).map fun i => (key.drop (32 * i)).take 32)

/-- Passes of the same key that wait for the relocator too (R131). -/
def State.attached (s : State) (p : Pass) : List Pass :=
  sortBy (fun x => x.waitFrom * 32 + x.lane) (s.intake.passes.filter fun x =>
    x.flow == .waitReloc && x.keyspace == p.keyspace && x.key == p.key
      && !(x.link == p.link && x.seq == p.seq && x.second == p.second))

/-- The chain of one waiting key has succeeded: the entry in the freed slot, every pass of the key on its context. -/
def State.chainDone (s : State) (p : Pass) (pos : SlotPos) : State :=
  let rest := s.attached p
  match s.nextIndex with
  | none => rest.foldl (fun t x => (t.bump F.WH_FT_FULL).noCtx x) ((s.bump F.WH_FT_FULL).noCtx p)
  | some i => rest.foldl (fun t x => t.hitCtx x i) (s.insertPass p (p.key.getD []) pos i)

/-- The chain of a key has failed: it is counted, and its passes go on without a context (R133). -/
def State.chainFailed (s : State) (p : Pass) : State :=
  let rest := s.attached p
  let s1 := ((s.bump F.WH_FT_CHAIN_FAIL).rehashRequest p.profile (p.key.getD [])).noCtx p
  rest.foldl (fun t x => t.noCtx x) s1

/-- The relocator is granted to a pass: it plans, and claims the buckets of its plan. Its reads take 25 core cycles for each victim; a
plan that fails makes no move. -/
def State.startChain (s : State) (p : Pass) : State :=
  let v := s.insertSet
  let key := p.key.getD []
  match s.planChain v.set 16 1 (v.fp p.keyspace key) 0 (v.b0 p.keyspace key) [] with
  | (s1, victims, dst) =>
    let c : Chain := { pass := p, set := v.set, victims := victims, dst := dst, due := s1.clk.cycle + 25 * victims.length
                       moves := (dst.map (chainMoves victims)).getD [] }
    { s1.putB F.WH_FT_STATUS_RELOC_BUSY true with flow := { s1.flow with chain := some c } }

/-- The relocator lets its chain go: its claims are released. -/
def State.endChain (s : State) : State :=
  { s.putB F.WH_FT_STATUS_RELOC_BUSY false with flow := { s.flow with chain := none } }

/-- What the relocator does when its next step is due (R135): a move's copy, which takes the move lock on the victim's context for 8
core cycles; after the last move the new entry, with its context; or the failure of its plan. -/
def State.chainStep (s : State) : State :=
  let s1 := s.endLock
  match s1.flow.chain with
  | none => s1
  | some c => match c.dst, c.moves with
    | none, _ => s1.endChain.chainFailed (s1.current c.pass)
    | some _, m :: ms =>
      let (s2, v) := s1.copySlot c.set m
      let lock := if slotValid v then some (slotIndex v, s2.clk.cycle + 8, posRef c.set m.2) else none
      let c1 : Chain := { c with moves := ms, due := s2.clk.cycle + 8, lock := lock, last := some m.1 }
      { s2 with flow := { s2.flow with chain := some c1 } }
    | some _, [] =>
      let pos := c.victims.headD (0, 0, 0)
      (s1.endChain.wrPos c.set pos 0).chainDone (s1.current c.pass) pos

/-- Up to `n` steps of the relocator, each at the time when it is due. -/
def State.chainSteps (s : State) : Nat → State
  | 0 => s
  | n + 1 => match s.flow.chain with
    | none => s
    | some c => ((s.reach c.due).getD s).chainStep.chainSteps n

/-- A chain that the relocator holds comes to its end. -/
def State.finishChain (s : State) : State := s.chainSteps 17

/-- A chain left where it stands, since its bucket pair takes no inserts any more (R137) or is emptied: its last move is completed,
its claims are released, and its passes wait for the relocator again from now on. DESIGN CHOICE (log 35). -/
def State.dropChain (s : State) : State :=
  match s.flow.chain with
  | none => s
  | some c =>
    let s1 := s.endLock.endChain
    let s2 := match c.last with
      | some pos => s1.wrPos c.set pos 0
      | none => s1
    s2.setPasses (s2.intake.passes.map fun p =>
      if p.flow == .waitReloc && p.keyspace == c.pass.keyspace && p.key == c.pass.key then { p with waitFrom := s2.clk.cycle } else p)

/-- A chain for a key of a TBL command, which the relocator takes after the one it holds: the slot freed in the key's way-0 bucket;
none where no chain can free one. -/
def State.makeRoom (s : State) (v : SetSeeds) (ks : Nat) (key : List Byte) : State × Option SlotPos :=
  match s.finishChain.planChain v.set 16 1 (v.fp ks key) 0 (v.b0 ks key) [] with
  | (s1, chain, some dst) => ((chainMoves chain dst).foldl (fun t m => t.moveSlot v.set m) s1, chain.head?)
  | (s1, _, none) => (s1, none)

/-- The relocator, free, takes up a miss: a slot that has come free since, or a chain. -/
def State.takeMiss (s : State) (p : Pass) : State :=
  match s.freeSlot s.insertSet p.keyspace (p.key.getD []) with
  | (s1, some pos) => s1.chainDone p pos
  | (s1, none) => s1.startChain p

/-- RELOCATION_CHAIN: the next step of the chain that the relocator holds; a free relocator is granted to the miss that has waited
longest. -/
def State.relocate (s : State) : State :=
  match s.flow.chain with
  | some c => match s.reach c.due with
    | none => s
    | some s1 => s1.chainStep
  | none =>
    match s.waiting .waitReloc with
    | [] => s
    | p :: _ =>
      match s.reach p.waitFrom with
      | none => s
      | some s1 => s1.takeMiss p

def execRelocationChain (s : State) : Res := whenLive s State.relocate

/-! ## Aging and the end of a flow (R139, R140) -/

/-- Whether a context's slot holds its index: its set, way, bucket and slot from SLOTREF. -/
def State.slotHolds (s : State) (ref i : Nat) : State × Bool :=
  let (s1, l) := s.rdBucket (bits ref 23 1) (bits ref 19 1) (bits ref 0 19)
  let v := l.getD (bits ref 20 3) 0
  (s1, slotValid v && slotIndex v == i)

/-- Step 1 of an end: the slot and LIVE are cleared; step 2 is due 4,096 core cycles later. -/
def State.endFlow (s : State) (i reason : Nat) (slot : Option Nat) (raise lost : Bool) (queue : Option Nat) : State :=
  let s1 := match slot with
    | some r => s.wrSlot (bits r 23 1) (bits r 19 1) (bits r 0 19) (bits r 20 3) 0
    | none => s
  let s2 := s1.clearLive i
  { s2.put F.WH_FT_USED (s2.get F.WH_FT_USED - 1) with flow := { s2.flow with
      recent := s2.flow.recent.filter fun e => e.2.2.2 != i
      endings := s2.flow.endings ++ [⟨i, reason, s.clk.cycle + 4096, raise, lost, queue⟩] } }

/-- The idle limit of a context's profile, in the active bank. -/
def State.idleOf (s : State) (profile : Nat) : Nat :=
  s.fbWord (s.raw R.WH_FBANK_EPOCH) 0 (R.WH_FKEY_8 (profile % 64)) % 65536

/-- A context index is in use: it is not on the free list. -/
def State.ctxUsed (s : State) (i : Nat) : Bool := i < s.flow.fresh && !s.flow.freed.any (·.1 == i)

/-- The scanner reads a context that it has come to. DESIGN CHOICE (log 35): of one that is on the free list, an uncorrectable word
ends no flow. -/
def State.scanCtx (s : State) (i : Nat) : State :=
  let (s1, c, marks) := (s.settleLock i).rdCtx i
  let s2 := { s1 with flow := { s1.flow with scan := i + 1 } }
  if s2.flow.endings.any (·.ctx == i) || !s2.ctxUsed i then s2
  else if marks.any id then
    let ref := ctxSlotRef c
    let readable := !marks.getD 3 false
    let (s3, mine) := if readable then s2.slotHolds ref i else (s2, false)
    (s3.bump F.WH_FT_ORPHANS).endFlow i 2 (if mine then some ref else none) false true none
  else if !ctxLive c then s2
  else
    let (s3, mine) := s2.slotHolds (ctxSlotRef c) i
    if !mine then (s3.bump F.WH_FT_ORPHANS).endFlow i 2 none true false none
    else
      let idle := s3.idleOf (ctxProfile c)
      let age := (s3.clk.now + 2 ^ 32 - ctxLastStroke c) % 2 ^ 32
      if s3.clk.strokes && !ctxStatic c && idle != 0 && idle < age then
        (s3.bump F.WH_FT_EXPIRED).endFlow i 0 (some (ctxSlotRef c)) true false none
      else s3

/-- AGING_SCAN: the scanner goes on in index order until it has read context `i`; of those on its way only the ones in use can
change anything. -/
def State.agingScan (s : State) (i : Nat) : State :=
  let at_ := s.flow.scan % 8388608
  let upTo := List.range (min i s.flow.fresh)
  let way := if at_ ≤ i then upTo.filter (at_ ≤ ·) else (List.range s.flow.fresh).filter (at_ ≤ ·) ++ upTo
  ((way.filter s.ctxUsed).foldl State.scanCtx s).scanCtx i

def execAgingScan (ctx : Fin 8388608) (s : State) : Res :=
  whenLive s fun s => if s.on F.WH_FT_CTRL_AGE then s.agingScan ctx else s

/-- A record of the flow-end ring (R140). -/
def State.flowEndRecord (s : State) (c : List Byte) : State :=
  if !s.on F.WH_FE_CTRL_EN then s
  else
    let n := 2 ^ s.get F.WH_FE_CTRL_LOG2
    let prod := s.get F.WH_FE_PROD
    if (prod + 1) % n = s.get F.WH_FE_CONS then s.bump F.WH_FE_DROPS
    else (s.wrRange .cis (s.get64 R.WH_FE_BASE_LO + 128 * prod) c).put F.WH_FE_PROD ((prod + 1) % n)

/-- FLOW_END (R90). -/
def State.raiseFlowEnd (s : State) (i : Nat) (c : List Byte) : State :=
  let key := ctxKey c
  s.raise 0x0304 (payload 16 [(0, 4, i), (4, 1, ctxProfile c), (8, 8, ctxFrames c)])
    ((List.range ((key.length + 31) / 32)).map fun k => (key.drop (32 * k)).take 32)

/-- Step 2 of an end: END_REASON, the event and the record where they are due, the index freed. -/
def State.finishFlow (s : State) (e : FlowEnding) : State :=
  let s0 := { s with flow := { s.flow with endings := s.flow.endings.filter (·.ctx != e.ctx) } }.dropDue e.ctx
  let s1 :=
    if e.lost then s0.wrCtx e.ctx (zeros 128)
    else
      let (t, c, _) := s0.rdCtx e.ctx
      let c1 := putField c 55 1 (setBits (byteAt c 55) 6 2 e.reason)
      let t1 := t.wrCtx e.ctx c1
      if e.raise then (t1.raiseFlowEnd e.ctx c1).flowEndRecord c1 else t1
  let s2 := s1.freeIndex e.ctx
  match e.queue with
  | none => s2
  | some q => match s2.running q 0x21 with
    | some (_, r) => s2.complete q Status.ok r.charged
    | none => s2

/-- The end of a flow that is due first. -/
def State.flowEnd (s : State) : State :=
  match sortBy (·.due) s.flow.endings with
  | [] => s
  | e :: _ => match s.reach e.due with
    | none => s
    | some s1 => s1.finishFlow e

def execFlowEnd (s : State) : Res := whenLive s State.flowEnd

/-- The flow-end ring is aligned and lies within the array bays (R140). -/
def State.flowRingFits (s : State) : Bool :=
  let base := s.get64 R.WH_FE_BASE_LO
  base % 4096 == 0 && decide (base + 128 * 2 ^ s.get F.WH_FE_CTRL_LOG2 ≤ 0xA0000000)

/-- WH_FE_CTRL.EN set: discarded where the ring does not fit (R140). -/
def State.enableFlowRing (s : State) : State := if s.flowRingFits then s.putB F.WH_FE_CTRL_EN true else s

def execFlowEndRingEnable (s : State) : Res := whenWritable s R.WH_FE_CTRL State.enableFlowRing

end Sys2Proof.Machine
end

