-- ==== Sys2Proof/Machine/Num.lean ====
section
/-! DEFINITION. Binary floating-point arithmetic as IEEE 754-2019 defines it, computed exactly and rounded once: the formats of
R252, rounding to nearest with ties to even, subnormals kept, one quiet NaN. -/

namespace Sys2Proof.Machine

/-- A floating-point value: NaN, an infinity, or ± m × 2^e. -/
inductive Flt where
  | nan
  | inf (neg : Bool)
  | fin (neg : Bool) (m : Nat) (e : Int)
  deriving DecidableEq, Repr

/-- A binary format: significand bits, the hidden bit included; exponent of the least subnormal; exponent field bits. -/
structure FltFmt where
  p : Nat
  qmin : Int
  ebits : Nat
  deriving DecidableEq, Repr

def binary32 : FltFmt := ⟨24, -149, 8⟩
def binary16 : FltFmt := ⟨11, -24, 5⟩
def bfloat16 : FltFmt := ⟨8, -133, 8⟩

/-- The encoding of an infinity, without its sign. -/
def FltFmt.infBits (f : FltFmt) : Nat := (2 ^ f.ebits - 1) * 2 ^ (f.p - 1)

/-- The sign bit. -/
def FltFmt.signBit (f : FltFmt) (neg : Bool) : Nat := if neg then 2 ^ (f.p - 1 + f.ebits) else 0

/-- The value that an encoding stands for. -/
def FltFmt.decode (f : FltFmt) (v : Nat) : Flt :=
  let neg := bit v (f.p - 1 + f.ebits)
  let frac := bits v 0 (f.p - 1)
  let ex := bits v (f.p - 1) f.ebits
  if ex = 2 ^ f.ebits - 1 then (if frac = 0 then .inf neg else .nan)
  else if ex = 0 then .fin neg frac f.qmin
  else .fin neg (frac + 2 ^ (f.p - 1)) (f.qmin + ex - 1)

/-- `m × 2^e` rounded to an integer, ties to even; an exponent of 0 or more is exact. -/
def rneNat (m : Nat) (e : Int) : Nat :=
  if 0 ≤ e then m * 2 ^ e.toNat
  else
    let k := (-e).toNat
    if Nat.log2 m + 1 < k then 0
    else
      let q := m / 2 ^ k
      let r := m % 2 ^ k
      let half := 2 ^ (k - 1)
      if half < r || (r = half && q % 2 = 1) then q + 1 else q

/-- A value rounded to a format, ties to even, as its encoding; the NaN is the quiet NaN with a zero payload (R252). -/
def FltFmt.round (f : FltFmt) : Flt → Nat
  | .nan => f.infBits + 2 ^ (f.p - 2)
  | .inf neg => f.signBit neg + f.infBits
  | .fin neg m e =>
    if m = 0 then f.signBit neg
    else
      let q := max (e + (Nat.log2 m + 1 : Nat) - f.p) f.qmin
      if 2 ^ f.ebits < (q - f.qmin).toNat + 2 then f.signBit neg + f.infBits
      else f.signBit neg + min f.infBits ((q - f.qmin).toNat * 2 ^ (f.p - 1) + rneNat m (e - q))

/-! ## Exact operations -/

def Flt.isNan : Flt → Bool
  | .nan => true
  | _ => false

def Flt.isFin : Flt → Bool
  | .fin _ _ _ => true
  | _ => false

def Flt.isZero : Flt → Bool
  | .fin _ m _ => m == 0
  | _ => false

def Flt.negative : Flt → Bool
  | .nan => false
  | .inf n => n
  | .fin n _ _ => n

def Flt.neg : Flt → Flt
  | .nan => .nan
  | .inf n => .inf (!n)
  | .fin n m e => .fin (!n) m e

def Flt.abs : Flt → Flt
  | .nan => .nan
  | .inf _ => .inf false
  | .fin _ m e => .fin false m e

/-- An integer as a value. -/
def Flt.ofInt (i : Int) : Flt := .fin (decide (i < 0)) i.natAbs 0

/-- A finite value as a signed significand. -/
def signed (n : Bool) (m : Nat) : Int := if n then -(m : Int) else m

def Flt.mul : Flt → Flt → Flt
  | .nan, _ => .nan
  | _, .nan => .nan
  | .inf a, .inf b => .inf (a != b)
  | .inf a, .fin b m _ => if m = 0 then .nan else .inf (a != b)
  | .fin a m _, .inf b => if m = 0 then .nan else .inf (a != b)
  | .fin a m e, .fin b n g => .fin (a != b) (m * n) (e + g)

/-- The exact sum; an exact zero of unlike signs is +0. -/
def Flt.add : Flt → Flt → Flt
  | .nan, _ => .nan
  | _, .nan => .nan
  | .inf a, .inf b => if a = b then .inf a else .nan
  | .inf a, .fin _ _ _ => .inf a
  | .fin _ _ _, .inf b => .inf b
  | .fin a m e, .fin b n g =>
    let q := min e g
    let s := signed a (m * 2 ^ (e - q).toNat) + signed b (n * 2 ^ (g - q).toNat)
    if s = 0 then .fin (a && b) 0 0 else .fin (decide (s < 0)) s.natAbs q

/-- A quotient with more bits than any format keeps, and a sticky last bit: it rounds as the exact quotient does. -/
def Flt.div : Flt → Flt → Flt
  | .nan, _ => .nan
  | _, .nan => .nan
  | .inf _, .inf _ => .nan
  | .inf a, .fin b _ _ => .inf (a != b)
  | .fin a _ _, .inf b => .fin (a != b) 0 0
  | .fin a m e, .fin b n g =>
    if n = 0 then (if m = 0 then .nan else .inf (a != b))
    else
      let k := 64 + Nat.log2 n
      let q := m * 2 ^ k / n
      .fin (a != b) (2 * q + b2n (m * 2 ^ k % n != 0)) (e - g - k - 1)

/-- Less than; false with a NaN, and between zeros. -/
def Flt.lt : Flt → Flt → Bool
  | .nan, _ => false
  | _, .nan => false
  | .inf a, .inf b => a && !b
  | .inf a, .fin _ _ _ => a
  | .fin _ _ _, .inf b => !b
  | .fin a m e, .fin b n g =>
    let q := min e g
    decide (signed a (m * 2 ^ (e - q).toNat) < signed b (n * 2 ^ (g - q).toNat))

/-- A value rounded to the nearest integer, ties to even; NaN gives 0, an infinity a bound no code reaches. -/
def Flt.rne : Flt → Int
  | .nan => 0
  | .inf n => if n then -(2 ^ 512) else 2 ^ 512
  | .fin n m e => signed n (rneNat m (min e 512))

/-! ## Functions of a real, far closer than any format resolves: fixed point with 256 fraction bits -/

abbrev fixOne : Nat := 2 ^ 256
/-- ln 2 and 1 ÷ √(2π). -/
def fixLn2 : Nat := 80260960185991308862233904206310070533990667611589946606122867505419956976172
def fixGauss : Nat := 46194360132781112550002021175736725500524138381534012844286371432913401257263

/-- `m × 2^e` in fixed point. -/
def toFix (m : Nat) (e : Int) : Nat :=
  if 0 ≤ e + 256 then m * 2 ^ (e + 256).toNat else m / 2 ^ (-(e + 256)).toNat

/-- 1 + x/(d 0) × (1 + x/(d 1) × (1 + …)), `n` deep. -/
def fixNested (d : Nat → Nat) (n x : Nat) : Nat :=
  (List.range n).foldr (fun k acc => fixOne + x * acc / (d k * fixOne)) fixOne

/-- e^t of a finite value. -/
def expOf (neg : Bool) (m : Nat) (e : Int) : Flt :=
  let t := signed neg (toFix m e)
  let k := t / fixLn2
  .fin false (fixNested (· + 1) 60 (t - k * fixLn2).toNat) (k - 256)

/-- The natural logarithm of a positive finite value: 2 artanh ((x - 1)/(x + 1)) of its significand x. -/
def logOf (m : Nat) (e : Int) : Flt :=
  let l := Nat.log2 m
  let x := toFix m (-(l : Int))
  let z := (x - fixOne) * fixOne / (x + fixOne)
  let odd := (List.range 90).foldr (fun k acc => fixOne / (2 * k + 1) + z * z / fixOne * acc / fixOne) 0
  let y : Int := (e + l) * fixLn2 + (2 * z * odd / fixOne : Nat)
  .fin (decide (y < 0)) y.natAbs (-256)

/-- Φ, the standard normal distribution function, of a value from 0 to 10. -/
def phiOf (m : Nat) (e : Int) : Flt :=
  let t := toFix m e
  let sum : Flt := .fin false (t * fixNested (fun k => 2 * k + 3) 400 (t * t / fixOne) / fixOne) (-256)
  ((Flt.fin false fixGauss (-256)).mul ((expOf true (m * m) (2 * e - 1)).mul sum)).add (.fin false 1 (-1))

/-! ## binary32 values as words -/

/-- A binary32 word's value. -/
def f32 (v : Nat) : Flt := binary32.decode v

/-- A value rounded to binary32 and widened again: one rounding step of the unit. -/
def Flt.to32 (x : Flt) : Flt := f32 (binary32.round x)

end Sys2Proof.Machine
end

