-- ==== Sys2Proof/Machine/Banks.lean ====
section
/-! DEFINITION. The three double-banked tables of the packet path: the feature bank, the rule bank and the ensemble bank; their
staging writes, validation, arming, swap, retirement and copy (R112, R151-R153, R161-R175). -/

namespace Sys2Proof

open Machine

/-! ## A bank's registers -/

/-- The control register of a bank. -/
def BankKind.ctrlReg : BankKind → Nat
  | .feature => R.WH_FBANK_CTRL
  | .rule => R.WH_RBANK_CTRL
  | .ensemble => R.WH_EBANK_CTRL

/-- The low half of the register that names the swap's stroke. -/
def BankKind.atReg : BankKind → Nat
  | .feature => R.WH_FBANK_AT_LO
  | .rule => R.WH_RBANK_AT_LO
  | .ensemble => R.WH_EBANK_AT_LO

def BankKind.status : BankKind → Nat
  | .feature => R.WH_FBANK_STATUS
  | .rule => R.WH_RBANK_STATUS
  | .ensemble => R.WH_EBANK_STATUS

def BankKind.epochReg : BankKind → Nat
  | .feature => R.WH_FBANK_EPOCH
  | .rule => R.WH_RBANK_EPOCH
  | .ensemble => R.WH_EBANK_EPOCH

def BankKind.validating (b : BankKind) : Fld := ⟨b.status, 0, 1⟩
def BankKind.armed (b : BankKind) : Fld := ⟨b.status, 1, 1⟩
def BankKind.refused (b : BankKind) : Fld := ⟨b.status, 2, 1⟩
def BankKind.active (b : BankKind) : Fld := ⟨b.status, 3, 1⟩
def BankKind.reason (b : BankKind) : Fld := ⟨b.status, 4, 4⟩
def BankKind.profile (b : BankKind) : Fld := ⟨b.status, 8, 6⟩
def BankKind.retiring (b : BankKind) : Fld := ⟨b.status, 14, 1⟩
def BankKind.copying (b : BankKind) : Fld := ⟨b.status, 15, 1⟩

/-- The refusal of an ARM while the staging bank is still retiring. -/
def BankKind.busyReason : BankKind → Nat
  | .feature => 6
  | .rule => 7
  | .ensemble => 5

end Sys2Proof

namespace Sys2Proof.Machine

/-- The epoch of a reorder entry for a bank. -/
def RoEntry.epochOf (e : RoEntry) : BankKind → Nat
  | .feature => e.fEpoch
  | .rule => e.rEpoch
  | .ensemble => e.eEpoch

/-- A staging write or a load disarms the bank and ends a validation in progress (R152, R169). -/
def State.disarm (s : State) (b : BankKind) : State := (s.putB b.armed false).putB b.validating false

/-- A refused ARM: its reason, the first failing element and the failing profile (R152, R170, R175). -/
def State.refuseArm (s : State) (b : BankKind) (reason index profile : Nat) : State :=
  let s1 := ((s.putB b.refused true).put b.reason reason).put b.profile profile
  if b == .rule then s1.put F.WH_RBANK_INDEX_INDEX index else s1

/-- Staging data cannot be replaced now. -/
def State.stagingBusy (s : State) (b : BankKind) : Bool := s.on b.retiring || s.on b.copying

/-- ARM: validation starts, or is refused while the staging bank retires. A new ARM clears what the last one left (log 12). -/
def State.armBank (s : State) (b : BankKind) : State :=
  let s1 := ((((s.disarm b).putB b.refused false).put b.reason 0).put b.profile 0)
  let s2 := if b == .rule then s1.put F.WH_RBANK_INDEX_INDEX 0 else s1
  if s.on b.retiring then s2.refuseArm b b.busyReason 0 0 else s2.putB b.validating true

/-- DISARM clears ARMED. -/
def State.disarmBank (s : State) (b : BankKind) : State := s.putB b.armed false

/-- COPY: discarded while RETIRING or COPYING; otherwise it disarms at once and the copy starts (R153). -/
def State.copyBank (s : State) (b : BankKind) : State :=
  if s.stagingBusy b then s else (s.disarm b).putB b.copying true

def execFbankArm (s : State) : Res := whenWritable s R.WH_FBANK_CTRL fun s => s.armBank .feature
def execFbankDisarm (s : State) : Res := whenWritable s R.WH_FBANK_CTRL fun s => s.disarmBank .feature
def execFbankCopy (s : State) : Res := whenWritable s R.WH_FBANK_CTRL fun s => s.copyBank .feature
def execRbankArm (s : State) : Res := whenWritable s R.WH_RBANK_CTRL fun s => s.armBank .rule
def execRbankDisarm (s : State) : Res := whenWritable s R.WH_RBANK_CTRL fun s => s.disarmBank .rule
def execRbankCopy (s : State) : Res := whenWritable s R.WH_RBANK_CTRL fun s => s.copyBank .rule
def execEbankArm (s : State) : Res := whenWritable s R.WH_EBANK_CTRL fun s => s.armBank .ensemble
def execEbankDisarm (s : State) : Res := whenWritable s R.WH_EBANK_CTRL fun s => s.disarmBank .ensemble
def execEbankCopy (s : State) : Res := whenWritable s R.WH_EBANK_CTRL fun s => s.copyBank .ensemble

/-! ## The staging registers of the feature bank (R151) -/

/-- The registers that address the staging feature bank: selection, profiles, keys, programs, bin tables. -/
def stagingOff (off : Nat) : Bool :=
  (0x104000 ≤ off && off < 0x105000) || (0x108000 ≤ off && off < 0x118000)
  || (0x201000 ≤ off && off < 0x202000) || (0x210000 ≤ off && off < 0x230000)

/-- A write to the staging feature bank: discarded while it retires or is copied; otherwise it disarms (R114, R152, R153). -/
def State.writeStaging (s : State) (off v : Nat) : State :=
  if !stagingOff off || s.stagingBusy .feature then s
  else match findRow regRows off with
    | none => s
    | some (r, _) =>
      if wordRefused r.base v then s.putB F.WH_INTAKE_STATUS_DESC_REJECT true
      else
        let v1 := if r.base == R.WH_PROF_FIELD_0 0 0 then v % 2 ^ 17 else v
        (s.store r off (fun _ _ => true) v1).disarm .feature

def execStagingBankWrite (offset : Nat) (value : Word) (s : State) : Res :=
  whenWritable s offset fun s => s.writeStaging offset value.toNat

/-- A word of the staging feature bank. -/
def State.staged (s : State) (off : Nat) : Nat := (s.word off).toNat

/-! ## Validation of the feature bank (R152) -/

def insOp (lo : Nat) : Nat := bits lo 0 4
def insFlag (lo : Nat) : Bool := bit lo 4
def insDst (lo : Nat) : Nat := bits lo 6 7
def insA (lo : Nat) : Nat := bits lo 13 7
def insB (lo : Nat) : Nat := bits lo 20 7
def insSh (lo : Nat) : Nat := bits lo 27 5
def insImm (hi : Nat) : Nat := bits hi 0 16
def insImm2 (hi : Nat) : Nat := bits hi 16 16

/-- The highest selector of an operation whose A selects a value. -/
def selMax : Nat → Nat
  | 2 => 10
  | 3 => 6
  | 4 => 2
  | _ => 127

/-- A bad instruction (R152, reason 4). -/
def insBad (nfields lo hi : Nat) : Bool :=
  let op := insOp lo
  11 < op || selMax op < insA lo || (op == 1 && nfields ≤ insA lo) || (op == 7 && bits (insImm2 hi) 0 4 == 0)
  || (op == 9 && (sInt 16 (insImm2 hi) < sInt 16 (insImm hi) || insImm hi == 0x8000 || insImm2 hi == 0x8000))

/-- Boundary `j` of bin table `t`, as a word at `at_ off` gives it. -/
def binBound (at_ : Nat → Nat) (t j : Nat) : Int :=
  sInt 16 (bits (at_ (R.WH_BIN_100 t (j / 2))) (16 * (j % 2)) 16)

/-- A bin table that no program may use (R152, reason 3). -/
def binBad (at_ : Nat → Nat) (t : Nat) : Bool :=
  let n := at_ (R.WH_BIN_0 t) % 256
  n == 0 || (List.range n).any fun j =>
    binBound at_ t j == -32768 || (j + 1 < n && binBound at_ t (j + 1) ≤ binBound at_ t j)

/-- The instructions of a staged profile's program: low and high words. -/
def State.stagedProg (s : State) (p : Nat) : List (Nat × Nat) :=
  (List.range 128).map fun i => (s.staged (R.WH_FPROG_0 p i), s.staged (R.WH_FPROG_4 p i))

/-- The first reason to refuse a staged profile; 0 when it passes (R152; of several reasons the lowest: log 12). -/
def State.profileRefusal (s : State) (p : Nat) : Nat :=
  let nf := bits (s.staged (R.WH_PROF_CTRL p)) 16 6
  let hi := s.staged (R.WH_FKEY_4 p)
  let mask := s.staged (R.WH_FKEY_0 p) + 2 ^ 32 * (hi % 2 ^ 16)
  let keyf := (List.range 48).filter fun f => bit mask f
  let klen := (keyf.map fun f => (descWidth (s.staged (R.WH_PROF_FIELD_0 p f)) + 7) / 8).sum
  let tallies := (List.range 4).map fun c => s.staged (R.WH_FKEY_10 p c)
  let prog := s.stagedProg p
  let sk := s.staged (R.WH_FKEY_C p)
  let len := if bits sk 0 2 = 1 then 4 else if bits sk 0 2 = 2 then 16 else 0
  if 48 < klen || (klen == 0 && bit hi 31) then 1
  else if keyf.any (nf ≤ ·) || tallies.any (fun w => nf ≤ bits w 0 6) then 2
  else if prog.any fun (lo, h) => insOp lo == 5 && binBad s.staged (insImm h % 64) then 3
  else if prog.any fun (lo, h) => insBad nf lo h then 4
  else if bit sk 31 && len != 0 && 128 < bits sk 2 7 + len then 5
  else 0

/-- The refusal of the staged feature bank: reason and first failing profile; profiles not VALID are not checked. -/
def State.featureRefusal (s : State) : Option (Nat × Nat) :=
  firstSome (fun p =>
    if bit (s.staged (R.WH_PROF_CTRL p)) 0 then
      let r := s.profileRefusal p
      if r = 0 then none else some (r, p)
    else none) (List.range 64)

/-! ## Rule-set images (R162-R168) -/

/-- The number of `n` bytes at offset `o` of an image. -/
def imgNat (m : Mem) (o n : Nat) : Nat := bytesNat (Memory.read m o n)

def align64 (n : Nat) : Nat := ceilDiv n 64 * 64

def rsKw (m : Mem) : Nat := imgNat m 6 1
def rsNodes (m : Mem) : Nat := imgNat m 8 4
def rsLists (m : Mem) : Nat := imgNat m 12 4
def rsRules (m : Mem) : Nat := imgNat m 16 4
def rsAm (m : Mem) : Nat := imgNat m 20 4

def rsProfOff (p : Nat) : Nat := 64 + 32 * p
def rsNodeOff : Nat := 2112
def rsListOff (m : Mem) : Nat := align64 (rsNodeOff + 8 * rsNodes m)
def rsRuleOff (m : Mem) : Nat := align64 (rsListOff m + 4 * rsLists m)
def rsResOff (m : Mem) : Nat := align64 (rsRuleOff m + 2 * rsKw m * rsRules m)
def rsAmOff (m : Mem) : Nat := align64 (rsResOff m + 8 * rsRules m)
def rsEnd (m : Mem) : Nat := rsAmOff m + 72 * rsAm m

/-- On-chip bytes of a rule set (R168). -/
def rsBytes (m : Mem) : Nat := 8 * rsNodes m + 4 * rsLists m + rsRules m * (2 * rsKw m + 8)

/-- A rule set passes its capacities. -/
def rsTooLarge (m : Mem) : Bool := 262144 < rsRules m || 8192 < rsAm m || 12582912 < rsBytes m

/-- A bad magic, version or KW. -/
def rsBadHead (m : Mem) : Bool :=
  imgNat m 0 4 != 0x52530880 || imgNat m 4 2 != 1 || !(rsKw m == 16 || rsKw m == 32 || rsKw m == 64)

def rsNode (m : Mem) (i : Nat) : Nat := imgNat m (rsNodeOff + 8 * i) 8
def rsEntry (m : Mem) (i : Nat) : Nat := imgNat m (rsListOff m + 4 * i) 4

def nodeKind (w : Nat) : Nat := w % 4
def nodeBit (w : Nat) : Nat := bits w 2 9
def nodeWidth (w : Nat) : Nat := bits w 11 3 + 1
def nodeCount (w : Nat) : Nat := bits w 2 5
def nodeLink (w : Nat) : Nat := bits w 32 32

/-- A faulty node (R162, R170 reason 3). A LEAF's COUNT is 1-16 (log 12). -/
def nodeBad (kw n w : Nat) : Bool :=
  match nodeKind w with
  | 0 => w / 4 != 0
  | 1 => 8 * kw < nodeBit w + nodeWidth w || bits w 14 18 != 0 || n < nodeLink w + 2 ^ nodeWidth w
  | 2 => bits w 7 25 != 0 || nodeCount w == 0 || 16 < nodeCount w
  | _ => true

/-- The CUT nodes that the walk from the root can reach after `d` cuts. -/
def cutsAt (m : Mem) : Nat → List Nat
  | 0 => if nodeKind (rsNode m 0) = 1 && 0 < rsNodes m then [0] else []
  | d + 1 =>
    let ps := cutsAt m d
    (List.range (rsNodes m)).filter fun i => nodeKind (rsNode m i) == 1 && ps.any fun j =>
      let w := rsNode m j
      nodeLink w ≤ i && i < nodeLink w + 2 ^ nodeWidth w

/-- The least element of a list. -/
def leastOf : List Nat → Option Nat
  | [] => none
  | a :: as => some (as.foldl min a)

/-- A rule result with ACTION or fields that its kind does not allow (R165, R170 reason 5). -/
def resultBad (r : Nat) : Bool :=
  (!bit r 21 && bits r 22 6 != 0) || (!bit r 31 && bits r 32 16 != 0)
  || (if bit r 20 then bits r 56 2 != 0 || bits r 48 8 != 0
      else bits r 58 6 != 0 || (bits r 56 2 != 3 && bits r 48 8 != 0))

/-- Index of the first faulty list entry (R170 reason 4). -/
def listFault (m : Mem) : Option Nat :=
  let n := rsLists m
  let leaves := ((List.range (rsNodes m)).map (rsNode m)).filter fun w => nodeKind w == 2
  let past := (leaves.filter fun w => n < nodeLink w + nodeCount w).map fun w => max n (nodeLink w)
  let bad := (List.range n).filter fun i => 2 ^ 18 ≤ rsEntry m i || rsRules m ≤ rsEntry m i
  let order := (leaves.map fun w => ((List.range (nodeCount w - 1)).map fun k => nodeLink w + k + 1).filter fun j =>
    j < n && rsEntry m j ≤ rsEntry m (j - 1)).flatten
  leastOf (past ++ bad ++ order)

/-- VALUE bits outside MASK, both `n` bytes at `o`. -/
def outside (m : Mem) (o n : Nat) : Bool :=
  let v := imgNat m o n
  v &&& imgNat m (o + n) n != v

/-- Index of the first faulty rule, associative entry or miss result (R170 reason 5). -/
def ruleFault (m : Mem) : Option Nat :=
  let kw := rsKw m
  firstSome id [
    (List.range (rsRules m)).find? fun i => outside m (rsRuleOff m + 2 * kw * i) kw || resultBad (imgNat m (rsResOff m + 8 * i) 8),
    (List.range (rsAm m)).find? fun i => resultBad (imgNat m (rsAmOff m + 72 * i + 64) 8),
    (List.range 64).find? fun p => resultBad (imgNat m (rsProfOff p + 16) 8)]

def rsClass (m : Mem) (p : Nat) : Nat := imgNat m (rsProfOff p) 1

/-- The key fields of a profile, in their listed order (R160, R168). -/
def rsKeyFields (m : Mem) (p : Nat) : List Nat :=
  (List.range (min 8 (imgNat m (rsProfOff p + 1) 1))).map fun j => imgNat m (rsProfOff p + 2 + j) 1

/-- The first faulty profile (R170 reason 6): key widths are those of the active feature bank (log 12). -/
def State.profFault (s : State) (m : Mem) : Option Nat :=
  let epoch := s.raw R.WH_FBANK_EPOCH
  (List.range 64).find? fun p =>
    let c := rsClass m p
    let fs := rsKeyFields m p
    let bytes := (fs.map fun f => (descWidth (s.desc epoch p f).1 + 7) / 8).sum
    let room := (if c = 1 then rsKw m else 32) - 4
    let priv := countIf (fun j => rsClass m j == 2) (List.range (p + 1))
    3 ≤ c || 8 < imgNat m (rsProfOff p + 1) 1 || fs.any (48 ≤ ·) || (c != 0 && room < bytes) || (c == 2 && 8 < priv)

/-- The refusal of a rule bank: reason, index, profile (R170). -/
def State.ruleRefusal (s : State) (m : Mem) : Option (Nat × Nat × Nat) :=
  let n := rsNodes m
  if rsBadHead m || imgNat m 7 1 != 0 || !allZero (Memory.read m 24 40) then some (1, 0, 0)
  else if rsTooLarge m then some (2, 0, 0)
  else match leastOf (((List.range n).filter fun i => nodeBad (rsKw m) n (rsNode m i)) ++ cutsAt m 8
      ++ (if n = 0 && (List.range 64).any (fun p => rsClass m p == 1) then [0] else [])) with
    | some i => some (3, i, 0)
    | none => match listFault m with
      | some i => some (4, i, 0)
      | none => match ruleFault m with
        | some i => some (5, i, 0)
        | none => (s.profFault m).map fun p => (6, p, p)

/-! ## Ensemble sections (R172-R175) -/

def enPlanes (m : Mem) : Nat := imgNat m 7 1
def enEntry (m : Mem) (e : Nat) : Nat := imgNat m (64 + 8 * e) 8
def enAction (m : Mem) (p c : Nat) : Nat := imgNat m (576 + 64 * p + 4 * c) 4
def enTreeOff (plane u : Nat) : Nat := 4672 + 98304 * plane + 1536 * u

def ensValid (v : Nat) : Bool := bit v 0
def ensWide (v : Nat) : Bool := bit v 1
def ensPlane (v : Nat) : Nat := bits v 2 1
def ensU0 (v : Nat) : Nat := bits v 3 6
def ensT (v : Nat) : Nat := bits v 9 7

/-- The trees of an ensemble: offsets in the section. -/
def ensTrees (v : Nat) : List Nat :=
  if ensWide v then (List.range 128).map fun i => enTreeOff (i / 64) (i % 64)
  else (List.range (ensT v)).map fun i => enTreeOff (ensPlane v) (ensU0 v + i)

def enBadHead (m : Mem) : Bool := imgNat m 0 4 != 0x454E0880 || imgNat m 4 2 != 1

/-- A faulty entry (R175 reason 2). -/
def ensBad (permit : Bool) (planes v : Nat) : Bool :=
  ensValid v && (bits v 16 48 != 0
    || if ensWide v then !permit || planes == 1 || ensU0 v != 0 || ensT v != 0
       else ensT v == 0 || 64 < ensU0 v + ensT v || planes ≤ ensPlane v)

/-- A tree with a non-zero reserved field. -/
def treeBad (m : Mem) (o : Nat) : Bool :=
  imgNat m (o + 1020) 4 != 0 || (List.range 255).any fun i => bits (imgNat m (o + 4 * i) 4) 16 7 != 0

/-- The refusal of an ensemble bank: reason, and the first failing ensemble or profile (R175). -/
def ensRefusal (m : Mem) : Option (Nat × Nat) :=
  let planes := enPlanes m
  let permit := bit (imgNat m 6 1) 0
  if enBadHead m || !(planes == 1 || planes == 2) || 2 ≤ imgNat m 6 1 || !allZero (Memory.read m 8 56) then some (1, 0)
  else match (List.range 64).find? fun e => ensBad permit planes (enEntry m e) with
    | some e => some (2, e)
    | none => match (List.range 64).find? fun e =>
        ensValid (enEntry m e) && (ensTrees (enEntry m e)).any (treeBad m) with
      | some e => some (3, e)
      | none => ((List.range 64).find? fun p => (List.range 16).any fun c => bit (enAction m p c) 7).map fun p => (4, p)

/-! ## On-chip images and their Cistern regions (R161) -/

/-- The on-chip image of bank 0 (A) or 1 (B) of the rule or ensemble memory. -/
def State.img (s : State) (b : BankKind) (bank : Nat) : Mem :=
  match b with
  | .ensemble => if bank = 0 then s.banks.treeA else s.banks.treeB
  | _ => if bank = 0 then s.banks.ruleA else s.banks.ruleB

def State.setImg (s : State) (b : BankKind) (bank : Nat) (m : Mem) : State :=
  match b with
  | .ensemble => { s with banks := if bank = 0 then { s.banks with treeA := m } else { s.banks with treeB := m } }
  | _ => { s with banks := if bank = 0 then { s.banks with ruleA := m } else { s.banks with ruleB := m } }

/-- Offset and size of a bank's image in the Wellhead table space. -/
def regionOf (b : BankKind) (bank : Nat) : Nat × Nat :=
  match b with
  | .ensemble => (0x54000000 + 0x01000000 * bank, 0x01000000)
  | _ => (0x4C000000 + 0x04000000 * bank, 0x04000000)

/-- A range of the table space, which is interleaved by 4 KiB pages, in pieces that lie each in one page. -/
def tabPieces : Nat → Nat → Nat → List (Nat × Nat)
  | 0, _, _ => []
  | k + 1, o, n =>
    if n = 0 then []
    else
      let m := min n (4096 - o % 4096)
      (o, m) :: tabPieces k (o + m) (n - m)

/-- Bytes written from an offset of the table space on. -/
def State.wrTabAll (s : State) (o : Nat) (bs : List Byte) : State :=
  (tabPieces (bs.length / 4096 + 2) o bs.length).foldl (fun t (a, n) => t.wrTab a ((bs.drop (a - o)).take n)) s

/-- The staging side of a bank. -/
def State.stagingOf (s : State) (b : BankKind) : Nat := 1 - s.get b.active

/-- WH_RBANK_BYTES shows the staging bank's on-chip bytes. -/
def State.showBytes (s : State) : State := s.put F.WH_RBANK_BYTES_BYTES (rsBytes (s.img .rule (s.stagingOf .rule)))

/-- An image in the staging bank: its Cistern region, its on-chip memory; the bank disarms (R169). -/
def State.loadImage (s : State) (b : BankKind) (bs : List Byte) : State :=
  let side := s.stagingOf b
  ((((s.wrTabAll (regionOf b side).1 bs).setImg b side (Memory.write [] 0 bs)).disarm b).showBytes)

/-! ## Validation, copy, swap, retirement -/

/-- Validation ends: ARMED or REFUSED. -/
def State.validated (s : State) (b : BankKind) : State :=
  if !s.on b.validating then s
  else
    let s1 := s.putB b.validating false
    match b with
    | .feature => match s.featureRefusal with
      | some (r, p) => s1.refuseArm b r 0 p
      | none => s1.putB b.armed true
    | .rule => match s.ruleRefusal (s.img .rule (s.stagingOf .rule)) with
      | some (r, i, p) => s1.refuseArm b r i p
      | none => s1.putB b.armed true
    | .ensemble => match ensRefusal (s.img .ensemble (s.stagingOf .ensemble)) with
      | some (r, p) => s1.refuseArm b r 0 p
      | none => s1.putB b.armed true

def execBankValidationDone (bank : BankKind) (s : State) : Res := whenLive s fun s => s.validated bank

/-- The staging registers replaced by a set of feature-bank words. -/
def State.setStaging (s : State) (words : SMap Word) : State :=
  { s with regs := words.foldl (fun m e => sset (resetWord e.1) m e.1 e.2) (s.regs.filter fun e => !stagingOff e.1) }

/-- The words of the staging feature bank. -/
def State.stagingWords (s : State) : SMap Word := s.regs.filter fun e => stagingOff e.1

/-- The copy of the active bank reaches the staging bank; what was armed meanwhile is disarmed, as by any staging write. -/
def State.copied (s : State) (b : BankKind) : State :=
  if !s.on b.copying then s
  else
    let s1 := (s.putB b.copying false).disarm b
    match b with
    | .feature => s1.setStaging s.banks.fActive
    | _ =>
      let act := s.get b.active
      let size := match b with
        | .ensemble => enTreeOff 2 0
        | _ => rsEnd (s.img b act)
      let bs := Memory.read (s.img b act) 0 size
      ((s1.wrTabAll (regionOf b (1 - act)).1 bs).setImg b (1 - act) (s.img b act)).showBytes

def execBankCopyDone (bank : BankKind) (s : State) : Res := whenLive s fun s => s.copied bank

/-- A bank swaps at the boundary that opens stroke `k`, if it is armed for it (R152). -/
def State.swapBank (s : State) (b : BankKind) (k : Nat) : State :=
  let at_ := s.get64 b.atReg
  if !s.on b.armed || k < at_ then s
  else
    let s1 := ((s.putB b.armed false).putB b.retiring true).put ⟨b.epochReg, 0, 32⟩ (s.raw b.epochReg + 1)
    match b with
    | .feature =>
      let old := s.banks.fActive
      let s2 := { s1 with banks := { s1.banks with fActive := s.stagingWords, fSwap := s.clk.cycle } }
      s2.setStaging old
    | .rule =>
      let s2 := { s1 with banks := { s1.banks with rSwap := s.clk.cycle } }
      (s2.put b.active (1 - s.get b.active)).showBytes
    | .ensemble =>
      let s2 := { s1 with banks := { s1.banks with eSwap := s.clk.cycle } }
      s2.put b.active (1 - s.get b.active)

/-- No frame in flight uses the former bank: each has its verdict, or carries the present epoch (R153, R159). -/
def State.bankFree (s : State) (b : BankKind) : Bool :=
  s.intake.reorder.all fun r => r.2.all fun e => e.issued || e.epochOf b == s.raw b.epochReg

/-- The former active bank retires (R153). -/
def State.retired (s : State) (b : BankKind) : State :=
  if s.on b.retiring && s.bankFree b then s.putB b.retiring false else s

def execBankRetired (bank : BankKind) (s : State) : Res := whenLive s fun s => s.retired bank

end Sys2Proof.Machine
end

