-- ==== Sys2Proof/Machine/Features.lean ====
section
/-! DEFINITION. Feature programs (R147-R150). -/

namespace Sys2Proof.Machine

/-! ## Feature codes (R147) -/

/-- A feature as its 16-bit code: 0x8000 is missing; a value saturates to −32,767 to 32,767. -/
def featCode : Option Int → Nat
  | none => 0x8000
  | some i => uInt 16 (clampInt (-32767) 32767 i)

/-- The value of a feature code. -/
def featVal (c : Nat) : Option Int := if c = 0x8000 then none else some (sInt 16 c)

/-- The LOG encoding of a value (R149). -/
def logCode (v : Nat) : Int :=
  let y := v + 1
  let e := Nat.log2 y
  16 * e + (if 4 ≤ e then y / 2 ^ (e - 4) else y * 2 ^ (4 - e)) % 16

/-- `min(v >> SH, 32,767)`. -/
def shiftCode (v : Int) (sh : Nat) : Int := min (v / (2 : Int) ^ sh) 32767

/-! ## Values that a pass offers -/

/-- The context value that CTX selects. -/
def ctxValue (c : List Byte) (stroke : Nat) : Nat → Nat
  | 0 => ctxFrames c
  | 1 => fieldAt c 72 8
  | 2 => fieldAt c 92 4
  | 3 => fieldAt c 96 2
  | 4 => fieldAt c 98 2
  | 5 => fieldAt c 112 4
  | 6 => fieldAt c 116 4
  | 7 => fieldAt c 120 4
  | 8 => fieldAt c 124 4
  | 9 => b2n (ctxConflict c)
  | _ => (stroke % 2 ^ 32 + 2 ^ 32 - fieldAt c 84 4) % 2 ^ 32

/-- The sender value that SENDER selects (R143, R149). -/
def senderValue (e : List Byte) (link stroke sh : Nat) : Nat → Nat
  | 0 => byteAt e 17
  | 1 => b2n (byteAt e 17 == link)
  | 2 => byteAt e 31
  | 3 => fieldAt e 28 3 / 2 ^ sh
  | 4 => (stroke % 2 ^ 32 + 2 ^ 32 - fieldAt e 20 4) % 2 ^ 32
  | 5 => b2n (sndConflict e)
  | _ => byteAt e 19

/-- The deviation a context holds for a stroke (R150): its bits, and whether it is stale under a limit. -/
def devValue (c : List Byte) (stroke limit : Nat) : Nat × Bool :=
  let age := sInt 32 (stroke % 2 ^ 32 + 2 ^ 32 - fieldAt c 108 4)
  if 0 ≤ age then (fieldAt c 100 4, limit != 0 && (limit : Int) ≤ age) else (fieldAt c 104 4, false)

/-- A binary32 value times a power of two, as an integer. -/
def scaleRne (v sh : Nat) : Option Int :=
  match f32 v with
  | .nan => none
  | .inf n => some (if n then -32767 else 32767)
  | .fin n m e => some (Flt.fin n m (e + sh)).rne

/-! ## Instructions (R148, R149) -/

/-- What one instruction writes: its value, or missing. -/
def insValue (p : Pass) (at_ : Nat → Nat) (feats : List Nat) (lo hi : Nat) : Option Int :=
  let a := insA lo
  let sh := insSh lo
  let fa := featVal (feats.getD a 0x8000)
  let fb := featVal (feats.getD (insB lo) 0x8000)
  match insOp lo with
  | 1 => match p.fields[a]? with
    | some (v, false) => some (if insFlag lo then sInt 16 (v / 2 ^ sh) else shiftCode v sh)
    | _ => none
  | 2 => p.ctxSnap.map fun c =>
      if insFlag lo then logCode (ctxValue c p.stroke a) else shiftCode (ctxValue c p.stroke a) sh
  | 3 => p.sndSnap.map fun e => (senderValue e p.link p.stroke sh a : Nat)
  | 4 => match p.ctxSnap with
    | none => none
    | some c => match a with
      | 0 => some (shiftCode ((p.time : Int) - fieldAt c 56 8) sh)
      | 1 => if p.newFlow then none else some (shiftCode ((p.time : Int) - p.prevTime) sh)
      | _ => p.since.map fun t => shiftCode t sh
  | 5 => fa.map fun x =>
      let t := insImm hi % 64
      (countIf (fun j => binBound at_ t j < x) (List.range (at_ (R.WH_BIN_0 t) % 256)) : Nat)
  | 6 => fa.map fun x => (x * sInt 16 (insImm hi) + (if sh = 0 then 0 else 2 ^ (sh - 1))) / 2 ^ sh
  | 7 =>
    if (fa.isNone || fb.isNone) && !insFlag lo then none
    else
      let k := bits (insImm2 hi) 0 4
      let input := natBytes 2 (feats.getD a 0x8000) ++ natBytes 2 (feats.getD (insB lo) 0x8000)
      some (crc32c (65537 * insImm hi) input % 2 ^ k : Nat)
  | 8 => match fa, fb with
    | some x, some y => if y = 0 then none else some ((x * 2 ^ sh).tdiv y)
    | _, _ => none
  | 9 => fa.map fun x => min (max x (sInt 16 (insImm hi))) (sInt 16 (insImm2 hi))
  | 10 => match p.ctxSnap with
    | none => none
    | some c =>
      let (v, stale) := devValue c p.stroke (insImm2 hi)
      if stale then none else (scaleRne v sh).map fun x => if insFlag lo then x.natAbs else x
  | 11 => featVal (insImm hi)
  | _ => none

/-- One instruction: NOP writes nothing. -/
def runIns (p : Pass) (at_ : Nat → Nat) (feats : List Nat) (i : Nat × Nat) : List Nat :=
  if insOp i.1 = 0 then feats else feats.set (insDst i.1) (featCode (insValue p at_ feats i.1 i.2))

/-- A pass's 128 features, all missing at its start. -/
def runProgram (p : Pass) (at_ : Nat → Nat) (prog : List (Nat × Nat)) : List Nat :=
  prog.foldl (runIns p at_) (List.replicate 128 0x8000)

/-- The program of a profile in the bank of an epoch. -/
def State.program (s : State) (epoch p : Nat) : List (Nat × Nat) :=
  (List.range 128).map fun i => (s.fbWord epoch 0 (R.WH_FPROG_0 p i), s.fbWord epoch 0 (R.WH_FPROG_4 p i))

/-! ## The step -/


/-- A pass with its INSPECT result and its features is ready for the tree stage (R156, R177). -/
def Pass.readyAt (p : Pass) (cycle : Nat) : Pass :=
  if p.inspects && p.feats.isSome && p.ready.isNone then { p with ready := some cycle } else p

/-- FEATURE_PROGRAM: 32 core cycles after the flow stage; not once the frame has its verdict (R159). -/
def State.featureProgram (s : State) (r : PassRef) : State :=
  match s.pass? r with
  | none => s
  | some p =>
    let closed (t : State) : Bool := match t.entry? p.link p.seq with
      | some e => t.entered p.link e
      | none => true
    if p.flow != .done || p.result == .dflt || p.feats.isSome || closed s then s
    else match s.reach (p.flowAt + 32) with
      | none => s
      | some s1 =>
        if closed s1 then s1 else
        let feats := runProgram p (s.fbWord p.epoch 0) (s.program p.epoch p.profile)
        s1.putPass ({ p with feats := some feats }.readyAt s1.clk.cycle)

def execFeatureProgram (p : PassRef) (s : State) : Res := whenLive s fun s => s.featureProgram p

end Sys2Proof.Machine
end

