-- ==== Sys2Proof/Machine/FlowCmds.lean ====
section
/-! DEFINITION. The TBL commands on flows, senders and deviations (R136, R137, R150, R154). -/

namespace Sys2Proof.Machine

/-- A command whose duration the spec bounds and does not fix: it completes now. -/
def openTime (_ : List Byte) (_ : State) : Option Nat := none

/-! ## FLOW_INSERT, FLOW_DELETE, FLOW_READ -/

def cmdKey (c : List Byte) : List Byte := (c.drop 32).take (byteAt c 17)

/-- The context that FLOW_INSERT creates: no frame yet, its times and strokes those of the insertion (R154). -/
def State.hostContext (s : State) (c : List Byte) : List Byte :=
  let st := s.strokeOr0 % 2 ^ 32
  putField (putField (putField (putField c 56 8 s.clk.time) 64 8 s.clk.time) 84 4 st) 88 4 st

/-- STATIC set in the slot and the context of an entry that exists. -/
def State.markStatic (s : State) (ks : Nat) (key : List Byte) (i : Nat) : State :=
  let ref := s.findRef ks key i
  let (s1, l) := s.rdBucket (bits ref 23 1) (bits ref 19 1) (bits ref 0 19)
  let v := l.getD (bits ref 20 3) 0
  (s1.wrSlot (bits ref 23 1) (bits ref 19 1) (bits ref 0 19) (bits ref 20 3) (setBits v 56 1 1)).modCtxByte i 49
    fun b => setBits b 6 1 1

/-- The relocator serves its waiting misses until none of the given passes waits for it. -/
def State.serveMisses (s : State) (mine : Pass → Bool) : Nat → State
  | 0 => s
  | n + 1 =>
    if s.flow.chain.any (mine ·.pass) || (s.waiting .waitReloc).any mine then
      let s1 := s.finishChain
      match s1.waiting .waitReloc with
      | p :: ps => if (p :: ps).any mine then (s1.takeMiss p).finishChain.serveMisses mine n else s1
      | [] => s1
    else s

/-- The lanes are served first (R155): the passes of a key that wait at the insert port and at the relocator. -/
def State.lanesFirst (s : State) (ks : Nat) (key : List Byte) : State :=
  let mine (p : Pass) : Bool := p.keyspace == ks && p.key == some key
  let s1 := ((s.waiting .waitPort).filter mine).foldl (fun t p => t.portStep (t.current p)) s
  s1.serveMisses mine (s1.intake.passes.length + 1)

/-- The insertion of FLOW_INSERT: the context index and whether it existed; none where the table is full. -/
def State.insertKey (s : State) (ks : Nat) (key : List Byte) (static : Bool) (profile : Nat) : State × Option (Nat × Bool) :=
  match (s.lanesFirst ks key).lookup ks key with
  | (s1, .hit i) => (if static then (s1.settleLock i).markStatic ks key i else s1, some (i, true))
  | (s1, .poisoned i) =>
    let s2 := s1.settleLock i
    let c := s2.hostContext (newContext ks key static (s2.findRef ks key i) profile)
    (((s2.bump F.WH_FT_POISON_REINIT).dropDue i).wrCtx i c, some (i, true))
  | (s1, .miss) =>
    let v := s1.insertSet
    match s1.nextIndex with
    | none => (s1, none)
    | some i =>
      match s1.freeSlot v ks key with
      | (s2, some pos) => (s2.place v ks key static profile pos i s2.hostContext, some (i, false))
      | (s2, none) =>
        match s2.makeRoom v ks key with
        | (s3, some pos) => (s3.place v ks key static profile pos i s3.hostContext, some (i, false))
        | (s3, none) => ((s3.bump F.WH_FT_CHAIN_FAIL).rehashRequest profile key, none)

def State.flowInsertEffect (c : List Byte) (t : State) : State × Nat :=
  let addr := fieldAt c 24 8
  match (if addr = 0 then none else t.grant [(true, addr, 8)]) with
  | some t' => (t', Status.dmaFault)
  | none =>
    match t.insertKey (byteAt c 16) (cmdKey c) (bit (byteAt c 18) 0) (byteAt c 19) with
    | (t1, none) => (t1, Status.tableFull)
    | (t1, some (i, existed)) =>
      (if addr = 0 then t1 else t1.dataWrite addr (natBytes 4 i ++ natBytes 4 (b2n existed)), Status.ok)

def execFlowInsert (q : Fin 16) (s : State) : Res :=
  whenLive s fun s => s.runOp (64 + q) 0x20 openTime State.flowInsertEffect

/-- The context that FLOW_DELETE names and the slot that holds it: by its index, or by its key. -/
def State.deleteTarget (s : State) (c : List Byte) : State × Option (Nat × Option Nat) :=
  if bit (byteAt c 18) 1 then
    let i := fieldAt c 20 4
    let (s1, x, marks) := (s.settleLock i).rdCtx i
    if marks.any id || !ctxLive x then (s1, none)
    else
      let (s2, mine) := s1.slotHolds (ctxSlotRef x) i
      (s2, some (i, if mine then some (ctxSlotRef x) else none))
  else
    match s.lookup (byteAt c 16) (cmdKey c) with
    | (s1, .hit i) | (s1, .poisoned i) =>
      let s2 := s1.settleLock i
      (s2, some (i, some (s2.findRef (byteAt c 16) (cmdKey c) i)))
    | (s1, .miss) => (s1, none)

/-- FLOW_DELETE's own step: the slot and LIVE are cleared; the command completes with the FLOW_END step, 4,096 core cycles
later. A key or index that names no LIVE context completes NOT_FOUND. -/
def State.flowDelete (s : State) (q : Nat) : State :=
  match s.running q 0x21 with
  | none => s
  | some (c, _) =>
    if s.flow.endings.any fun e => e.queue == some q then s
    else match s.deleteTarget c with
      | (_, none) => s.runOp q 0x21 openTime fun _ t => (t, Status.notFound)
      | (s1, some (i, slot)) => s1.endFlow i 1 slot (bit (byteAt c 18) 2) false (some q)

def execFlowDelete (q : Fin 16) (s : State) : Res := whenLive s fun s => s.flowDelete (64 + q)

/-- Records of `size` bytes at offsets of the table space, read for host memory with their marks. -/
def State.readRecords (s : State) (off : Nat → Nat) (size : Nat) : List Nat → State × List (List Byte × Bool)
  | [] => (s, [])
  | i :: is =>
    let (s1, bs, marks) := s.rdTab (off i) size
    let ws := (List.range (size / 16)).map fun k => ((bs.drop (16 * k)).take 16, marks.getD k false)
    let (s2, rest) := s1.readRecords off size is
    (s2, ws ++ rest)

/-- FLOW_READ and SENDER_READ: records to host memory; a poisoned word completes POISON (R77, R329). -/
def State.tableRead (off : Nat → Nat) (size : Nat) (c : List Byte) (t : State) : State × Nat :=
  let n := fieldAt c 20 4
  let addr := fieldAt c 24 8
  match t.grant [(true, addr, size * n)] with
  | some t' => (t', Status.dmaFault)
  | none =>
    let (t1, ws) := t.readRecords off size ((List.range n).map (fieldAt c 16 4 + ·))
    let (t2, ep) := t1.sendHost addr ws
    (t2, if ep then Status.poison else Status.ok)

def execFlowRead (q : Fin 16) (s : State) : Res :=
  whenLive s fun s => s.runOp (64 + q) 0x22 openTime (State.tableRead ctxOff 128)

def execSenderRead (q : Fin 16) (s : State) : Res :=
  whenLive s fun s => s.runOp (64 + q) 0x26 openTime (State.tableRead sndOff 32)

/-! ## DEV_WRITE (R150) -/

/-- The deviation fields after a record with value `v` and effective stroke `e`, written in stroke `now`. -/
def devUpdate (c : List Byte) (now v e : Nat) : List Byte :=
  let c1 := if 0 ≤ sInt 32 (now % 2 ^ 32 + 2 ^ 32 - fieldAt c 108 4) then putField c 104 4 (fieldAt c 100 4) else c
  putField (putField c1 100 4 v) 108 4 e

/-- One record applied, once no move lock is on its context (R135), or skipped and counted: a reserved bit, or a context that is not
LIVE. DESIGN CHOICE (log 35): so is a record for a context that cannot be read. -/
def State.devRecord (s : State) (w v e : Nat) : State :=
  if w / 2 ^ 23 != 0 then s.bump F.WH_FT_DEV_SKIP
  else
    let (s1, c, marks) := (s.settleLock w).rdCtx w
    if marks.any id || !ctxLive c then s1.bump F.WH_FT_DEV_SKIP
    else s1.wrCtxAt w 100 (((devUpdate c s.strokeOr0 v e).drop 100).take 12)

/-- The records of DEV_WRITE: those of a poisoned word are skipped. -/
def State.devRecords (s : State) (e : Nat) : Nat → List (List Byte × Bool) → State
  | _, [] => s
  | n, (bs, bad) :: ws =>
    let k := min n 2
    let s1 := if bad then s.bump F.WH_FT_DEV_SKIP k
      else (List.range k).foldl (fun t i => t.devRecord (fieldAt bs (8 * i) 4) (fieldAt bs (8 * i + 4) 4) e) s
    s1.devRecords e (n - k) ws

def State.devWriteEffect (c : List Byte) (t : State) : State × Nat :=
  let n := fieldAt c 24 4
  let (t1, ws) := t.rdMarked .cis (fieldAt c 16 8) (16 * ((n + 1) / 2))
  (t1.devRecords (fieldAt c 28 4) n ws, if anyMark ws then Status.poison else Status.ok)

def execDevWrite (q : Fin 16) (s : State) : Res :=
  whenLive s fun s => s.runOp (64 + q) 0x23 openTime State.devWriteEffect

/-! ## Clearing a range of the table space -/

/-- The table-space offset of a Cistern address, if it lies there (R315). -/
def tableOff (a : Nat) : Option Nat :=
  if a < 0xA0000000 then none
  else
    let x := a - 0xA0000000
    if 6 * 0x10000000 ≤ x then none else some (4096 * (6 * (x % 0x10000000 / 4096) + x / 0x10000000) + x % 4096)

/-- Whether a Cistern address lies at an offset in a range of the table space. -/
def inTable (lo hi a : Nat) : Bool :=
  match tableOff a with
  | some o => lo ≤ o && o < hi
  | none => false

/-- A range of the table space, of whole words, rewritten as zeros with fresh codes: what stays is what its stuck cells and a
persistent injection make of every write (R324, R470). -/
def State.clearTab (s : State) (lo hi : Nat) : State :=
  let c := s.mems.cis
  let word (w : Nat) : Bool := inTable lo hi (16 * w)
  let stay := (c.stuck.filter fun e => word e.1)
  let errs := stay.foldl (fun m e => sset 0 m e.1 e.2) (c.errs.filter fun e => !word e.1)
  let s1 := s.setCoded .cis { c with
    data := c.data.filter fun e => !inTable lo hi e.1
    errs := errs
    poison := c.poison.filter fun e => !word e.1 }
  let w := s.raw R.CI_INJECT_ADDR
  if word w && s.get F.CI_INJECT_CTRL_MODE != 0 then s1.wrRange .cis (16 * w) (zeros 16) else s1

/-! ## Rehash (R136, R137) -/

/-- REHASH_START: new seeds, where 0 draws from the entropy source (log 10); the inactive pair empty, the cursor at 0. -/
def State.rehashStartEffect (c : List Byte) (t : State) : State × Nat :=
  if t.rehashing then (t, Status.badCommand)
  else
    let (f1, t1) := t.free
    let (f2, t2) := t1.free
    let pick (o f : Nat) : Nat := if fieldAt c o 4 = 0 then f else fieldAt c o 4
    let t3 := (t2.put F.WH_FT_NEW_SEEDB (pick 16 f1)).put F.WH_FT_NEW_SEEDF (pick 20 f2)
    let base := bucketOff (1 - t.get F.WH_FT_STATUS_ACTIVE_SET) 0 0
    (((t3.dropChain.clearTab base (base + 0x04000000)).put F.WH_FT_CURSOR 0).putB F.WH_FT_STATUS_REHASH true, Status.ok)

def execRehashStart (q : Fin 16) (s : State) : Res :=
  whenLive s fun s => s.runOp (64 + q) 0x24 openTime State.rehashStartEffect

/-- One slot of the old pair migrated: moved, or cleared as an orphan; none where no chain places it. -/
def State.migrateSlot (s : State) (way b slot : Nat) : Option State :=
  let old := s.oldSet
  let (s1, l) := s.rdBucket old.set way b
  let v := l.getD slot 0
  if !slotValid v then some s1
  else
    let i := slotIndex v
    let (s2, c, marks) := s1.rdCtx i
    let readable := !(marks.take 4).any id
    if !readable || ctxSlotRef c % 2 ^ 24 != slotRef old.set way b slot then
      some ((s2.wrSlot old.set way b slot 0).bump F.WH_FT_ORPHANS)
    else
      let key := ctxKey c
      let ks := slotKeyspace v
      let new := s2.newSet
      let move (t : State) (p : Nat × Nat × Nat) : State :=
        ((t.wrPos new.set p (mkSlot (new.fp ks key) i (bit v 56) ks)).wrSlotRef i (posRef new.set p)).wrSlot old.set way b slot 0
      match s2.freeSlot new ks key with
      | (s3, some p) => some (move s3 p)
      | (s3, none) => match s3.makeRoom new ks key with
        | (s4, some p) => some (move s4 p)
        | (_, none) => none

/-- Slots of one bucket index migrated in turn; false where one could not be placed. -/
def State.migrateSlots (s : State) (b : Nat) : List Nat → State × Bool
  | [] => (s, true)
  | k :: ks => match s.migrateSlot (k / 8) b (k % 8) with
    | some s1 => s1.migrateSlots b ks
    | none => (s.bump F.WH_FT_CHAIN_FAIL, false)

/-- The rehash ends: the sets change roles, the new seeds come into force. -/
def State.endRehash (s : State) : State :=
  let s1 := (s.put F.WH_FT_SEEDB (s.raw R.WH_FT_NEW_SEEDB)).put F.WH_FT_SEEDF (s.raw R.WH_FT_NEW_SEEDF)
  (s1.put F.WH_FT_STATUS_ACTIVE_SET (1 - s.get F.WH_FT_STATUS_ACTIVE_SET)).putB F.WH_FT_STATUS_REHASH false

/-- `n` bucket indices migrated from the cursor on; false where an entry stops it. -/
def State.migrate (s : State) : Nat → State × Bool
  | 0 => (s, true)
  | n + 1 =>
    let cur := s.get F.WH_FT_CURSOR
    match s.migrateSlots cur (List.range 16) with
    | (s1, false) => (s1, false)
    | (s1, true) =>
      let s2 := s1.put F.WH_FT_CURSOR (cur + 1)
      if cur + 1 < 524288 then s2.migrate n else (s2.endRehash, true)

def State.rehashStepEffect (c : List Byte) (t : State) : State × Nat :=
  if !t.rehashing then (t, Status.badCommand)
  else
    let (t1, ok) := t.migrate (fieldAt c 16 4)
    (t1, if ok then Status.ok else Status.tableFull)

def execRehashStep (q : Fin 16) (s : State) : Res :=
  whenLive s fun s => s.runOp (64 + q) 0x25 openTime State.rehashStepEffect

/-! ## Senders (R143, R154) -/

/-- The address of a sender command. -/
def cmdAddr (c : List Byte) : List Byte :=
  (c.drop 32).take (match byteAt c 16 with
    | 0 => 6
    | 1 => 4
    | _ => 16)

/-- The way of a set that holds an address. -/
def senderAt (es : List (List Byte)) (kind : Nat) (addr : List Byte) : Option Nat :=
  (List.range 4).find? fun w =>
    let e := es.getD w []
    sndValid e && sndKind e == kind && e.take 16 == padTo 16 addr

/-- SENDER_WRITE: the address inserted, or rebound without changing MOVES. -/
def State.senderWrite (c : List Byte) (s : State) : State × Nat :=
  let kind := byteAt c 16
  let link := byteAt c 17
  let static := bit (byteAt c 18) 0
  let clear := bit (byteAt c 18) 1
  let addr := cmdAddr c
  let st := s.strokeOr0
  let set := s.sndSet kind addr
  let (s1, es) := s.rdSenders set
  match senderAt es kind addr with
  | some w =>
    let e := es.getD w []
    let e1 := putBit e 16 3 static
    let e2 := if byteAt e 17 = link then e1
      else putField (putField (putField (putField e1 17 1 link) 24 2 st) 18 1 0xFF) 19 1 0
    (s1.wrTab (sndOff (4 * set + w)) (if clear then putBit e2 16 4 false else e2), Status.ok)
  | none => match senderWay es st with
    | none => (s1, Status.tableFull)
    | some (w, evict) =>
      let s2 := (s1.wrTab (sndOff (4 * set + w)) (newSender kind addr static link st)).bump F.WH_SND_INSERTS
      (if evict then s2.bump F.WH_SND_EVICTIONS else s2.bump F.WH_SND_USED, Status.ok)

def execSenderWrite (q : Fin 16) (s : State) : Res :=
  whenLive s fun s => s.runOp (64 + q) 0x27 openTime State.senderWrite

def State.senderDelete (c : List Byte) (s : State) : State × Nat :=
  let set := s.sndSet (byteAt c 16) (cmdAddr c)
  let (s1, es) := s.rdSenders set
  match senderAt es (byteAt c 16) (cmdAddr c) with
  | some w => ((s1.wrTab (sndOff (4 * set + w)) (zeros 32)).lessSenders, Status.ok)
  | none => (s1, Status.notFound)

def execSenderDelete (q : Fin 16) (s : State) : Res :=
  whenLive s fun s => s.runOp (64 + q) 0x28 openTime State.senderDelete

/-! ## TABLE_CLEAR -/

/-- Every context freed without FLOW_END: contexts and buckets become zeros, each index in use goes to the free list. -/
def State.clearFlows (s : State) : State :=
  let used := (List.range s.flow.fresh).filter fun i => !s.flow.freed.any (·.1 == i)
  let s1 := (s.dropChain.clearTab 0 0x48000000).put F.WH_FT_USED 0
  { s1 with flow := { s1.flow with
      freed := s1.flow.freed ++ used.map fun i => (i, s.clk.cycle)
      recent := [], endings := [], lenDue := [] } }

/-- Every sender entry freed. -/
def State.clearSenders (s : State) : State :=
  let s1 := (s.clearTab 0x48000000 0x4C000000).put F.WH_SND_USED 0
  { s1 with flow := { s1.flow with recentSnd := [] } }

def State.tableClearEffect (c : List Byte) (t : State) : State × Nat :=
  let t1 := if bit (byteAt c 16) 0 then t.clearFlows else t
  (if bit (byteAt c 16) 1 then t1.clearSenders else t1, Status.ok)

def execTableClear (q : Fin 16) (s : State) : Res :=
  whenLive s fun s => s.runOp (64 + q) 0x29 openTime State.tableClearEffect

end Sys2Proof.Machine
end

