-- ==== Sys2Proof/Machine/Classify.lean ====
section
/-! DEFINITION. The rule stage, rule and ensemble loads, the tree stage, tree groups, batch ensembles (R156-R177, R181-R183). -/

namespace Sys2Proof.Machine

/-! ## Rule results (R165) -/

def resInspect (r : Nat) : Bool := bit r 20
def resRecirc (r : Nat) : Bool := bit r 21
def resProfile2 (r : Nat) : Nat := bits r 22 6
def resEnsemble (r : Nat) : Nat := bits r 58 6

/-! ## The rule key (R160) -/

/-- The key of a pass: its listed fields, then link, flags, missing bits and profile. -/
def State.ruleKey (s : State) (m : Mem) (p : Pass) (len : Nat) : Nat :=
  let fs := rsKeyFields m p.profile
  let val (f : Nat) : Nat × Bool := p.fields.getD f (0, true)
  let data := (fs.map fun f => keyBytes (s.desc p.epoch p.profile f).1 (val f)).flatten
  let miss := ((List.range fs.length).map fun j => b2n (val (fs.getD j 0)).2 * 2 ^ j).sum
  bytesNat (padTo (len - 4) data ++ natBytes 1 p.link
    ++ natBytes 1 (b2n p.second + 2 * b2n p.frag + 4 * b2n (s.priv p.link)) ++ natBytes 1 miss ++ natBytes 1 p.profile)

/-! ## The walk (R157, R162-R164) -/

/-- What the rule stage comes to: the rule result, or none for a miss, and its core cycles. -/
abbrev RuleOut := Option Nat × Nat

/-- The first rule of a leaf that matches. -/
def leafMatch (m : Mem) (key : Nat) (entries : List Nat) : Option Nat :=
  (entries.find? fun i =>
    let o := rsRuleOff m + 2 * rsKw m * i
    key &&& imgNat m (o + rsKw m) (rsKw m) == imgNat m o (rsKw m)).map fun i => imgNat m (rsResOff m + 8 * i) 8

/-- The walk from a node, `t` core cycles after the fields; at most 8 CUT nodes and what they lead to. -/
def ruleWalk (m : Mem) (key : Nat) : Nat → Nat → Nat → RuleOut
  | 0, _, t => (none, t + 2)
  | n + 1, i, t =>
    let w := rsNode m i
    match nodeKind w with
    | 1 => ruleWalk m key n (nodeLink w + bits key (nodeBit w) (nodeWidth w)) (t + 3)
    | 2 => (leafMatch m key ((List.range (nodeCount w)).map fun k => rsEntry m (nodeLink w + k) % 2 ^ 18),
            t + 3 + 3 + ceilDiv (nodeCount w) 2 + 2)
    | _ => (none, t + 3 + 2)

/-- The associative memory: the lowest entry that matches. -/
def assocMatch (m : Mem) (key : Nat) : Option Nat :=
  ((List.range (rsAm m)).find? fun i =>
    let o := rsAmOff m + 72 * i
    key &&& imgNat m (o + 32) 32 == imgNat m o 32).map fun i => imgNat m (rsAmOff m + 72 * i + 64) 8

/-- The rule stage of a pass: its result, whether it is the profile's miss result, and its core cycles (R157). -/
def State.ruleStage (s : State) (m : Mem) (p : Pass) : Nat × Bool × Nat :=
  let (r, t) : RuleOut := match rsClass m p.profile with
    | 1 => ruleWalk m (s.ruleKey m p (rsKw m)) 9 0 1
    | 2 => (assocMatch m (s.ruleKey m p 32), 8)
    | _ => (none, 2)
  (r.getD (imgNat m (rsProfOff p.profile + 16) 8), r.isNone, t)

/-! ## What a result leads to (R156, R165, R166) -/

/-- A pass takes its link's default action. -/
def State.passDefault (s : State) (p : Pass) : State :=
  s.putPass { p with result := .dflt, resultAt := s.clk.cycle }

/-- A MODE 2 first pass that asks for no second pass gives up its rewind mark (R107). -/
def State.dropMark (s : State) (p : Pass) : State :=
  if s.mode p.link == 2 && !p.second then
    (s.modFrame p.link p.frame fun x => if x.marked then { x with marked := false, released := true } else x).giveUp p.link
  else s

/-- A rule result that is final for its pass: TERMINAL stands at once, INSPECT waits for the features. -/
def State.finalResult (s : State) (p : Pass) (r : Nat) : State :=
  (s.dropMark p).putPass (({ p with result := .rule r, resultAt := s.clk.cycle } : Pass).readyAt s.clk.cycle)

/-- A rule result. -/
def State.ruleResult (s : State) (p : Pass) (e : RoEntry) (r : Nat) : State :=
  if resRecirc r && !p.second then
    if e.markLost || e.flushed then s.passDefault p
    else s.modEntry p.link p.seq fun x => { x with second := some (resProfile2 r), secondAt := s.clk.cycle }
  else (if resRecirc r then s.bump (F.WH_RECIRC_LIMIT p.link) else s).finalResult p r

/-- A pass that the rule stage still serves: fields, no result, its frame without a verdict (R159). -/
def State.classifies (s : State) (p : Pass) : Option RoEntry :=
  if p.result != .none || p.fields.isEmpty then none
  else (s.entry? p.link p.seq).filter fun e => !s.entered p.link e && (p.second || (!e.two && e.second.isNone))

/-- RULE_CLASSIFY under the rule bank of the frame's rule epoch (R167). -/
def State.classify (s : State) (r : PassRef) : State :=
  match s.pass? r with
  | none => s
  | some p => match s.classifies p with
    | none => s
    | some e =>
      let (res, miss, t) := s.ruleStage (s.img .rule e.rBank) p
      match s.reach (p.dealt + 12 + t + p.waited) with
      | none => s
      | some s1 =>
        if (s1.classifies p).isNone then s1
        else (if miss then s1.bump (F.WH_RULE_MISS p.link) else s1).ruleResult p e res

def execRuleClassify (p : PassRef) (s : State) : Res := whenLive s fun s => s.classify p

/-! ## Repair from the image (R161, R175) -/

/-- The bank and image side that a memory's words of a frame come from. -/
def RoEntry.imageOf (e : RoEntry) : RuleMem → BankKind × Nat
  | .tree => (.ensemble, e.eBank)
  | _ => (.rule, e.rBank)

/-- A 64-bit word of a bank's image fetched again while a pass waits, within 64 core cycles: how many is left open (log 10). -/
def State.refetch (s : State) (r : PassRef) (mem : RuleMem) (word : Nat) : State :=
  match s.pass? r with
  | none => s
  | some p =>
    let waits : Option RoEntry := match mem with
      | .tree => match p.result with
        | .vote _ _ _ _ => (s.entry? p.link p.seq).filter fun e => !s.entered p.link e
        | _ => none
      | _ => s.classifies p
    match waits with
    | none => s
    | some e =>
      let (bank, side) := e.imageOf mem
      let (o, size) := regionOf bank side
      if size ≤ 8 * word then s
      else
        let (s1, bs, marks) := (s.bump F.WH_RULE_REPAIR).rdTab (o + 8 * word) 8
        let (f, s2) := s1.free
        let d := 1 + f % 64
        if marks.any id then
          (s2.bump F.WH_RULE_POISON).putPass { p with result := .dflt, resultAt := s.clk.cycle + d }
        else
          (s2.setImg bank side (Memory.write (s2.img bank side) (8 * word) bs)).putPass
            (if mem == .tree then { p with resultAt := p.resultAt + d } else { p with waited := p.waited + d })

def execRuleWordRefetch (p : PassRef) (mem : RuleMem) (word : Nat) (s : State) : Res :=
  whenLive s fun s => s.refetch p mem word

/-! ## RULE_LOAD and ENS_LOAD (R169) -/

/-- An image's refusal by its sections: bad header, counts too large, short of its sections. -/
def imageStatus (b : BankKind) (m : Mem) (len : Nat) : Nat :=
  match b with
  | .ensemble =>
    if enBadHead m || len < enTreeOff (max 1 (min 2 (enPlanes m))) 0 then Status.imageInvalid else Status.ok
  | _ =>
    if rsBadHead m then Status.imageInvalid
    else if rsTooLarge m then Status.tableFull
    else if len < rsEnd m then Status.imageInvalid else Status.ok

/-- A load into the staging bank: the window check, the bank's state, poison (R329), the image itself. -/
def State.loadBank (b : BankKind) (c : List Byte) (t : State) : State × Nat :=
  let addr := fieldAt c 16 8
  let sp := byteAt c 24
  let len := fieldAt c 28 4
  match (if sp = 0 then t.grant [(false, addr, len)] else none) with
  | some t' => (t', Status.dmaFault)
  | none =>
    if t.stagingBusy b then (t, Status.primeBusy)
    else
      let (t1, ws) := t.readSpace sp addr len
      let bs := wordBytesOf ws
      if anyMark ws then (t1, Status.poison)
      else
        let st := imageStatus b (Memory.write [] 0 bs) len
        if st = Status.ok then (t1.loadImage b bs, st) else (t1, st)

def execRuleLoad (q : Fin 16) (stores : List (Nat × List Byte)) (s : State) : Res :=
  whenLive (s.hostStores stores) fun s => s.runOp (64 + q) 0x30 openTime (State.loadBank .rule)

def execEnsLoad (q : Fin 16) (stores : List (Nat × List Byte)) (s : State) : Res :=
  whenLive (s.hostStores stores) fun s => s.runOp (64 + q) 0x31 openTime (State.loadBank .ensemble)

/-! ## Trees and the vote (R172-R174) -/

/-- Whether a tree unit's node goes right: an invalid node never does. -/
def nodeRight (w : Nat) (feat : Nat) : Bool :=
  bit w 31 && match featVal feat with
    | none => !bit w 30
    | some x => sInt 16 w < x

/-- The leaf index of a tree: eight decisions from node 0 down, the first most significant. -/
def leafFrom (node feat : Nat → Nat) : Nat → Nat → Nat → Nat
  | 0, _, leaf => leaf
  | n + 1, i, leaf =>
    let d := b2n (nodeRight (node i) (feat i))
    leafFrom node feat n (2 * i + 1 + d) (2 * leaf + d)

/-- The leaf word a tree at offset `o` of a section gives for a feature vector. -/
def treeLeaf (m : Mem) (feats : List Nat) (o : Nat) : Nat :=
  let node (i : Nat) := imgNat m (o + 4 * i) 4
  imgNat m (o + 1024 + 2 * leafFrom node (fun i => feats.getD (bits (node i) 23 7) 0x8000) 8 0 0) 2

/-- Total, class, margin and score sum of a list of leaf words (R174): the lowest class wins a tie. -/
def vote (leaves : List Nat) : Nat × Nat × Nat × Nat :=
  let total (c : Nat) := ((leaves.filter fun l => l % 16 == c).map fun l => bits l 4 4).sum
  let win := (List.range 16).foldl (fun w c => if total w < total c then c else w) 0
  let second := ((List.range 16).filter (· != win)).foldl (fun a c => max a (total c)) 0
  (total win, win, total win - second, (leaves.map fun l => bits l 8 8).sum)

/-! ## TREE_ISSUE (R176, R177) -/

/-- The cycle of the second plane that a lane's group has still to issue. -/
def State.planeAt (s : State) (lane : Nat) : Nat := (sget (0, 0, 0, false) s.intake.treePlane lane).1

/-- The first cycle in which a lane's group can issue a pass: a privileged link's may come between the two planes of a wide
ensemble. -/
def State.issuable (s : State) (lane : Nat) (p : Pass) : Nat :=
  let c := max s.clk.cycle (p.ready.getD 0 + 1)
  if s.priv p.link && c ≤ s.planeAt lane then max c (s.planeAt lane) else max c (sget 0 s.intake.treeFree lane)

/-- The passes that a group chooses from, the oldest first. -/
def State.treeQueue (s : State) (lane : Nat) : List Pass := (s.treeReady lane).take 32

/-- The pass that a group issues at a cycle: the oldest of a privileged link, or else the oldest other. -/
def State.nextIssue (s : State) (lane cycle : Nat) : Option Pass :=
  let q := (s.treeQueue lane).filter fun p => s.issuable lane p ≤ cycle
  match q.find? fun p => s.priv p.link with
  | some p => some p
  | none => q.head?

/-- The tree group of a lane is in service (R171). -/
def State.groupUp (s : State) (lane : Nat) : Bool := bit (s.raw R.WH_TG_STATUS) (sget lane s.banks.laneGroup lane)

/-- The first cycle in which a lane's group can issue; none while it is out of service. -/
def State.issueCycle (s : State) (lane : Nat) : Option Nat :=
  if s.groupUp lane then leastOf ((s.treeQueue lane).map fun p => s.issuable lane p) else none

/-- A TRB command, which takes the tree-unit cycles that the fast path leaves (R41, R183). -/
def treeUse (q : Nat) (_ : List Byte) : Bool := q / 16 == 2

/-- A group's cycles for a pass: for a plane at `c`, and for the second plane of a wide ensemble, which a privileged pass delays. The
passes of other links in its queue wait behind a privileged one. -/
def State.takeGroup (s : State) (lane : Nat) (p : Pass) (wide : Bool) : State :=
  let c := s.clk.cycle
  let n := if wide then 2 else 1
  let between := c == s.planeAt lane
  let i := s.intake
  let (_, pl, pq, ps) := sget (0, 0, 0, false) i.treePlane lane
  let s1 : State := { s with intake := { i with
    treeFree := sset 0 i.treeFree lane (if between then c + 2 else c + n)
    treePlane := sset (0, 0, 0, false) i.treePlane lane (if wide then (c + 1, p.link, p.seq, p.second) else (0, 0, 0, false))
    treeSlots := if s.priv p.link then bumpMap i.treeSlots (64 * lane + p.link) n else i.treeSlots
    passes := i.passes.map fun x =>
      let x1 := if between && x.link == pl && x.seq == pq && x.second == ps && x.final then { x with resultAt := x.resultAt + 1 } else x
      if s.priv p.link && !s.priv x.link && x.lane == lane && x.ready.isSome then { x1 with behind := some s.clk.openCycle } else x1 } }
  s1.giveWay treeUse (s.rungKey p.link) c n

/-- The ensemble that a pass's result names in its frame's bank, if it may run: its section, its entry. -/
def State.ensembleOf (s : State) (p : Pass) (e : RoEntry) (r : Nat) : Option (Mem × Nat) :=
  let m := s.img .ensemble e.eBank
  let v := enEntry m (resEnsemble r)
  if ensValid v && (!ensWide v || s.rateRed p.link) then some (m, v) else none

/-- A group issues a pass's ensemble: the vote stands 8 core cycles later, 9 for a wide one. -/
def State.issue (s : State) (lane : Nat) (p : Pass) : State :=
  match p.result, s.entry? p.link p.seq with
  | .rule r, some e =>
    if s.entered p.link e then s.putPass { p with ready := none }
    else match s.ensembleOf p e r with
      | none => (s.bump (F.WH_ENS_REFUSED p.link)).passDefault { p with ready := none }
      | some (m, v) =>
        let leaves := (ensTrees v).map (treeLeaf m (p.feats.getD []))
        let (_, cls, margin, sum) := vote leaves
        let n := if ensWide v then 2 else 1
        (s.takeGroup lane p (ensWide v)).putPass { p with
          ready := none, result := .vote r cls margin (sum / leaves.length), resultAt := s.clk.cycle + 7 + n }
  | _, _ => s.putPass { p with ready := none }

/-- TREE_ISSUE: the lane's group issues its next pass, in the first cycle it can. -/
def State.treeIssue (s : State) (lane : Nat) : State :=
  match (s.issueCycle lane).bind s.reach with
  | none => s
  | some s1 => match s1.nextIssue lane s1.clk.cycle with
    | none => s
    | some p => s1.issue lane p

def execTreeIssue (lane : Fin 24) (s : State) : Res := whenLive s fun s => s.treeIssue lane

/-! ## Tree groups (R171) -/

/-- The lane that a group serves. -/
def State.groupLane (s : State) (g : Nat) : Option Nat :=
  (List.range 24).find? fun l => sget l s.banks.laneGroup l == g && bit (s.raw R.WH_LANES) l

/-- A lane in or out of service. -/
def State.setLane (s : State) (l : Nat) (b : Bool) : State := s.putB ⟨R.WH_LANES, l, 1⟩ b

/-- Passes queued on or in flight in a lane's group take their link's default action. -/
def State.failPasses (s : State) (lane : Nat) : State :=
  s.setPasses (s.intake.passes.map fun p =>
    let flight := match p.result with
      | .vote _ _ _ _ => s.clk.cycle < p.resultAt
      | _ => false
    if p.lane == lane && (p.ready.isSome || flight) then
      { p with ready := none, result := .dflt, resultAt := s.clk.cycle } else p)

/-- UNIT_FAILED (R90). -/
def State.unitFailed (s : State) (kind unit action spares : Nat) : State :=
  s.raise 0x0501 (payload 16 [(0, 1, kind), (1, 2, unit), (3, 1, action), (4, 1, spares)])

/-- A group fails, or is taken for in-service test: the spare, if it is free, is loaded for its lane. -/
def State.groupFail (s : State) (g : Nat) : State :=
  let spare := s.get F.WH_TG_SPARE_GROUP
  let free := !s.on F.WH_TG_SPARE_NONE && s.banks.spareFor.isNone
  let out := s.putB ⟨R.WH_TG_STATUS, g, 1⟩ false
  match s.groupLane g with
  | some l =>
    let s1 := (out.setLane l false).failPasses l
    if free then
      ({ s1 with banks := { s1.banks with spareFor := some l } }).unitFailed 2 g 1 0
    else s1.unitFailed 2 g 2 0
  | none =>
    if g = spare && !s.on F.WH_TG_SPARE_NONE then
      ({ out with banks := { out.banks with spareFor := none } }.putB F.WH_TG_SPARE_NONE true).unitFailed 2 g 2 0
    else s

def execTreeGroupFail (group : Fin 25) (s : State) : Res := whenLive s fun s => s.groupFail group

/-- The spare group is loaded: it serves the lane from now on. -/
def State.spareLoaded (s : State) : State :=
  match s.banks.spareFor with
  | none => s
  | some l =>
    let g := s.get F.WH_TG_SPARE_GROUP
    let s1 := { s with banks := { s.banks with spareFor := none, laneGroup := sset l s.banks.laneGroup l g } }
    ((s1.putB ⟨R.WH_TG_STATUS, g, 1⟩ true).putB F.WH_TG_SPARE_NONE true).setLane l true

def execSpareGroupLoaded (s : State) : Res := whenLive s State.spareLoaded

/-! ## Batch ensembles (R181-R183) -/

/-- The 40 features of a flow-end record (R182). -/
def flowFeatures (c : List Byte) : List Nat :=
  let log (v : Nat) := featCode (some (logCode v))
  let sat (v : Nat) := featCode (some v)
  [log (ctxFrames c), log (fieldAt c 72 8), log (fieldAt c 92 4), sat (fieldAt c 96 2), sat (fieldAt c 98 2)]
  ++ (List.range 4).map (fun i => log (fieldAt c (112 + 4 * i) 4))
  ++ [sat (b2n (ctxConflict c)), log ((fieldAt c 64 8 + 2 ^ 64 - fieldAt c 56 8) % 2 ^ 64)
      , sat ((ctxLastStroke c + 2 ^ 32 - fieldAt c 84 4) % 2 ^ 32), sat (ctxProfile c), sat (ctxKeyspace c)
      , sat (bits (byteAt c 55) 6 2), featCode (scaleRne (fieldAt c 100 4) 8)]
  ++ (List.range 24).map fun i => featCode (some (sInt 16 (fieldAt c (2 * i) 2)))

/-- Bytes of an input record. -/
def batchRecBytes (fmt f : Nat) : Nat := if fmt = 1 then 128 else ceilDiv (2 * f) 16 * 16

/-- Features of an input record. -/
def batchFeatures (fmt f : Nat) (bs : List Byte) : List Nat :=
  if fmt = 1 then flowFeatures bs else (List.range f).map fun i => fieldAt bs (2 * i) 2

/-- A batch tree's leaf word for a record, and whether a poisoned word took part. -/
def batchLeaf (tree : List Byte) (marks : List Bool) (feats : List Nat) : Nat × Bool :=
  let node (i : Nat) := fieldAt tree (4 * i) 4
  let feat (i : Nat) := feats.getD (bits (node i) 23 7 + 128 * bits (node i) 16 2) 0x8000
  let leaf := leafFrom node feat 8 0 0
  (fieldAt tree (1024 + 2 * leaf) 2, (marks.take 64).any id || marks.getD (64 + leaf / 8) false)

/-- A batch output record; one that is poisoned carries free values beside its mark and its index (log 10). -/
def batchRecord (s : State) (leaves : List (Nat × Bool)) (marked : Bool) (index : Nat) : State × List Byte × Bool :=
  let poisoned := marked || leaves.any (·.2)
  let (tot, cls, margin, sum) := vote (leaves.map (·.1))
  if poisoned then
    let (a, s1) := s.free
    let (b, s2) := s1.free
    let (d, s3) := s2.free
    (s3, natBytes 4 (a % 2 ^ 28 + 2 ^ 28) ++ natBytes 4 (b % 2 ^ 24) ++ natBytes 4 d ++ natBytes 4 index, true)
  else (s, natBytes 4 (tot + 2 ^ 24 * cls) ++ natBytes 4 margin ++ natBytes 4 sum ++ natBytes 4 index, false)

/-- The output records of a run, in input order. -/
def batchRecords (s : State) (score : List Byte → List (Nat × Bool)) : Nat → List (List Byte × Bool) →
    State × List (List Byte × Bool)
  | _, [] => (s, [])
  | i, (bs, mark) :: rest =>
    let (s1, r, p) := batchRecord s (score bs) mark i
    let (s2, rs) := batchRecords s1 score (i + 1) rest
    (s2, (r, p) :: rs)

/-- The records of `size` bytes of a range read as 16-byte words. -/
def groupRecords (size : Nat) : Nat → List (List Byte × Bool) → List (List Byte × Bool)
  | 0, _ => []
  | n + 1, ws =>
    let k := size / 16
    (wordBytesOf (ws.take k), anyMark (ws.take k)) :: groupRecords size n (ws.drop k)

/-- Trees of 1,536 bytes with the marks of their words. -/
def groupTrees : Nat → List (List Byte × Bool) → List (List Byte × List Bool)
  | 0, _ => []
  | n + 1, ws => (wordBytesOf (ws.take 96), (ws.take 96).map (·.2)) :: groupTrees n (ws.drop 96)

/-- ENSEMBLE_RUN: every record is read before the first output is written (log 13). -/
def State.ensembleRun (c : List Byte) (t : State) : State × Nat :=
  let out := fieldAt c 32 8
  let nt := fieldAt c 40 4
  let n := fieldAt c 44 4
  let f := fieldAt c 48 2
  let fmt := byteAt c 53
  match (if byteAt c 52 = 0 then t.grant [(true, out, 16 * n)] else none) with
  | some t' => (t', Status.dmaFault)
  | none =>
    let (t1, tw) := t.readSpace (byteAt c 50) (fieldAt c 16 8) (1536 * nt)
    let trees := groupTrees nt tw
    let size := batchRecBytes fmt f
    let (t2, rw) := t1.readSpace (byteAt c 51) (fieldAt c 24 8) (size * n)
    let score (bs : List Byte) := trees.map fun (tree, marks) => batchLeaf tree marks (batchFeatures fmt f bs)
    let (t3, rs) := batchRecords t2 score 0 (groupRecords size n rw)
    let (t4, _) := t3.writeSpace (byteAt c 52) out (rs.map fun r => (r.1, false))
    (t4, if rs.any (·.2) then Status.poison else Status.ok)

/-- Core cycles that `n` bytes take from a bay of the Cistern at 4.096 TB/s, or from the Aquifer at 1.024 TB/s (R183). -/
def feedCycles (space n : Nat) : Nat := ceilDiv (5 * n) (if space = 2 then 2048 else 8192)

/-- Core cycles of a run (R183): its chunks of 1,536 trees loaded once, or for every block of 4,096 records where there are several;
each chunk's pass over a block, a record a cycle or what the input's space supplies. DESIGN CHOICE (log 36): records come from
their space at the rate at which R183 loads trees from it, and nothing of a run overlaps. -/
def ensembleCycles (c : List Byte) (_ : State) : Option Nat :=
  let t := fieldAt c 40 4
  let n := fieldAt c 44 4
  let load := (List.range (ceilDiv t 1536)).map fun k => feedCycles (byteAt c 50) (1536 * min 1536 (t - 1536 * k))
  let block (k : Nat) : Nat := max k (feedCycles (byteAt c 51) (2 * fieldAt c 48 2 * k))
  let feed := n / 4096 * block 4096 + block (n % 4096)
  some ((if load.length = 1 then load.sum else ceilDiv n 4096 * load.sum) + load.length * feed)

def execEnsembleRun (q : Fin 16) (s : State) : Res :=
  whenLive s fun s => s.runOp (32 + q) 0x10 ensembleCycles State.ensembleRun

end Sys2Proof.Machine
end

