-- ==== Sys2Proof/Machine/Matrix.lean ====
section
/-! DEFINITION. The matrix array: MATMUL, CONV and MOVE, tile faults, spares and remaps (chapter 07, R215-R247). -/

namespace Sys2Proof.Machine

/-! ## Formats (R216) -/

/-- Serial width of a format code. -/
def fmtWidth : Nat → Nat
  | 0 | 1 => 1
  | 2 => 2
  | 3 => 4
  | 4 => 8
  | _ => 16

/-- The value of an element. -/
def fmtVal (f v : Nat) : Int :=
  match f with
  | 0 => v % 2
  | 1 => if v % 2 = 1 then 1 else -1
  | _ => sInt (fmtWidth f) v

/-- Element `i` of width `w` bits of a packed operand (R228). -/
def packedAt (a : Array Byte) (w i : Nat) : Nat :=
  let o := w * i
  let byte (k : Nat) : Nat := (a.getD k 0).toNat
  (byte (o / 8) + 256 * byte (o / 8 + 1)) / 2 ^ (o % 8) % 2 ^ w

/-- `n` elements of a format. -/
def unpackFmt (f n : Nat) (bs : List Byte) : List Int :=
  let a := bs.toArray
  (List.range n).map fun i => fmtVal f (packedAt a (fmtWidth f) i)

/-! ## Command fields (R233-R235) -/

def matSt (c : List Byte) : Nat := fieldAt c 16 8
def matMv (c : List Byte) : Nat := fieldAt c 24 8
def matOut (c : List Byte) : Nat := fieldAt c 32 8
def matNext (c : List Byte) : Nat := fieldAt c 40 8
def matTiles (c : List Byte) : List Nat := (List.range 4).filter fun i => bit (byteAt c 54) i
def matFlow (c : List Byte) : Nat := byteAt c 55 % 4
def matMvFmt (c : List Byte) : Nat := byteAt c 56 % 8
def matStFmt (c : List Byte) : Nat := byteAt c 57 % 8
def matStSpace (c : List Byte) : Nat := bits (byteAt c 58) 0 2
def matMvSpace (c : List Byte) : Nat := bits (byteAt c 58) 2 2
def matOutSpace (c : List Byte) : Nat := bits (byteAt c 58) 4 2
def matKeep (c : List Byte) : Bool := bit (byteAt c 59) 0
def matPreload (c : List Byte) : Bool := bit (byteAt c 59) 1
def matShare (c : List Byte) : Bool := bit (byteAt c 59) 2
def matStStride (c : List Byte) : Nat := fieldAt c 64 4
def matMvStride (c : List Byte) : Nat := fieldAt c 68 4
def matOutStride (c : List Byte) : Nat := fieldAt c 72 4
def matIs (c : List Byte) : Bool := matFlow c == 2
def matPair (c : List Byte) : Bool := matStFmt c == 5

def convH (c : List Byte) : Nat := fieldAt c 96 2
def convW (c : List Byte) : Nat := fieldAt c 98 2
def convC (c : List Byte) : Nat := fieldAt c 100 2
def convCblk (c : List Byte) : Nat := fieldAt c 102 2
def convKh (c : List Byte) : Nat := byteAt c 104
def convKw (c : List Byte) : Nat := byteAt c 105
def convNtap (c : List Byte) : Nat := byteAt c 106
/-- SH, SW, DH, DW, PT, PB, PL, PR by number. -/
def convGeo (c : List Byte) (i : Nat) : Nat := byteAt c (107 + i)
def convOy0 (c : List Byte) : Nat := fieldAt c 116 2
def convOx0 (c : List Byte) : Nat := fieldAt c 118 2
def convNoh (c : List Byte) : Nat := fieldAt c 120 2
def convNow (c : List Byte) : Nat := fieldAt c 122 2

/-- Output rows or columns of a convolution (R231). -/
def convOut (size lo hi dil k stride : Nat) : Int :=
  ((size + lo + hi : Nat) - (dil * (k - 1) : Nat) - 1 : Int).fdiv stride + 1

def convOh (c : List Byte) : Int := convOut (convH c) (convGeo c 4) (convGeo c 5) (convGeo c 2) (convKh c) (convGeo c 0)
def convOw (c : List Byte) : Int := convOut (convW c) (convGeo c 6) (convGeo c 7) (convGeo c 3) (convKw c) (convGeo c 1)

def isConv (c : List Byte) : Bool := cmdOp c == 0x12

/-- Words per block and blocks (R231, R232). -/
def matNw (c : List Byte) : Nat := if isConv c then convNoh c * convNow c else fieldAt c 48 4
def matNb (c : List Byte) : Nat :=
  if isConv c then ceilDiv (convKh c * convKw c) (convNtap c) * ceilDiv (convC c) (convCblk c) else fieldAt c 52 2

/-- Bytes of a stationary block, of a moving word, of a result word (R228). -/
def matStBytes (c : List Byte) : Nat := (if matIs c then 1024 else 16384) * min 8 (fmtWidth (matStFmt c))
def matMvBytes (c : List Byte) : Nat := (if matIs c then 512 else 32) * fmtWidth (matMvFmt c)
def matOutBytes (c : List Byte) : Nat := if matPair c then 1024 else 2048
/-- Result words: one per word in WS, one per entry that a word goes to otherwise. DEDUCED (log 38): of the 64 entries R221 writes
out, those that no word of the command reaches are not among R228's items, the words j, and D takes NW cycles for them (R237). -/
def matOuts (c : List Byte) : Nat := if matFlow c = 0 then matNb c * matNw c else matNw c

/-! ## Time (R237) -/

/-- Cycles of one moving word (R219, R232). -/
def matWordCycles (c : List Byte) : Nat :=
  let b := fmtWidth (matMvFmt c)
  if isConv c then max b (if matMvSpace c = 0 then ceilDiv (convNtap c) 4 else convNtap c) else b

/-- Bit slices of one block. -/
def matSlices (c : List Byte) : Nat := matNw c * matWordCycles c

/-- Cycles before block 0's first slice, without those in which its rows are written; a block from the Aquifer counts as one from
the Cistern (log 15). -/
def matLead (c : List Byte) : Nat := if (if matKeep c then matMvSpace c else matStSpace c) = 0 then 8 else 24

/-- Array cycles of a command. -/
def matCycles (c : List Byte) : Nat :=
  let w := matSlices c
  let d := 21 + (if matFlow c = 0 then 0 else matNw c) + (if matOutSpace c = 1 then 20 else 0)
  matLead c + (if matKeep c then 0 else 256) + (matNb c - 1) * max w 256 + (if matPreload c then max w 256 else w) + d

/-! ## The loader and the wave, cycle by cycle (R215, R223-R226) -/

/-- The loader's cycle: a load begins only on an EMPTY shadow, every band LOADING from then on; one row is written, and band m is
FULL in the cycle of row 16m + 15 (R223, R224). -/
def Wave.load (w : Wave) : Wave :=
  let begins := w.rows.isNone && 0 < w.loads && w.shadows.all (· == .empty)
  let w1 := if begins then { w with loads := w.loads - 1, rows := some 0, shadows := List.replicate 16 .loading } else w
  match w1.rows with
  | none => w1
  | some r => { w1 with
      shadows := if r % 16 = 15 then w1.shadows.set (r / 16) .full else w1.shadows
      rows := if r = 255 then none else some (r + 1) }

/-- The slice that would enter band 0 in this cycle. -/
def Wave.entering (w : Wave) : Option (Nat × Bool) :=
  if w.started && 0 < w.left then some (w.block, w.left == 1) else none

/-- The slices as they stand at the bands in this cycle, if the tile does not freeze. -/
def Wave.presented (w : Wave) : List (Option (Nat × Bool)) := w.entering :: w.slices.take 15

/-- A marker at a LOADING band freezes the tile (R224). -/
def Wave.frozen (w : Wave) : Bool :=
  (w.presented.zip w.shadows).any fun (x, b) => b == .loading && match x with
    | some (_, last) => last
    | none => false

/-- A marker at a FULL band copies its SH to its SR at the end of the cycle. -/
def Wave.switches (w : Wave) (m : Nat) : Bool :=
  w.shadows.getD m .empty == .full && match w.presented.getD m none with
    | some (_, last) => last
    | none => false

/-- Slices and markers move on, but in a frozen cycle. -/
def Wave.move (w : Wave) : Wave :=
  if w.frozen then w
  else
    let next := if w.left = 1 && w.block + 1 < w.blocks then w.width else w.left - 1
    { w with
      slices := w.presented
      shadows := (List.range 16).map fun m => if w.switches m then .empty else w.shadows.getD m .empty
      on := (List.range 16).map fun m => w.on.getD m 0 + (if w.switches m then 1 else 0)
      block := if w.started && w.left = 1 && w.block + 1 < w.blocks then w.block + 1 else w.block
      left := if w.started then next else w.left }

/-- One array cycle. DEDUCED (log 38): block 0, which no marker announces, is in force in every band once its last row is written,
as L0 has it (R237). -/
def Wave.step (w : Wave) : Wave :=
  if 0 < w.wait then { w with wait := w.wait - 1 }
  else
    let w1 := w.load
    if !w1.started && w1.shadows.all (· == .full) then { w1 with shadows := List.replicate 16 .empty, started := true }
    else w1.move

/-- `n` array cycles. -/
def Wave.steps : Nat → Wave → Wave
  | 0, w => w
  | n + 1, w => Wave.steps n w.step

/-- A tile at the start of a command. -/
def waveStart (c : List Byte) : Wave :=
  { wait := matLead c, loads := matNb c - b2n (matKeep c) + b2n (matPreload c), started := matKeep c
    left := matSlices c, blocks := matNb c, width := matSlices c }

/-- The wave of a partition's tiles under the MATMUL or CONV that runs, by the array cycles of its work; freezes for operands that
have not arrived (R230) are among the cycles that log 15 leaves out. -/
def State.wave (s : State) (p : Nat) : Option Wave :=
  match (s.q p).cur, (s.q p).cmds with
  | some r, .cmd c :: _ =>
    if cmdOp c = 0x11 || cmdOp c = 0x12 then some (Wave.steps (r.work8 / 8) (waveStart c)) else none
  | _, _ => none

/-! ## Checks at admission (R236, R241, R244) -/

/-- A range that leaves its space, or a Cistern range outside the partition's bay mask. -/
def State.matRangeBad (s : State) (p sp a n : Nat) : Bool :=
  let mask := s.getF (F.MX_PART_BAYS_BAYS p)
  match sp with
  | 0 => 0x200000 < a + n
  | 1 => 2 ^ 32 < a + n || (List.range ((a + n - 1) / 2 ^ 28 - a / 2 ^ 28 + 1)).any fun i => !bit mask (a / 2 ^ 28 + i)
  | _ => 384 * 2 ^ 30 < a + n

/-- The partition has failed (R244). -/
def State.partFailed (s : State) (p : Nat) : Bool := s.on (F.MX_PART_STATUS_FAILED p)

/-- A logical tile is vacant or awaits its remap. -/
def State.tileOut (s : State) (l : Nat) : Bool :=
  s.on (F.MX_REMAP_VACANT l) || s.matrix.swaps.any fun x => x.logical == l

/-- Fields that MATMUL and CONV share: reserved bits, formats, spaces, alignment. -/
def matHeadBad (c : List Byte) : Bool :=
  16 ≤ byteAt c 54 || 4 ≤ byteAt c 55 || 8 ≤ byteAt c 56 || 8 ≤ byteAt c 57 || 64 ≤ byteAt c 58 || 8 ≤ byteAt c 59
    || !allZero ((c.drop 60).take 4) || !allZero ((c.drop 76).take 20) || (matTiles c).isEmpty
    || matFlow c == 3 || 5 < matMvFmt c || 5 < matStFmt c || (matIs c && matPair c)
    || matStSpace c == 3 || matMvSpace c == 3 || 1 < matOutSpace c
    || matSt c % 64 != 0 || matNext c % 64 != 0 || matMv c % 16 != 0 || matOut c % 16 != 0
    || matStStride c % 64 != 0 || (!matShare c && matMvStride c % 16 != 0) || matOutStride c % 16 != 0

/-- Fields of a CONV. -/
def convBad (c : List Byte) : Bool :=
  let b := fmtWidth (matMvFmt c)
  let pads := (List.range 4).map fun i => convGeo c (4 + i)
  let in16 (v : Nat) : Bool := v == 0 || 16 < v
  fieldAt c 48 4 != 0 || fieldAt c 52 2 != 0 || 1 < matFlow c || matMvSpace c == 2
    || convH c == 0 || convW c == 0 || convC c == 0 || convCblk c == 0 || 256 < convCblk c
    || in16 (convKh c) || in16 (convKw c) || convNtap c == 0 || 256 < convNtap c * convCblk c
    || (List.range 4).any (fun i => in16 (convGeo c i)) || pads.any (15 < ·) || byteAt c 115 != 0
    || !allZero ((c.drop 124).take 4) || convC c * b % 8 != 0 || convCblk c * b % 8 != 0
    || (matMvFmt c == 1 && pads.any (0 < ·))
    || convOh c < (convOy0 c + convNoh c : Nat) || convOw c < (convOx0 c + convNow c : Nat)

/-- The ranges of one tile of a command: space, address, bytes. -/
def matRanges (c : List Byte) (i : Nat) : List (Nat × Nat × Nat) :=
  let keep := b2n (matKeep c)
  let mv := if isConv c then convH c * convW c * convC c * fmtWidth (matMvFmt c) / 8 else matNb c * matNw c * matMvBytes c
  [(matOutSpace c, matOut c + i * matOutStride c, 2048 * (matOuts c - 1) + matOutBytes c),
   (matMvSpace c, matMv c + (if matShare c then 0 else i * matMvStride c), mv)]
  ++ (if keep < matNb c then [(matStSpace c, matSt c + i * matStStride c + keep * matStBytes c, (matNb c - keep) * matStBytes c)]
      else [])
  ++ (if matPreload c then [(matStSpace c, matNext c + i * matStStride c, matStBytes c)] else [])

/-- The block in force on a tile serves a KEEP_ST command. -/
def State.keepOk (s : State) (c : List Byte) (l : Nat) : Bool :=
  match sget none s.matrix.blocks l with
  | some b => b.fmt == matStFmt c && b.is == matIs c
  | none => false

/-- What a MATMUL or CONV of partition `p` is refused with. -/
def State.matCheck (s : State) (p : Nat) (c : List Byte) : Option Nat :=
  let top := if matFlow c = 0 then 65536 else 64
  if matHeadBad c || (isConv c && convBad c) || matNb c = 0 || matNw c = 0 || top < matNw c
      || (matTiles c).any fun i => (matRanges c i).any fun r => s.matRangeBad p r.1 r.2.1 r.2.2 then some Status.badCommand
  else if (matTiles c).any fun i => s.tileOut (4 * p + i) then some Status.unitFault
  else if matKeep c && (matTiles c).any fun i => !s.keepOk c (4 * p + i) then some Status.badCommand
  else none

/-- The copies a MOVE makes: source space, tile and address, destination space, tile and address (R235). -/
def moveCopies (c : List Byte) : List ((Nat × Nat × Nat) × (Nat × Nat × Nat)) :=
  let src := fieldAt c 16 8
  let dst := fieldAt c 24 8
  let ss := byteAt c 36
  let ds := byteAt c 37
  let tiles := (List.range 4).filter fun i => bit (byteAt c 38) i
  let bcast := bit (byteAt c 39) 0
  let st := fieldAt c 40 4
  let low := tiles.headD 0
  if ss = 0 && ds = 0 then
    ((if tiles.length = 1 then tiles else tiles.drop 1).map fun i => ((0, low, src), (0, i, dst)))
  else if ds = 0 then tiles.map fun i => ((ss, 0, src + if bcast then 0 else i * st), (0, i, dst))
  else tiles.map fun i => ((0, i, src), (ds, 0, dst + i * st))

/-- What a MOVE is refused with; one with no tile-buffer end, or that broadcasts away from the tiles, has a parameter outside
its range (log 15). -/
def State.moveCheck (s : State) (p : Nat) (c : List Byte) : Option Nat :=
  let n := fieldAt c 32 4
  let ss := byteAt c 36
  let ds := byteAt c 37
  if 16 ≤ byteAt c 38 || byteAt c 38 == 0 || 2 ≤ byteAt c 39 || !allZero ((c.drop 44).take 20) || 2 < ss || 1 < ds
      || (ss != 0 && ds != 0) || (bit (byteAt c 39) 0 && ds != 0) || n < 16 || 0x200000 < n || n % 16 != 0
      || fieldAt c 16 8 % 16 != 0 || fieldAt c 24 8 % 16 != 0 || fieldAt c 40 4 % 16 != 0
      || (moveCopies c).any fun (a, b) => s.matRangeBad p a.1 a.2.2 n || s.matRangeBad p b.1 b.2.2 n then some Status.badCommand
  else if ((List.range 4).filter fun i => bit (byteAt c 38) i).any fun i => s.tileOut (4 * p + i) then some Status.unitFault
  else none

/-! ## Operands (R228, R231) -/

/-- The memory behind a MAT space of a partition's tile. -/
def matMem (p sp i : Nat) : MemId :=
  match sp with
  | 0 => .buf (4 * p + i)
  | 2 => .aq
  | _ => .cis

/-- A stationary block as the array uses it: a function from row and column to the operand, and the marked columns. -/
def stValue (c : List Byte) (a : Array Byte) (r k : Nat) : Int :=
  if matIs c then fmtVal (matStFmt c) (packedAt a (fmtWidth (matStFmt c)) (32 * r + k))
  else if matPair c then sInt 16 (packedAt a 16 (256 * r + k))
  else fmtVal (matStFmt c) (packedAt a (fmtWidth (matStFmt c)) (512 * r + k))

/-- Results of one moving word: 512, or 256 in PAIR16. -/
def matCols (c : List Byte) : Nat := if matPair c then 256 else 512

/-- A result column that one of the poisoned stationary words `bad`, numbered in the block, loads (R247). -/
def colMarked (c : List Byte) (bad : List Nat) (j : Nat) : Bool :=
  let w := if matPair c then 16 else fmtWidth (matStFmt c)
  let cols := if matIs c then 32 else matCols c
  let k := if matIs c then j % 32 else j
  bad.any fun i => (List.range (128 / w)).any fun e => (i * (128 / w) + e) % cols == k

/-- The exact sums of a moving word with a stationary block (R217, R218, R222). -/
def matSums (c : List Byte) (st : Array Byte) (xs : List Int) : List Int :=
  let x := xs.toArray
  (List.range (matCols c)).map fun j =>
    let (g, k) := if matIs c then (j / 32, j % 32) else (0, j)
    (List.range 256).foldl (fun acc r => acc + stValue c st r k * x.getD (256 * g + r) 0) 0

/-- One run of a convolution word: the elements of a tap's channel chunk, read unless they are padding (R231). -/
def State.convTap (s : State) (m : MemId) (c : List Byte) (base k oy ox tt : Nat) : State × List Int × Bool :=
  let b := fmtWidth (matMvFmt c)
  let ncu := ceilDiv (convC c) (convCblk c)
  let t := k / ncu * convNtap c + tt
  let c0 := k % ncu * convCblk c
  let zero (n : Nat) : List Int := List.replicate n (fmtVal (matMvFmt c) 0)
  let iy : Int := (oy * convGeo c 0 + t / convKw c * convGeo c 2 : Nat) - (convGeo c 4 : Int)
  let ix : Int := (ox * convGeo c 1 + t % convKw c * convGeo c 3 : Nat) - (convGeo c 6 : Int)
  if convKh c * convKw c ≤ t || iy < 0 || (convH c : Int) ≤ iy || ix < 0 || (convW c : Int) ≤ ix then
    (s, zero (convCblk c), false)
  else
    let n := min (convCblk c) (convC c - c0)
    let first := (iy.toNat * convW c + ix.toNat) * convC c + c0
    let (s1, bs, marks) := s.rdRange m (base + first * b / 8) (n * b / 8)
    (s1, unpackFmt (matMvFmt c) n bs ++ zero (convCblk c - n), marks.any id)

/-- The taps of a convolution word in order. -/
def State.convTaps (s : State) (m : MemId) (c : List Byte) (base k oy ox : Nat) : List Nat → State × List Int × Bool
  | [] => (s, [], false)
  | tt :: rest =>
    let (s1, xs, a) := s.convTap m c base k oy ox tt
    let (s2, ys, b) := s1.convTaps m c base k oy ox rest
    (s2, xs ++ ys, a || b)

/-- Moving word `j` of block `k`: its elements, and whether a word of it was marked. -/
def State.mvWord (s : State) (m : MemId) (c : List Byte) (base k j : Nat) : State × List Int × Bool :=
  if isConv c then
    let (s1, xs, mark) := s.convTaps m c base k (convOy0 c + j / convNow c) (convOx0 c + j % convNow c) (List.range (convNtap c))
    (s1, xs ++ List.replicate (256 - xs.length) (fmtVal (matMvFmt c) 0), mark)
  else
    let (s1, ws) := s.rdMarked m (base + (k * matNw c + j) * matMvBytes c) (matMvBytes c)
    (s1, unpackFmt (matMvFmt c) (if matIs c then 4096 else 256) (wordBytesOf ws), anyMark ws)

/-- Every moving word of a stream, block by block. -/
def State.mvWords (s : State) (m : MemId) (c : List Byte) (base : Nat) : List Nat → State × List (List Int × Bool)
  | [] => (s, [])
  | i :: rest =>
    let (s1, xs, mark) := s.mvWord m c base (i / matNw c) (i % matNw c)
    let (s2, ws) := s1.mvWords m c base rest
    (s2, (xs, mark) :: ws)

/-- The stationary blocks of a tile: the one in force first under KEEP_ST, then those loaded. -/
def State.stBlocks (s : State) (p : Nat) (c : List Byte) (i : Nat) : State × List StBlock :=
  let base := matSt c + i * matStStride c
  let kept : List StBlock := if matKeep c then (sget none s.matrix.blocks (4 * p + i)).toList else []
  (List.range (matNb c - kept.length)).foldl (fun (t, bs) k =>
    let (t1, ws) := State.rdMarked t (matMem p (matStSpace c) i) (base + (k + kept.length) * matStBytes c) (matStBytes c)
    (t1, bs ++ [⟨matStFmt c, matIs c, ws⟩])) (s, kept)

/-! ## Running a tile (R217-R222, R247) -/

/-- sat32 of a list of results, and the clamps (R217). -/
def satAll (ys : List Int) : List Int × Nat :=
  let lo : Int := -2147483648
  let hi : Int := 2147483647
  (ys.map (clampInt lo hi), countIf (fun y => y < lo || hi < y) ys)

/-- A result word: values and poison by column. -/
abbrev OutWord := List Int × List Bool

/-- The results of one block: a result word for each moving word, and the clamps. -/
def blockResults (c : List Byte) (b : StBlock) (mvs : List (List Int × Bool)) : List OutWord × Nat :=
  let a := (wordBytesOf b.words).toArray
  let bad := ((List.range b.words.length).zip b.words).filterMap fun x => if x.2.2 then some x.1 else none
  let marks := (List.range (matCols c)).map fun j => colMarked c bad j
  mvs.foldl (fun (rs, n) (xs, mark) =>
    let (ys, k) := satAll (matSums c a xs)
    (rs ++ [(ys, marks.map (· || mark))], n + k)) ([], 0)

/-- The results of all blocks: in a row in WS, accumulated with sat32 otherwise (R220-R222). -/
def tileResults (c : List Byte) (mvs : List (List Int × Bool)) : Nat → List StBlock → List OutWord × Nat
  | _, [] => ([], 0)
  | k, b :: bs =>
    let (rs, n) := blockResults c b ((mvs.drop (k * matNw c)).take (matNw c))
    let (rest, m) := tileResults c mvs (k + 1) bs
    (rs ++ rest, n + m)

/-- Accumulator files folded over blocks from the first on. -/
def accumulate (nw : Nat) : Nat → List OutWord → List OutWord → List OutWord × Nat
  | 0, acc, _ => (acc, 0)
  | n + 1, acc, rest =>
    if rest.isEmpty then (acc, 0)
    else
      let sums := List.zipWith (fun (a : OutWord) (r : OutWord) =>
        let (ys, k) := satAll (List.zipWith (· + ·) a.1 r.1)
        ((ys, List.zipWith (· || ·) a.2 r.2), k)) acc (rest.take nw)
      let (fin, k) := accumulate nw n (sums.map (·.1)) (rest.drop nw)
      (fin, (sums.map (·.2)).sum + k)

/-- A tile's result words and its clamps. -/
def matTile (c : List Byte) (mvs : List (List Int × Bool)) (blocks : List StBlock) : List OutWord × Nat :=
  let (rs, n) := tileResults c mvs 0 blocks
  if matFlow c = 0 then (rs, n)
  else
    let (acc, k) := accumulate (matNw c) blocks.length (rs.take (matNw c)) (rs.drop (matNw c))
    (acc, n + k)

/-- Result words as 16-byte words with their marks. -/
def outWords (rs : List OutWord) : List (List Byte × Bool) :=
  (rs.map fun (ys, marks) =>
    (List.range (ys.length / 4)).map fun i =>
      (((ys.drop (4 * i)).take 4).flatMap (fun y => natBytes 4 (uInt 32 y)), ((marks.drop (4 * i)).take 4).any id)).flatten

/-- What becomes of a tile's result words: written as they are, unmarked ones left open (R238, log 15), or every one poisoned. -/
inductive TileEnd where
  | exact
  | open_ (reached : List Nat)
  | dead
  deriving DecidableEq, Repr

/-- A tile's 16-byte words as its command ends. -/
def State.endWords (s : State) (e : TileEnd) (ws : List (List Byte × Bool)) : State × List (List Byte × Bool) :=
  match e with
  | .exact => (s, ws)
  | .dead => (s, ws.map fun w => (w.1, true))
  | .open_ reached =>
    (List.range ws.length).foldl (fun (t, out) i =>
      let w := ws.getD i ([], false)
      if w.2 || reached.contains i then (t, out ++ [(w.1, true)])
      else
        let (f, t1) := State.freeBytes t 16
        (t1, out ++ [(f, false)])) (s, [])

/-- One tile's results in memory; its marked words are counted (R242, R247). -/
def State.writeTile (s : State) (p : Nat) (c : List Byte) (i : Nat) (ws : List (List Byte × Bool)) : State :=
  let per := matOutBytes c / 16
  let base := matOut c + i * matOutStride c
  let t := (List.range (ws.length / per)).foldl (fun t k =>
    State.wrMarked t (matMem p (matOutSpace c) i) (base + 2048 * k) ((ws.drop (k * per)).take per)) s
  t.bump (F.MX_POISON_OUT_COUNT p) (countIf (·.2) ws)

/-- A tile as a command that ends OK leaves it: its block in force, in SR and, unless it was only kept, in SH; its accumulator
file (R226, R238). -/
def State.latchTile (s : State) (l : Nat) (loaded : Bool) (b : Option StBlock) (acc : List (List Int)) : State :=
  let old := sget {} s.matrix.cells l
  let now : Cells := match b with
    | some k => .block k
    | none => old.sr
  let t := s.setBlock l b
  let after : TileCells := { sr := now, sh := if loaded then now else old.sh, acc := some acc }
  { t with matrix := { t.matrix with cells := sset {} t.matrix.cells l after } }

/-- The block that PRELOAD_NEXT switches in. -/
def State.nextBlock (s : State) (p : Nat) (c : List Byte) (i : Nat) (last : Option StBlock) : State × Option StBlock :=
  if matPreload c then
    let (s1, ws) := s.rdMarked (matMem p (matStSpace c) i) (matNext c + i * matStStride c) (matStBytes c)
    (s1, some ⟨matStFmt c, matIs c, ws⟩)
  else (s, last)

/-- The moving words of a tile; under SHARE those of the lowest tile (R233). -/
def State.tileMv (s : State) (p : Nat) (c : List Byte) (i : Nat) : State × List (List Int × Bool) :=
  let src := if matShare c then (matTiles c).headD 0 else i
  s.mvWords (matMem p (matMvSpace c) src) c (matMv c + if matShare c then 0 else i * matMvStride c)
    (List.range (matNb c * matNw c))

/-- What a tile of a command computes: its 16-byte words, its clamps, the block in force after it, its accumulator file. -/
structure TileRun where
  tile : Nat
  words : List (List Byte × Bool)
  clamps : Nat
  block : Option StBlock
  acc : List (List Int)
  deriving DecidableEq, Repr

/-- What every tile of a command computes; the state after the reads. -/
def State.matCompute (s : State) (p : Nat) (c : List Byte) : State × List TileRun :=
  let (s0, shared) := if matShare c then s.tileMv p c 0 else (s, [])
  (matTiles c).foldl (fun (t, out) i =>
    let (t1, mvs) := if matShare c then (t, shared) else State.tileMv t p c i
    let (t2, blocks) := t1.stBlocks p c i
    let (rs, n) := matTile c mvs blocks
    let (t3, b) := t2.nextBlock p c i blocks.getLast?
    (t3, out ++ [⟨i, outWords rs, n, b, if matFlow c = 0 then [] else rs.map (·.1)⟩])) (s0, [])

/-- A MATMUL or CONV ends: `ends` says how each tile ends; marks make it POISON, which leaves unmarked words open (R238). -/
def State.matFinish (p : Nat) (ends : Nat → TileEnd) (fault : Bool) (c : List Byte) (s : State) : State × Nat :=
  let (s1, tiles) := s.matCompute p c
  let poison := !fault && tiles.any fun x => x.words.any (·.2)
  let st := if fault then Status.unitFault else if poison then Status.poison else Status.ok
  let s2 := tiles.foldl (fun t x =>
    let (t1, out) := State.endWords t (if poison then .open_ [] else ends x.tile) x.words
    (t1.writeTile p c x.tile out).bump (F.MX_SAT_COUNT p) x.clamps) s1
  let loaded := !matKeep c || 1 < matNb c || matPreload c
  (if st = Status.ok then tiles.foldl (fun t x => State.latchTile t (4 * p + x.tile) loaded x.block x.acc) s2 else s2, st)

/-! ## Spares (R244) -/

/-- Spare tiles not yet given to a failed tile. -/
def State.freeSpares (s : State) : List Nat :=
  (List.range 68).filter fun t => s.get (F.MX_TILE_STATE t) == 1
    && !s.matrix.swaps.any (fun x => x.spare == some t) && !(s.matrix.mirror.any fun m => m.spare == t)

/-- Logical tiles that a partition has left: one that awaits a spare is among them, one that is to become vacant is not. -/
def State.partTiles (s : State) (p : Nat) : Nat :=
  countIf (fun i => !s.on (F.MX_REMAP_VACANT (4 * p + i))
    && !s.matrix.swaps.any fun x => x.logical == 4 * p + i && x.spare.isNone) (List.range 4)

/-- A logical tile loses its physical tile: a spare is initialised for it, or it becomes vacant at the next boundary. -/
def State.loseTile (s : State) (phys l : Nat) : State :=
  let m := s.matrix
  let s1 := { s with matrix := { m with mirror := m.mirror.filter fun x => x.logical != l && x.spare != phys } }
  let free := s1.freeSpares
  let s2 := { s1 with matrix := { s1.matrix with swaps := s1.matrix.swaps ++ [(⟨l, free.head?, s.clk.cycle, free.isEmpty⟩ : TileSwap)] } }
  let action := if !free.isEmpty then 1 else if s2.partTiles (l / 4) = 0 then 3 else 2
  (s2.setBlock l none).unitFailed 1 phys action (free.length - 1)

/-- A physical tile fails, no command of its own left to end. -/
def State.tileDies (s : State) (phys : Nat) : State :=
  let st := s.get (F.MX_TILE_STATE phys)
  let l := s.get (F.MX_TILE_LOGICAL phys)
  let s1 := s.put (F.MX_TILE_STATE phys) 2
  if st = 0 || st = 3 then s1.loseTile phys l
  else if st = 1 then
    let m := s1.matrix
    let other := s1.freeSpares.head?
    let again (x : TileSwap) : TileSwap :=
      if x.spare = some phys then { x with spare := other, since := s.clk.cycle, ready := other.isNone } else x
    let s2 := { s1 with matrix := { m with
      mirror := m.mirror.filter fun x => x.spare != phys, swaps := m.swaps.map again } }
    s2.unitFailed 1 phys 2 s2.freeSpares.length
  else s

/-! ## MOVE (R235, R247) -/

/-- A MOVE's copies; one whose tile is `dead` delivers only marks. -/
def State.moveRun (p : Nat) (dead : Option Nat) (c : List Byte) (s : State) : State × Nat :=
  let n := fieldAt c 32 4
  let (s1, ws) := (moveCopies c).foldl (fun (t, out) (a, b) =>
    let (t1, w) := State.rdMarked t (matMem p a.1 a.2.1) a.2.2 n
    let kill := (a.1 == 0 && dead == some a.2.1) || (b.1 == 0 && dead == some b.2.1)
    (t1, out ++ [(b, if kill then w.map fun x => (x.1, true) else w)])) (s, ([] : List ((Nat × Nat × Nat) × List (List Byte × Bool))))
  let s2 := ws.foldl (fun t (b, w) => State.wrMarked t (matMem p b.1 b.2.1) b.2.2 w) s1
  (s2, if dead.isSome then Status.unitFault else if ws.any (fun x => anyMark x.2) then Status.poison else Status.ok)

def execMove (q : Fin 16) (s : State) : Res :=
  whenLive s fun s => s.runOp q 0x13 (fun c _ => some (ceilDiv (fieldAt c 32 4) 512)) (State.moveRun q none)

end Sys2Proof.Machine
end

