-- ==== Sys2Proof/Machine/Vector.lean ====
section
/-! DEFINITION. The vector unit: QUANT, REQUANT, MAP, REDUCE, scales and tags (chapter 08, R249-R268). -/

namespace Sys2Proof.Machine

/-! ## Command fields (R264) -/

def vecIn (c : List Byte) : Nat := fieldAt c 16 8
def vecOut (c : List Byte) : Nat := fieldAt c 24 8
def vecRows (c : List Byte) : Nat := fieldAt c 32 4
def vecLen (c : List Byte) : Nat := fieldAt c 36 2
def vecInFmt (c : List Byte) : Nat := byteAt c 38
def vecOutFmt (c : List Byte) : Nat := byteAt c 39
def vecInSp (c : List Byte) : Nat := bits (byteAt c 40) 0 1
def vecOutSp (c : List Byte) : Nat := bits (byteAt c 40) 1 1
def vecScSp (c : List Byte) : Nat := bits (byteAt c 40) 2 1
def vecAuxSp (c : List Byte) : Nat := bits (byteAt c 40) 3 1
def vecInCl (c : List Byte) : Nat := byteAt c 41
def vecOutCl (c : List Byte) : Nat := byteAt c 42
def vecInStr (c : List Byte) : Nat × Nat := (fieldAt c 44 4, fieldAt c 48 4)
def vecOutStr (c : List Byte) : Nat × Nat := (fieldAt c 52 4, fieldAt c 56 4)
def vecSin (c : List Byte) : Nat := fieldAt c 64 8
def vecSout (c : List Byte) : Nat := fieldAt c 72 8
def vecTin (c : List Byte) : Nat := fieldAt c 80 8
def vecTout (c : List Byte) : Nat := fieldAt c 88 8
def vecTag0 (c : List Byte) : Nat := fieldAt c 96 2
def vecTinGen (c : List Byte) : Bool := bit (byteAt c 98) 0
def vecSinEn (c : List Byte) : Bool := bit (byteAt c 98) 1
def vecRow0 (c : List Byte) : Nat := byteAt c 99
def vecMode (c : List Byte) : Nat := byteAt c 100
def vecBsrc (c : List Byte) : Nat := bits (byteAt c 101) 0 2
def vecNegB (c : List Byte) : Bool := bit (byteAt c 101) 2
def vecPsrc (c : List Byte) : Nat := bits (byteAt c 101) 3 2
def vecConstA (c : List Byte) : Nat := fieldAt c 104 4
def vecConstB (c : List Byte) : Nat := fieldAt c 108 4
def vecAux (c : List Byte) : Nat := fieldAt c 112 8
def vecAux2 (c : List Byte) : Nat := fieldAt c 120 8

def isQuant (c : List Byte) : Bool := cmdOp c == 0x10
def isRequant (c : List Byte) : Bool := cmdOp c == 0x11
def isMap (c : List Byte) : Bool := cmdOp c == 0x12
def isReduce (c : List Byte) : Bool := cmdOp c == 0x13
def vecScale (c : List Byte) : Nat := vecMode c % 4
def vecFloat (c : List Byte) : Bool := isRequant c && vecScale c == 3
def vecCorr (c : List Byte) : Bool := isRequant c && bit (vecMode c) 2
/-- The command writes codes: QUANT, and REQUANT but for FLOAT mode. -/
def vecCodes (c : List Byte) : Bool := isQuant c || (isRequant c && vecScale c != 3)
/-- Scales from the row itself, and a second sweep. -/
def vecDyn (c : List Byte) : Bool := vecCodes c && vecScale c < 2
def vecSoutEn (c : List Byte) : Bool := vecCodes c && bit (byteAt c 98) 2
def vecToutEn (c : List Byte) : Bool := !vecFloat c && bit (byteAt c 98) 3

/-! ## Element formats (R252) -/

/-- Width of an element format. -/
def elWidth (f : Nat) : Nat := if f = 6 || f = 10 then 32 else if f = 8 || f = 9 then 16 else fmtWidth f

def isFloatFmt (f : Nat) : Bool := f == 8 || f == 9 || f == 10
def isFmt (f : Nat) : Bool := f ≤ 6 || isFloatFmt f

/-- The binary format of a floating-point code. -/
def fltFmt (f : Nat) : FltFmt := if f = 8 then bfloat16 else if f = 9 then binary16 else binary32

/-- An element as an integer. -/
def elInt (f v : Nat) : Int := if f = 6 then sInt 32 v else fmtVal f v

/-- An element as a binary32 value: integers rounded, floating-point values widened. -/
def elFlt (f v : Nat) : Flt := if isFloatFmt f then (fltFmt f).decode v else (Flt.ofInt (elInt f v)).to32

/-! ## Rows in memory (R250, R251) -/

/-- The memory behind an address of a VEC space, and the offset in it. -/
def vecMem (p sp a : Nat) : MemId × Nat :=
  if sp = 0 then (.buf (4 * p + a / 0x200000), a % 0x200000) else (.cis, a)

/-- 16-byte words from an aligned address of a VEC space. -/
def State.rdVec (s : State) (p sp a : Nat) : Nat → State × List (List Byte × Bool)
  | 0 => (s, [])
  | n + 1 =>
    let (m, o) := vecMem p sp a
    let (s1, w) := s.rdMarked m o 16
    let (s2, ws) := s1.rdVec p sp (a + 16) n
    (s2, w ++ ws)

/-- A few bytes within one word of a VEC space, and whether the word is marked. -/
def State.rdSmall (s : State) (p sp a n : Nat) : State × List Byte × Bool :=
  let (m, o) := vecMem p sp a
  let (s1, bs, marks) := s.rdRange m o n
  (s1, bs, marks.any id)

/-- Bytes within one word of a VEC space written, or the word poisoned and counted (R267). -/
def State.wrSmall (s : State) (p sp a : Nat) (bs : List Byte) (mark : Bool) : State :=
  let (m, o) := vecMem p sp a
  if mark then (s.markWord m (o / 16)).bump (F.MX_VEC_POISON_OUT p) else s.wrRange m o bs

/-- The chunks of a row: address, first element, elements. -/
def rowChunks (addr : Nat) (str : Nat × Nat) (cl len i : Nat) : List (Nat × Nat × Nat) :=
  (List.range (ceilDiv len (2 ^ cl))).map fun k =>
    (addr + i * str.1 + k * str.2, k * 2 ^ cl, min (2 ^ cl) (len - k * 2 ^ cl))

/-- A row read: raw elements with their marks. -/
def State.rdRow (s : State) (p sp f : Nat) : List (Nat × Nat × Nat) → State × List (Nat × Bool)
  | [] => (s, [])
  | (a, _, n) :: rest =>
    let w := elWidth f
    let (s1, ws) := s.rdVec p sp a (ceilDiv (n * w) 128)
    let arr := (wordBytesOf ws).toArray
    let el (i : Nat) : Nat := if w = 32 then packedAt arr 16 (2 * i) + 65536 * packedAt arr 16 (2 * i + 1) else packedAt arr w i
    let (s2, more) := s1.rdRow p sp f rest
    (s2, ((List.range n).map fun i => (el i, (ws.getD (i * w / 128) ([], false)).2)) ++ more)

/-- Elements packed into bytes; the rest of a partly used last byte keeps its contents. -/
def packEls (w : Nat) (els : List Nat) (old : Nat) : List Byte :=
  let bitsN := els.length * w
  let v := els.foldr (fun e acc => e % 2 ^ w + 2 ^ w * acc) 0
  natBytes (ceilDiv bitsN 8) (v + (if bitsN % 8 = 0 then 0 else old / 2 ^ (bitsN % 8) * 2 ^ bitsN))

/-- A run of bytes in 16-byte words, each written or poisoned. -/
def State.wrWords (s : State) (p sp : Nat) (mark : Nat → Bool) : Nat → Nat → List (List Byte) → State
  | _, _, [] => s
  | a, i, w :: ws => (s.wrSmall p sp a w (mark i)).wrWords p sp mark (a + 16) (i + 1) ws

/-- A row of raw elements written, its words poisoned where an element carries a mark. -/
def State.wrRow (s : State) (p sp f : Nat) (els : List (Nat × Bool)) : List (Nat × Nat × Nat) → State
  | [] => s
  | (a, e0, n) :: rest =>
    let w := elWidth f
    let mine := (els.drop e0).take n
    let (m, o) := vecMem p sp (a + n * w / 8)
    let bs := packEls w (mine.map (·.1)) (Memory.byte (s.coded m).data o).toNat
    let mark (i : Nat) : Bool := ((mine.drop (i * (128 / w))).take (128 / w)).any (·.2)
    (s.wrWords p sp mark a 0 (chunks16 (ceilDiv bs.length 16) bs)).wrRow p sp f els rest

/-! ## Scales (R253, R254) -/

def qMax (f : Nat) : Nat := 2 ^ (elWidth f - 1) - 1

/-- Clamped to a code range; and 1 where it clamps. -/
def satCode (f : Nat) (q : Int) : Int × Nat :=
  let lo : Int := -(2 ^ (elWidth f - 1) : Nat)
  let hi : Int := qMax f
  (clampInt lo hi q, b2n (decide (q < lo ∨ hi < q)))

/-- A row's scale, inverse, zero point and record flags (bit 0 ZERO, bit 1 NONFINITE, bit 2 ASYM). -/
structure RowScale where
  scale : Flt
  inv : Flt
  zp : Int
  flags : Nat
  /-- An asymmetric row that is constant and not zero (R254). -/
  constant : Bool := false
  deriving DecidableEq, Repr

/-- The least and the greatest finite value of a row; zeros where it has none. -/
def spanOf (xs : List Flt) : Flt × Flt :=
  match xs.filter Flt.isFin with
  | [] => (Flt.ofInt 0, Flt.ofInt 0)
  | a :: as => (as.foldl (fun m x => if x.lt m then x else m) a, as.foldl (fun m x => if m.lt x then x else m) a)

/-- Symmetric scale for a largest magnitude. -/
def symScale (f : Nat) (m : Flt) (flags : Nat) : RowScale :=
  if m.isZero then ⟨Flt.ofInt 0, Flt.ofInt 0, 0, flags + 1, false⟩
  else ⟨(m.div (Flt.ofInt (qMax f))).to32, ((Flt.ofInt (qMax f)).div m).to32, 0, flags, false⟩

/-- The dynamic scale of a row. -/
def dynScale (f : Nat) (asym : Bool) (xs : List Flt) : RowScale :=
  let (lo, hi) := spanOf xs
  let flags := if xs.all Flt.isFin then 0 else 2
  if asym && lo.lt hi then
    let n : Int := 2 ^ elWidth f - 1
    let d := (hi.add lo.neg).to32
    let v := ((Flt.ofInt n).div d).to32
    let z := (satCode f (-(2 ^ (elWidth f - 1) : Nat) - ((lo.mul v).to32).rne)).1
    ⟨(d.div (Flt.ofInt n)).to32, v, z, flags + 4, false⟩
  else
    let m := if lo.abs.lt hi.abs then hi.abs else lo.abs
    { symScale f m flags with constant := asym && !m.isZero }

/-- The fixed scale CONST_B (R261, R265). -/
def fixedScale (c : List Byte) (xs : List Flt) : RowScale :=
  let b := f32 (vecConstB c)
  ⟨b, ((Flt.ofInt 1).div b).to32, 0, if xs.all Flt.isFin then 0 else 2, false⟩

/-- The code of a value under a scale; and its clamps. An infinite element saturates whatever the inverse is (R253); a finite
element of a constant row takes the limit of its sign (R254). -/
def quantCode (f : Nat) (k : RowScale) (x : Flt) : Int × Nat :=
  if bit k.flags 0 then (0, 0)
  else match x with
  | .nan => (k.zp, 0)
  | .inf n => satCode f (Flt.inf n).rne
  | .fin n _ _ =>
    if k.constant then (if n then -(qMax f : Int) else qMax f, 0) else satCode f (((x.mul k.inv).to32).rne + k.zp)

/-! ## Requantisation (R259-R261) -/

/-- A binary32 factor as multiplier and shift; true flags the row NONFINITE (R259). -/
def mulShift (r : Flt) : Nat × Nat × Bool :=
  match r with
  | .fin false m e =>
    if m = 0 then (0, 0, false)
    else
      let ex := e + (Nat.log2 m : Nat)
      if 30 < ex then (2 ^ 31 - 1, 0, false)
      else if ex < -33 then (0, 0, false)
      else (m * 2 ^ (30 - Nat.log2 m), (30 - ex).toNat, false)
  | .fin true m _ => (0, 0, m != 0)
  | _ => (0, 0, true)

/-- An accumulator requantised, before its clamp (R260). -/
def requantInt (acc : Int) (m sh : Nat) (z : Int) : Int :=
  (acc * m + (if sh = 0 then 0 else 2 ^ (sh - 1))) / (2 ^ sh : Nat) + z

/-! ## Functions (R262, R263) -/

/-- `n` half units in the last place of a format at a finite value. -/
def halfUlps (f : FltFmt) (n : Nat) : Flt → Flt
  | .fin _ m e => .fin false n ((if m = 0 then f.qmin else max (e + (Nat.log2 m + 1 : Nat) - f.p) f.qmin) - 1)
  | x => x

/-- A free encoding of a format if it lies within `tol` of a finite value; else the value rounded. -/
def boundedFree (f : FltFmt) (free : Nat) (x tol : Flt) : Flt :=
  let y := f.decode (free % 2 ^ (f.p + f.ebits))
  let near := f.decode (f.round x)
  if near.isFin && y.isFin && !(tol.lt (y.add x.neg).abs) then y else near

/-- 1 / √t of a positive finite value, with more bits than any format keeps. -/
def rsqrtOf (m : Nat) (e : Int) : Flt :=
  let (m1, e1) : Nat × Int := if e % 2 = 0 then (m, e) else (2 * m, e - 1)
  let k := 40 + Nat.log2 m1
  .fin false (2 * Nat.sqrt (2 ^ (2 * k) / m1) + 1) (-(k : Int) - e1 / 2 - 1)

/-- The value that a function approximates at a finite argument, where R262 gives a bound and no value. -/
def mapValue (code : Nat) (neg : Bool) (m : Nat) (e : Int) : Flt :=
  let t : Flt := .fin neg m e
  let one := Flt.ofInt 1
  let beyond (k : Int) : Bool := (Flt.ofInt k).lt t.abs
  match code with
  | 3 => expOf neg m e
  | 4 => logOf m e
  | 5 =>
    if beyond 200 then (if neg then Flt.ofInt 0 else one)
    else
      let x := expOf true m e
      (if neg then x else one).div (one.add x)
  | 6 =>
    if beyond 100 then (if neg then one.neg else one)
    else
      let x := expOf true m (e + 1)
      let y := (one.add x.neg).div (one.add x)
      if neg then y.neg else y
  | 7 =>
    let phi := if beyond 10 then one else phiOf m e
    t.mul (if neg then one.add phi.neg else phi)
  | 8 => one.div t
  | _ => rsqrtOf m e

/-- How far from that value a result may lie: R262's bound for binary32, one ULP of a narrower output format. -/
def mapBound (f : FltFmt) (code : Nat) (x : Flt) : Flt :=
  if f ≠ binary32 then halfUlps f 2 x
  else if code = 7 && x.abs.lt (.fin false 1 (-20)) then .fin false 1 (-44)
  else halfUlps f (2 * (match code with
    | 5 | 6 => 3
    | 7 => 4
    | 8 => 1
    | _ => 2)) x

/-- MAP's function on a binary32 value; where the spec gives a bound and no value, a free value within the bound (log 16). -/
def mapFn (f : FltFmt) (code free : Nat) (t0 : Flt) : Flt :=
  let t : Flt := match t0 with
    | .fin n m e => if Nat.log2 m + e < -126 then .fin n 0 0 else .fin n m e
    | x => x
  let neg := t.negative
  let zero := Flt.ofInt 0
  let limit : Option Flt :=
    match t, code with
    | .nan, _ => some .nan
    | x, 0 => some x
    | x, 1 => some (if neg || x.isZero then zero else x)
    | x, 2 => some x.abs
    | .inf _, 3 | .inf _, 7 => some (if neg then zero else .inf false)
    | .inf _, 4 => some (if neg then .nan else .inf false)
    | .inf _, 5 => some (if neg then zero else Flt.ofInt 1)
    | .inf _, 6 => some (if neg then Flt.ofInt (-1) else Flt.ofInt 1)
    | .inf _, 8 => some (.fin neg 0 0)
    | .inf _, 9 => some (if neg then .nan else zero)
    | x, 3 => if (Flt.div (Flt.ofInt 8872) (Flt.ofInt 100)).lt x then some (.inf false)
        else if x.lt ((Flt.ofInt (-10328)).div (Flt.ofInt 100)) then some zero else none
    | x, 4 => if x.isZero then some (.inf true) else if neg then some .nan else none
    | .fin n m _, 8 => if m = 0 then some (.inf n) else none
    | .fin n m _, 9 => if m = 0 then some (.inf n) else if n then some .nan else none
    | _, _ => none
  match limit, t with
  | some y, _ => y
  | none, .fin n m e =>
    let x := mapValue code n m e
    boundedFree f free x (mapBound f code x)
  | none, x => x

/-- A sum of terms in an order left open, within 0.5 × N ULP of the sum of their magnitudes (R263). -/
def boundedSum (free : Nat) (xs : List Flt) : Flt :=
  let sum := xs.foldl Flt.add (.fin true 0 0)
  let mag := xs.foldl (fun a x => a.add x.abs) (Flt.ofInt 0)
  if !sum.isFin then sum
  else if !mag.to32.isFin then f32 (free % 2 ^ 32)
  else boundedFree binary32 free sum (halfUlps binary32 xs.length mag)

/-! ## Rows of the four commands -/

/-- What a command makes of a row: raw output elements with marks; the output record (scale word, ZP, FLAGS, mark); clamps. -/
structure RowOut where
  els : List (Nat × Bool)
  rec_ : Option (Nat × Int × Nat × Bool)
  clamps : Nat
  deriving DecidableEq, Repr

/-- Codes with their marks under a scale; a whole row is poisoned by `all`. -/
def codesOut (c : List Byte) (k : RowScale) (flags : Nat) (qs : List (Int × Nat)) (marks : List Bool) (all : Bool) : RowOut :=
  { els := List.zipWith (fun q m => (uInt (elWidth (vecOutFmt c)) q.1, m || all)) qs marks
    rec_ := some (binary32.round k.scale, k.zp, flags, all)
    clamps := (qs.map (·.2)).sum }

/-- A row poisoned whole, its record with it (R267). -/
def RowOut.poisonIf (mark : Bool) (r : RowOut) : RowOut :=
  { r with els := r.els.map fun x => (x.1, x.2 || mark)
           rec_ := r.rec_.map fun (s, z, f, m) => (s, z, f, m || mark) }

def quantRow (c : List Byte) (xs : List (Nat × Bool)) : RowOut :=
  let vs := xs.map fun x => elFlt (vecInFmt c) x.1
  let k := if vecDyn c then dynScale (vecOutFmt c) (vecScale c == 1) vs else fixedScale c vs
  codesOut c k k.flags (vs.map (quantCode (vecOutFmt c) k)) (xs.map (·.2)) (vecDyn c && xs.any (·.2))

/-- REQUANT of a row under its input record and the column vectors (R261, R267). -/
def requantRow (c : List Byte) (xs : List (Nat × Bool)) (record : List Byte) (sw cs : List (Nat × Bool)) : RowOut :=
  let sx := if bit (byteAt record 6) 0 then Flt.ofInt 0 else f32 (fieldAt record 0 4)
  let zp := sInt 16 (fieldAt record 4 2)
  let acc := if vecCorr c
    then List.zipWith (fun (x : Nat × Bool) (s : Nat × Bool) => clampInt (-2147483648) 2147483647 (sInt 32 x.1 - zp * sInt 32 s.1)) xs cs
    else xs.map fun x => sInt 32 x.1
  let marks := List.zipWith (· || ·) (List.zipWith (fun (x w : Nat × Bool) => x.2 || w.2) xs sw)
    (if vecCorr c then cs.map (·.2) else List.replicate xs.length false)
  let ts := sw.map fun w => (sx.mul (f32 w.1)).to32
  let yr := List.zipWith (fun a t => (((Flt.ofInt a).to32).mul t)) acc ts
  if vecScale c = 3 then
    { els := List.zipWith (fun y m => ((fltFmt (vecOutFmt c)).round y, m)) yr marks, rec_ := none, clamps := 0 }
  else
    let ys := yr.map Flt.to32
    let k := if vecDyn c then dynScale (vecOutFmt c) (vecScale c == 1) ys else fixedScale c ys
    let ms := ts.map fun t => mulShift ((t.mul k.inv).to32)
    let qs := List.zipWith (fun a (m : Nat × Nat × Bool) => satCode (vecOutFmt c) (requantInt a m.1 m.2.1 k.zp)) acc ms
    let flags := if ms.any (fun m => m.2.2) then k.flags ||| 2 else k.flags
    codesOut c k flags qs marks (vecDyn c && marks.any id)

/-- MAP of a row: B and P by element, each with its mark; one free value for each element (log 16). -/
def mapRow (c : List Byte) (fresh : Nat) (xs bs ps : List (Flt × Bool)) : RowOut :=
  let a := f32 (vecConstA c)
  let one (i : Nat) (x b p : Flt × Bool) : Nat × Bool :=
    let y := mapFn (fltFmt (vecOutFmt c)) (vecMode c) (Config.free (fresh + i)) (((a.mul x.1).add (if vecNegB c then b.1.neg else b.1)).to32)
    let z := if vecPsrc c = 0 then y else (p.1.mul y).to32
    ((fltFmt (vecOutFmt c)).round z, x.2 || b.2 || p.2)
  let nth (l : List (Flt × Bool)) (i : Nat) := l.getD i (.nan, false)
  { els := (List.range xs.length).map fun i => one i (nth xs i) (nth bs i) (nth ps i), rec_ := none, clamps := 0 }

/-- REDUCE of a row to one binary32 value. -/
def reduceRow (c : List Byte) (free : Nat) (xs : List (Nat × Bool)) : RowOut :=
  let vs := xs.map fun x => elFlt (vecInFmt c) x.1
  let pick (less : Flt → Flt → Bool) (l : List Flt) : Flt := match l.filter fun x => !x.isNan with
    | [] => .nan
    | a :: as => as.foldl (fun m x => if less m x then x else m) a
  let y := match vecMode c with
    | 0 => boundedSum free vs
    | 1 => pick Flt.lt vs
    | 2 => pick (fun m x => x.lt m) vs
    | 3 => boundedSum free (vs.map fun x => (x.mul x).to32)
    | _ => pick Flt.lt (vs.map Flt.abs)
  { els := [(binary32.round y, xs.any (·.2))], rec_ := none, clamps := 0 }

/-! ## Operands of a row -/

/-- `n` 4-byte values from an address of a VEC space, with the marks of their words. -/
def State.rdVals (s : State) (p sp a n : Nat) : State × List (Nat × Bool) := s.rdRow p sp 10 [(a, 0, n)]

/-- A MAP operand of a row: a constant, a per-row value, or an element operand. -/
def State.mapOperand (s : State) (p : Nat) (c : List Byte) (src a i const : Nat) : State × List (Flt × Bool) :=
  let n := vecLen c
  match src with
  | 1 =>
    let (s1, bs, mark) := s.rdSmall p (vecAuxSp c) (a + 4 * i) 4
    (s1, List.replicate n (f32 (bytesNat bs), mark))
  | 2 =>
    let (s1, xs) := s.rdRow p (vecAuxSp c) (vecInFmt c) (rowChunks a (vecInStr c) (vecInCl c) n i)
    (s1, xs.map fun x => (elFlt (vecInFmt c) x.1, x.2))
  | _ => (s, List.replicate n (f32 const, false))

/-- The input scale record of a row, and whether it is marked: every command with SIN_EN reads it (R267, R268). -/
def State.rowRecord (s : State) (p : Nat) (c : List Byte) (i : Nat) : State × List Byte × Bool :=
  let r := vecRow0 c + i
  if vecSinEn c then s.rdSmall p (vecScSp c) (vecSin c + 2064 * (r / 256) + 16 + 8 * (r % 256)) 8 else (s, [], false)

/-- What a command makes of a row that has been read; the state after its other reads. -/
def State.rowOut (s : State) (p : Nat) (c : List Byte) (vecs : List (Nat × Bool) × List (Nat × Bool)) (record : List Byte)
    (xs : List (Nat × Bool)) (i : Nat) : State × RowOut :=
  if isQuant c then (s, quantRow c xs)
  else if isRequant c then (s, requantRow c xs record vecs.1 vecs.2)
  else if isMap c then
    let (s1, bs) := s.mapOperand p c (vecBsrc c) (vecAux c) i (vecConstB c)
    let (s2, ps) := s1.mapOperand p c (vecPsrc c) (vecAux2 c) i 0x3F800000
    let vs := xs.map fun x => (elFlt (vecInFmt c) x.1, x.2)
    ({ s2 with fresh := s2.fresh + vecLen c }, mapRow c s2.fresh vs bs ps)
  else
    let (f, s1) := s.free
    (s1, reduceRow c f xs)

/-- One row computed: the state after its reads, its output, poisoned whole by a marked input record. -/
def State.vecRow (s : State) (p : Nat) (c : List Byte) (vecs : List (Nat × Bool) × List (Nat × Bool)) (i : Nat) : State × RowOut :=
  let (s1, xs) := s.rdRow p (vecInSp c) (vecInFmt c) (rowChunks (vecIn c) (vecInStr c) (vecInCl c) (vecLen c) i)
  let (s2, record, mark) := s1.rowRecord p c i
  let (s3, out) := s2.rowOut p c vecs record xs i
  (s3, out.poisonIf mark)

/-- A row's output elements written. -/
def State.vecWrite (s : State) (p : Nat) (c : List Byte) (els : List (Nat × Bool)) (i : Nat) : State :=
  if isReduce c then
    let (v, mark) := els.headD (0, false)
    s.wrSmall p (vecOutSp c) (vecOut c + 4 * i) (natBytes 4 v) mark
  else s.wrRow p (vecOutSp c) (vecOutFmt c) els (rowChunks (vecOut c) (vecOutStr c) (vecOutCl c) (vecLen c) i)

/-! ## Scale blocks and tags (R255-R258) -/

/-- The tag of data block `k`, and whether its word is marked. -/
def State.dataTag (s : State) (p : Nat) (c : List Byte) (k : Nat) : State × Nat × Bool :=
  if vecTinGen c then (s, (vecTag0 c + k) % 65536, false)
  else
    let (s1, bs, mark) := s.rdSmall p (vecScSp c) (vecTin c + 2 * k) 2
    (s1, bytesNat bs, mark)

/-- Scale block `k` agrees with its data block: tag, and ROWS beyond `top`; a marked tag or header never does (log 16). -/
def State.scaleOk (s : State) (p : Nat) (c : List Byte) (k tag : Nat) (mark : Bool) (top : Nat) : State × Bool :=
  let (s1, h, hm) := s.rdSmall p (vecScSp c) (vecSin c + 2064 * k) 4
  (s1, !mark && !hm && fieldAt h 0 2 == tag && top < fieldAt h 2 2)

/-- The last row of a command in stream block `k`, as a record index. -/
def topRec (c : List Byte) (k : Nat) : Nat := min (vecRow0 c + vecRows c - 1) (256 * k + 255) - 256 * k

/-- SCALE_SKEW in block `k`: its output rows and its output scale block are written poisoned (R257). -/
def State.skewBlock (s : State) (p : Nat) (c : List Byte) (k : Nat) : State :=
  let first := 256 * k - vecRow0 c
  let rows := (List.range (vecRow0 c + vecRows c - max (256 * k) (vecRow0 c))).filter (· < 256 * k + 256 - max (256 * k) (vecRow0 c))
  let s1 := rows.foldl (fun t i => State.vecWrite t p c (List.replicate (vecLen c) (0, true)) (first + i)) (s.bump (F.MX_VEC_SKEW p))
  if vecSoutEn c then s1.wrWords p (vecScSp c) (fun _ => true) (vecSout c + 2064 * k) 0 (List.replicate 129 (zeros 16)) else s1

/-- A row's record (R255, R258). -/
def State.putRecord (s : State) (p : Nat) (c : List Byte) (k r : Nat) (rec_ : Nat × Int × Nat × Bool) : State :=
  s.wrSmall p (vecScSp c) (vecSout c + 2064 * k + 16 + 8 * r)
    (natBytes 4 rec_.1 ++ natBytes 2 (uInt 16 rec_.2.1) ++ natBytes 1 rec_.2.2.1 ++ [0]) rec_.2.2.2

/-- The header of an output scale block (R258), poisoned where its tag was read poisoned. -/
def State.putHeader (s : State) (p : Nat) (c : List Byte) (k tag : Nat) (asym mark : Bool) : State :=
  s.wrSmall p (vecScSp c) (vecSout c + 2064 * k)
    (padTo 16 (natBytes 2 tag ++ natBytes 2 (topRec c k + 1) ++ natBytes 1 (b2n asym) ++ natBytes 1 (vecOutFmt c))) mark

/-- Counts of a row with a record. -/
def State.countRow (s : State) (p : Nat) (r : RowOut) : State :=
  let s1 := s.bump (F.MX_VEC_SAT p) r.clamps
  match r.rec_ with
  | some (_, _, flags, _) =>
    let s2 := if bit flags 0 then s1.bump (F.MX_VEC_ZERO p) else s1
    if bit flags 1 then s2.bump (F.MX_VEC_NONFINITE p) else s2
  | none => s1

/-- One row run and written; whether its record is asymmetric. -/
def State.runRow (s : State) (p : Nat) (c : List Byte) (vecs : List (Nat × Bool) × List (Nat × Bool)) (i : Nat) : State × Bool :=
  let (s1, out) := s.vecRow p c vecs i
  let s2 := (s1.vecWrite p c out.els i).countRow p out
  let r := vecRow0 c + i
  match out.rec_ with
  | some k => (if vecSoutEn c then s2.putRecord p c (r / 256) (r % 256) k else s2, bit k.2.2.1 2)
  | none => (s2, false)

/-- The rows of stream blocks from `k` on; true where a block is skewed, which ends the command. -/
def State.runBlocks (s : State) (p : Nat) (c : List Byte) (vecs : List (Nat × Bool) × List (Nat × Bool)) : Nat → Nat → State × Bool
  | 0, _ => (s, false)
  | n + 1, k =>
    let (s1, tag, mark) := if vecSinEn c || vecSoutEn c || vecToutEn c then s.dataTag p c k else (s, 0, false)
    let (s2, ok) := if vecSinEn c then s1.scaleOk p c k tag mark (topRec c k) else (s1, true)
    if !ok then (s2.skewBlock p c k, true)
    else
      let s3 := if vecToutEn c then s2.wrSmall p (vecScSp c) (vecTout c + 2 * k) (natBytes 2 tag) mark else s2
      let from_ := 256 * k - vecRow0 c
      let count := topRec c k + 1 - (if k = 0 then vecRow0 c else 0)
      let (s4, asym) := (List.range count).foldl (fun (t, a) i =>
        let (t1, b) := State.runRow t p c vecs (from_ + i)
        (t1, a || b)) (s3, false)
      let s5 := if vecSoutEn c then s4.putHeader p c k tag asym mark else s4
      s5.runBlocks p c vecs n (k + 1)

/-- Stream blocks that a command touches. -/
def vecBlocks (c : List Byte) : Nat := (vecRow0 c + vecRows c - 1) / 256 + 1

/-- A VEC command's effect and status. -/
def State.vecRun (p : Nat) (c : List Byte) (s : State) : State × Nat :=
  let before := s.get (F.MX_VEC_POISON_OUT p)
  let (s1, sw) := if isRequant c then s.rdVals p (vecAuxSp c) (vecAux c) (vecLen c) else (s, [])
  let (s2, cs) := if vecCorr c then s1.rdVals p (vecAuxSp c) (vecAux2 c) (vecLen c) else (s1, [])
  let (s3, skew) := s2.runBlocks p c (sw, cs) (vecBlocks c) 0
  (s3, if skew then Status.scaleSkew else if s3.get (F.MX_VEC_POISON_OUT p) = before then Status.ok else Status.poison)

/-! ## Checks (R266) -/

/-- The chunks of every row of an operand: space, address, bytes. -/
def allChunks (c : List Byte) (sp addr f : Nat) (str : Nat × Nat) (cl : Nat) : List (Nat × Nat × Nat) :=
  (List.range (vecRows c)).flatMap fun i =>
    (rowChunks addr str cl (vecLen c) i).map fun x => (sp, x.1, ceilDiv (x.2.2 * elWidth f) 8)

/-- Every range of a command: space, address, bytes. -/
def vecRanges (c : List Byte) : List (Nat × Nat × Nat) :=
  let kb := vecBlocks c
  let inRows (sp addr : Nat) := allChunks c sp addr (vecInFmt c) (vecInStr c) (vecInCl c)
  let aux (src addr : Nat) : List (Nat × Nat × Nat) :=
    if src = 1 then [(vecAuxSp c, addr, 4 * vecRows c)] else if src = 2 then inRows (vecAuxSp c) addr else []
  inRows (vecInSp c) (vecIn c)
  ++ (if isReduce c then [(vecOutSp c, vecOut c, 4 * vecRows c)]
     else allChunks c (vecOutSp c) (vecOut c) (vecOutFmt c) (vecOutStr c) (vecOutCl c))
  ++ (if vecSinEn c then [(vecScSp c, vecSin c, 2064 * kb)] else [])
  ++ (if vecSoutEn c then [(vecScSp c, vecSout c, 2064 * kb)] else [])
  ++ (if (vecSinEn c || vecSoutEn c || vecToutEn c) && !vecTinGen c then [(vecScSp c, vecTin c, 2 * kb)] else [])
  ++ (if vecToutEn c then [(vecScSp c, vecTout c, 2 * kb)] else [])
  ++ (if isRequant c then [(vecAuxSp c, vecAux c, 4 * vecLen c)] else [])
  ++ (if vecCorr c then [(vecAuxSp c, vecAux2 c, 4 * vecLen c)] else [])
  ++ (if isMap c then aux (vecBsrc c) (vecAux c) ++ aux (vecPsrc c) (vecAux2 c) else [])

/-- Formats and modes that a command refuses (R252, R265). -/
def vecFmtBad (c : List Byte) : Bool :=
  let fi := vecInFmt c
  let fo := vecOutFmt c
  let code := 2 ≤ fo && fo ≤ 5
  if isQuant c then !(vecMode c ≤ 2 && isFloatFmt fi && code)
  else if isRequant c then !(vecMode c < 8 && fi == 6 && (if vecScale c = 3 then isFloatFmt fo else code))
  else if isMap c then !(vecMode c ≤ 9 && isFmt fi && isFloatFmt fo)
  else !(vecMode c ≤ 4 && isFmt fi && fo == 10)

/-- A fixed scale that is not positive and finite. -/
def vecFixedBad (c : List Byte) : Bool :=
  vecCodes c && vecScale c == 2 && !((f32 (vecConstB c)).isFin && (Flt.ofInt 0).lt (f32 (vecConstB c)))

/-- Reserved bits, counts and alignment, in use or not: no field of R264 is said to be ignored but those R265 names. -/
def vecHeadBad (c : List Byte) : Bool :=
  let cl (v f : Nat) : Bool := v < 4 || 14 < v || 2 ^ v * elWidth f < 128
  let strides := [(vecInStr c).1, (vecInStr c).2, (vecOutStr c).1, (vecOutStr c).2]
  let addrs := [vecIn c, vecOut c, vecSin c, vecSout c, vecTin c, vecTout c, vecAux c, vecAux2 c]
  16 ≤ byteAt c 40 || byteAt c 43 != 0 || !allZero ((c.drop 60).take 4) || 16 ≤ byteAt c 98 || !allZero ((c.drop 102).take 2)
    || 32 ≤ byteAt c 101 || (byteAt c 101 != 0 && !isMap c) || vecBsrc c == 3 || vecPsrc c == 3
    || vecRows c == 0 || 2 ^ 24 < vecRows c || vecLen c == 0 || 16384 < vecLen c
    || cl (vecInCl c) (vecInFmt c) || cl (vecOutCl c) (vecOutFmt c) || strides.any (fun v => v % 16 != 0)
    || addrs.any (fun a => a % 16 != 0) || (isRequant c && !vecSinEn c)

/-- A VEC range past the partition's tile-buffer space, or outside its bay mask. -/
def State.vecRangeBad (s : State) (p : Nat) (r : Nat × Nat × Nat) : Bool :=
  if r.1 = 0 then 0x800000 < r.2.1 + r.2.2 else s.matRangeBad p 1 r.2.1 r.2.2

/-- Logical tiles of its partition whose buffers a command touches. -/
def vecTiles (c : List Byte) : List Nat :=
  (List.range 4).filter fun i => (vecRanges c).any fun r =>
    r.1 == 0 && r.2.1 < 0x200000 * (i + 1) && 0x200000 * i < r.2.1 + r.2.2

/-- What a VEC command is refused with; an operand in a tile out of service is UNIT_FAULT (log 16). -/
def State.vecCheck (s : State) (p : Nat) (c : List Byte) : Option Nat :=
  if vecFmtBad c || vecHeadBad c || vecFixedBad c || (vecRanges c).any (s.vecRangeBad p)
      || (isMap c && 3 ≤ vecMode c && s.get F.MX_VEC_FNVER_VERSION == 0) then some Status.badCommand
  else if (vecTiles c).any fun i => s.tileOut (4 * p + i) then some Status.unitFault
  else none

/-! ## Time (R268) -/

/-- Bytes of a list of accesses by place: tiles 0-3, 4 for the Cistern. -/
def placeBytes (acc : List (Nat × Nat × Nat)) (place : Nat) : Nat :=
  let within (a : Nat × Nat × Nat) : Nat :=
    if a.1 ≠ 0 then (if place = 4 then a.2.2 else 0)
    else min (a.2.1 + a.2.2) (0x200000 * (place + 1)) - max a.2.1 (0x200000 * place)
  (acc.map within).sum

/-- Cycles that accesses in one direction take, at least `base`. -/
def sweepCycles (base : Nat) (acc : List (Nat × Nat × Nat)) : Nat :=
  (List.range 5).foldl (fun m p => max m (ceilDiv (placeBytes acc p) (if p = 4 then 1638 else 512))) base

/-- Array-clock cycles of row `i`. -/
def vecRowCycles (c : List Byte) (i : Nat) : Nat :=
  let base := ceilDiv (vecLen c) 512
  let row (sp a f : Nat) (str : Nat × Nat) (cl : Nat) : List (Nat × Nat × Nat) :=
    (rowChunks a str cl (vecLen c) i).map fun (x, _, n) => (sp, x, ceilDiv (n * elWidth f) 8)
  let inRow (sp a : Nat) := row sp a (vecInFmt c) (vecInStr c) (vecInCl c)
  let r := vecRow0 c + i
  let record := 2064 * (r / 256) + 16 + 8 * (r % 256)
  let aux (src a : Nat) := if src = 1 then [(vecAuxSp c, a + 4 * i, 4)] else if src = 2 then inRow (vecAuxSp c) a else []
  let held := if i = 0 && isRequant c then
      (vecAuxSp c, vecAux c, 4 * vecLen c) :: (if vecCorr c then [(vecAuxSp c, vecAux2 c, 4 * vecLen c)] else []) else []
  let reads := inRow (vecInSp c) (vecIn c) ++ (if vecSinEn c then [(vecScSp c, vecSin c + record, 8)] else [])
    ++ (if isMap c then aux (vecBsrc c) (vecAux c) ++ aux (vecPsrc c) (vecAux2 c) else []) ++ held
  let writes := (if isReduce c then [(vecOutSp c, vecOut c + 4 * i, 4)]
      else row (vecOutSp c) (vecOut c) (vecOutFmt c) (vecOutStr c) (vecOutCl c))
    ++ (if vecSoutEn c then [(vecScSp c, vecSout c + record, 8)] else [])
  if vecDyn c then sweepCycles base reads + sweepCycles base writes + 2
  else max (sweepCycles base reads) (sweepCycles base writes) + 2

def vecCycles (c : List Byte) : Nat := (List.range (vecRows c)).foldl (fun t i => t + vecRowCycles c i) 40

/-! ## The commands -/

def State.vecCommand (s : State) (p op : Nat) : State :=
  s.runOp (16 + p) op (fun c _ => some (vecCycles c)) (State.vecRun p)

def execQuant (q : Fin 16) (s : State) : Res := whenLive s fun s => s.vecCommand q 0x10
def execRequant (q : Fin 16) (s : State) : Res := whenLive s fun s => s.vecCommand q 0x11
def execMap (q : Fin 16) (s : State) : Res := whenLive s fun s => s.vecCommand q 0x12
def execReduce (q : Fin 16) (s : State) : Res := whenLive s fun s => s.vecCommand q 0x13

/-! ## Destinations left unspecified (R37, R238, R267) -/

/-- The contents of a VEC command's destination, its scale stream and its tag array become free values. -/
def State.vecScramble (s : State) (p : Nat) (c : List Byte) : State :=
  let piece (t : State) (sp a n : Nat) : State :=
    let (m, o) := vecMem p sp a
    State.scramble t m o n
  let rows := (List.range (vecRows c)).foldl (fun t i =>
    if isReduce c then piece t (vecOutSp c) (vecOut c + 4 * i) 4
    else (rowChunks (vecOut c) (vecOutStr c) (vecOutCl c) (vecLen c) i).foldl (fun u x =>
      piece u (vecOutSp c) x.1 (ceilDiv (x.2.2 * elWidth (vecOutFmt c)) 8)) t) s
  let scales := if vecSoutEn c then (List.range (vecBlocks c)).foldl (fun t k => piece t (vecScSp c) (vecSout c + 2064 * k) 2064) rows
    else rows
  if vecToutEn c then (List.range (vecBlocks c)).foldl (fun t k => piece t (vecScSp c) (vecTout c + 2 * k) 2) scales else scales

/-- The same for a MAT command. -/
def State.matScramble (s : State) (p : Nat) (c : List Byte) : State :=
  if cmdOp c = 0x13 then
    (moveCopies c).foldl (fun t (_, b) => State.scramble t (matMem p b.1 b.2.1) b.2.2 (fieldAt c 32 4)) s
  else (matTiles c).foldl (fun t i => (List.range (matOuts c)).foldl (fun u k =>
    State.scramble u (matMem p (matOutSpace c) i) (matOut c + i * matOutStride c + 2048 * k) (matOutBytes c)) t) s

end Sys2Proof.Machine
end

