-- ==== Sys2Proof/Machine/Spares.lean ====
section
/-! DEFINITION. Failing tiles and vector units, spares, remaps at a boundary (R244-R246). -/

namespace Sys2Proof.Machine

/-! ## Tile failures and remaps (R244-R246) -/

/-- A VEC command that works in a logical tile's buffer ends with UNIT_FAULT, its destination left open. -/
def State.tileKillsVec (s : State) (l : Nat) : State :=
  let p := l / 4
  match (s.q (16 + p)).cur, (s.q (16 + p)).cmds with
  | some r, .cmd c :: _ =>
    if 0x10 ≤ cmdOp c && (vecTiles c).contains (l % 4) then (s.vecScramble p c).complete (16 + p) Status.unitFault r.charged else s
  | _, _ => s

/-- The command that runs on a logical tile ends with UNIT_FAULT at once; its other tiles' results are written. -/
def State.tileKills (s0 : State) (l : Nat) : State :=
  let p := l / 4
  let s := s0.tileKillsVec l
  match (s.q p).cur, (s.q p).cmds with
  | some r, .cmd c :: _ =>
    if 0x11 ≤ cmdOp c && cmdOp c ≤ 0x13 && (namedTiles c).contains (l % 4) then
      let (s1, st) :=
        if cmdOp c = 0x13 then s.moveRun p (some (l % 4)) c
        else s.matFinish p (fun i => if i = l % 4 then .dead else .exact) true c
      s1.complete p st r.charged
    else s
  | _, _ => s

/-- TILE_FAIL: an active tile's command ends, then the tile is lost; a spare leaves the spares. -/
def State.tileFail (s : State) (phys : Nat) : State :=
  let st := s.get (F.MX_TILE_STATE phys)
  let s1 := if st = 0 || st = 3 then s.tileKills (s.get (F.MX_TILE_LOGICAL phys)) else s
  s1.tileDies phys

/-- Fault times of a physical tile within the last 1,000 ms of timebase (R242). -/
def State.recentFaults (s : State) (phys : Nat) : List Nat :=
  (sget [] s.matrix.faultTimes phys).filter fun t => s.clk.time < t + 2500000000

/-- A residue or parity mismatch on a logical tile: counted, and FAIL_THRESH of them within 1,000 ms fail the tile (R242); a VEC
command that works in its buffer ends with it (R244). -/
def State.tileFault (s : State) (l : Nat) : State :=
  let phys := s.get (F.MX_REMAP_PHYS l)
  let times := s.clk.time :: s.recentFaults phys
  let s1 := { s with matrix := { s.matrix with faultTimes := sset [] s.matrix.faultTimes phys times } }
  let s2 := s1.bumpSat (F.MX_TILE_FAULTS phys)
  if s.get F.MX_CTRL_FAIL_THRESH ≤ times.length && s.get (F.MX_TILE_STATE phys) != 2 then (s2.tileKillsVec l).tileDies phys
  else s2

/-- Whether that many more mismatches fail a logical tile. -/
def State.failsTile (s : State) (l n : Nat) : Bool :=
  let phys := s.get (F.MX_REMAP_PHYS l)
  0 < n && s.get F.MX_CTRL_FAIL_THRESH ≤ n + (s.recentFaults phys).length && s.get (F.MX_TILE_STATE phys) != 2

/-- The mismatches that strike tiles of a MATMUL or CONV. -/
def faultsOn (faults : List (Fin 4 × List Nat)) (c : List Byte) : List (Fin 4 × List Nat) :=
  faults.filter fun f => (matTiles c).contains f.1.val

/-- They fail the logical tile at position `i` of partition `p`. -/
def State.faultsFail (s : State) (p : Nat) (fs : List (Fin 4 × List Nat)) (i : Nat) : Bool :=
  s.failsTile (4 * p + i) (countIf (fun f => f.1.val == i) fs)

/-- How long a MATMUL or CONV takes; a mismatch that fails a tile ends it in its own cycle (R244). -/
def matTime (p : Nat) (faults : List (Fin 4 × List Nat)) (c : List Byte) (s : State) : Option Nat :=
  if (matTiles c).any (s.faultsFail p (faultsOn faults c)) then none else some (matCycles c)

/-- The end of a MATMUL or CONV of partition `p` whose tiles the mismatches struck, each with the words it can reach: of a tile
that fails every word is poisoned (R242, R244). -/
def State.matEffect (p : Nat) (faults : List (Fin 4 × List Nat)) (c : List Byte) (s : State) : State × Nat :=
  let fs := faultsOn faults c
  let ends (i : Nat) : TileEnd :=
    if s.faultsFail p fs i then .dead
    else if fs.any fun f => f.1.val == i then .open_ ((fs.filter fun f => f.1.val == i).flatMap (·.2)) else .exact
  let (s1, st) := s.matFinish p ends (!fs.isEmpty) c
  (fs.foldl (fun u f => u.tileFault (4 * p + f.1)) s1, st)

/-- A MATMUL or CONV of partition `p`, with the mismatches that strike its tiles. -/
def State.matRun (s : State) (p op : Nat) (faults : List (Fin 4 × List Nat)) : State :=
  s.runOp p op (matTime p faults) (State.matEffect p faults)

def execMatmul (q : Fin 16) (faults : List (Fin 4 × List Nat)) (s : State) : Res :=
  whenLive s fun s => s.matRun q 0x11 faults

def execConv (q : Fin 16) (faults : List (Fin 4 × List Nat)) (s : State) : Res :=
  whenLive s fun s => s.matRun q 0x12 faults

def execTileFail (tile : Fin 68) (s : State) : Res := whenLive s fun s => s.tileFail tile

/-- MX_RETIRE.GO: an active tile fails; otherwise the write is discarded. -/
def execMxRetire (tile : Fin 128) (s : State) : Res :=
  whenHost s R.MX_RETIRE fun s =>
    if tile < 68 && s.get (F.MX_TILE_STATE tile) == 0 then (s.put F.MX_RETIRE_TILE tile).tileFail tile else s

/-- SPARE_TILE_READY: 4,096 core cycles after the failure the spare's buffer is zero, with correct codes. -/
def State.spareReady (s : State) : State :=
  match s.matrix.swaps.find? fun x => !x.ready with
  | none => s
  | some x => match s.reach (x.since + 4096) with
    | none => s
    | some s1 => { s1 with matrix := { s1.matrix with
        swaps := s1.matrix.swaps.map fun y => if y = x then { y with ready := true } else y } }

def execSpareTileReady (s : State) : Res := whenLive s State.spareReady

/-- TILE_MIRROR_DONE: the copy into the spare is complete, at least 4,864 core cycles after its start. -/
def State.mirrorDone (s : State) : State :=
  match s.matrix.mirror with
  | none => s
  | some m =>
    if m.done then s
    else match s.reach (m.since + 4864) with
      | none => s
      | some s1 => { s1 with matrix := { s1.matrix with mirror := some { m with done := true } } }

def execTileMirrorDone (s : State) : Res := whenLive s State.mirrorDone

/-- Active tiles and spares shown in GLB_CAP. -/
def State.showTiles (s : State) : State :=
  (s.put F.GLB_CAP_ACTIVE_TILES (countIf (fun l => !s.on (F.MX_REMAP_VACANT l)) (List.range 64))).put
    F.GLB_CAP_SPARES_LEFT s.freeSpares.length

/-- A failed tile's remap at a boundary: its spare takes the position, or the position becomes vacant. -/
def State.applySwap (s : State) (x : TileSwap) : State :=
  let l := x.logical
  let p := l / 4
  match x.spare with
  | some t =>
    let s1 : State := { s with mems := { s.mems with bufs := sset {} s.mems.bufs l {} }
                               matrix := { s.matrix with cells := sset {} s.matrix.cells l {} } }
    ((((s1.put (F.MX_REMAP_PHYS l) t).put (F.MX_TILE_STATE t) 0).put (F.MX_TILE_LOGICAL t) l).setBlock l none)
  | none =>
    let s1 := ((s.putB (F.MX_REMAP_VACANT l) true).putB ⟨R.MX_PART_STATUS p, 8 + l % 4, 1⟩ true)
    let left := s1.get (F.MX_PART_STATUS_TILES p) - 1
    (s1.put (F.MX_PART_STATUS_TILES p) left).putB (F.MX_PART_STATUS_FAILED p) (left == 0 || s.partFailed p)

/-- No MAT or VEC command of a logical tile's partition runs on it. -/
def State.tileIdle (s : State) (l : Nat) : Bool :=
  let p := l / 4
  let runs (q : Nat) : Bool := match (s.q q).cur, (s.q q).cmds with
    | some _, .cmd c :: _ => 0x10 ≤ cmdOp c && (if 16 ≤ q then vecTiles c else namedTiles c).contains (l % 4)
    | _, _ => false
  !runs p && !runs (16 + p)

/-- REMAP_APPLY and TILE_TEST_SWAP, at a boundary. -/
def State.applyRemaps (s : State) : State :=
  let ready := s.matrix.swaps.filter (·.ready)
  let s1 := { s with matrix := { s.matrix with swaps := s.matrix.swaps.filter fun x => !x.ready } }
  let s2 := ready.foldl State.applySwap s1
  let s3 := match s2.matrix.mirror with
    | some m =>
      if m.done && s2.tileIdle m.logical then
        let old := s2.get (F.MX_REMAP_PHYS m.logical)
        let t := { s2 with matrix := { s2.matrix with mirror := none } }
        ((((t.put (F.MX_REMAP_PHYS m.logical) m.spare).put (F.MX_TILE_STATE m.spare) 0).put
          (F.MX_TILE_LOGICAL m.spare) m.logical).put (F.MX_TILE_STATE old) 1)
      else s2
    | none => s2
  if ready.isEmpty && s3.matrix.mirror == s.matrix.mirror then s else s3.showTiles

/-- VECTOR_UNIT_FAIL: the unit's partition is failed (R244, step 6). -/
def State.vectorFail (s : State) (p : Nat) : State :=
  if s.on (F.MX_VEC_STATUS_FAILED p) then s
  else
    let s1 := match (s.q (16 + p)).cur, (s.q (16 + p)).cmds with
      | some r, .cmd c :: _ =>
        if 0x10 ≤ cmdOp c then (s.vecScramble p c).complete (16 + p) Status.unitFault r.charged else s
      | _, _ => s
    (s1.putB (F.MX_VEC_STATUS_FAILED p) true).putB (F.MX_PART_STATUS_FAILED p) true
      |>.unitFailed 3 p 3 0

def execVectorUnitFail (part : Fin 16) (s : State) : Res := whenLive s fun s => s.vectorFail part

end Sys2Proof.Machine
end

