-- ==== Sys2Proof/Machine/MemRows.lean ====
section
/-! DEFINITION. The memories' own events: page correction, patrol scrub, remaps, bank retirement, Aquifer channels, fault injection
(R325, R333-R339, R470). -/

namespace Sys2Proof.Machine

/-- The memory a number names: 0 Cistern, 1 Aquifer. -/
def memNo (k : Fin 2) : MemId := if k = 1 then .aq else .cis

/-- Pages of a memory. -/
def MemId.pages : MemId → Nat
  | .aq => 384 * 2 ^ 30 / 2048
  | _ => 2 ^ 20

/-- Stored bits of a page's code flip: code word `i` of a Cistern page, the code bytes of an Aquifer page. -/
def State.upsetCode (s : State) (m : MemId) (page i flips : Nat) : State :=
  let c := s.coded m
  let (k, n) : Nat × Nat := match m with
    | .aq => (page, 1024)
    | _ => (4 * page + i, 137)
  s.setCoded m { c with codeErrs := smod 0 c.codeErrs k (· ^^^ flips % 2 ^ n) }

/-- Upset bits of stored words, that come from outside the 880: word within the page, flips, whether the cell is damaged. The words
after a page's data words are those of its page code, whose cells are not modelled as damaged for good (log 18). -/
def State.upsets (s : State) (m : MemId) (page : Nat) (us : List (Nat × Nat × Bool)) : State :=
  us.foldl (fun t (w, flips, hard) =>
    if w < m.pageWords then t.upset m (page * m.pageWords + w) (flips % 2 ^ (m.dataBits + m.checkBits + 1)) hard
    else State.upsetCode t m page (w - m.pageWords) flips) s

/-- Words of a capture bank that cannot be corrected: of the bank sealed first, or of the current stroke's. They have no page code
and are marked (R277, R329). DESIGN CHOICE (log 37). -/
def State.markCapture (s : State) (page : Nat) (ws : List Nat) : State :=
  let mark (b : CapBank) : CapBank := { b with marks := b.marks ++ ws }
  match page with
  | 0 => { s with capture := { s.capture with closed := s.capture.closed.modifyHead mark } }
  | _ => { s with capture := { s.capture with cur := s.capture.cur.map mark } }

/-- PAGE_CORRECTION: words of a page have gone bad, and a read of one starts the correction of the page. -/
def execPageCorrection (mem : Fin 3) (page : Nat) (upsets : List (Nat × Nat × Bool)) (s : State) : Res :=
  whenLive s fun s =>
    if mem = 2 then s.markCapture page (upsets.map (·.1))
    else
      let m := memNo (if mem = 1 then 1 else 0)
      if m.pages ≤ page then s else (s.upsets m page upsets).correctPage m page

/-! ## Patrol scrub (R336) -/

/-- A page as the scrubber reads it: every word through its codes, then each column's code. -/
def State.scrubPage (s : State) (m : MemId) (page : Nat) : State :=
  let (s0, _) := s.rdWords m ((List.range m.pageWords).map fun i => page * m.pageWords + i)
  let s1 := s0.readCode m page
  let c := s1.coded m
  if (List.range m.columns).any fun j => codeLost c m page j || columnBad c m page j then s1.rebuild m page else s1

/-- The scrubber of a memory runs: it is enabled, and CC7, which schedules it, has not been stopped (R336, R379, R394). -/
def State.scrubOn (s : State) (m : MemId) : Bool :=
  s.tended 7 && match m with
  | .aq => s.on F.AQ_CTRL_SCRUB_EN
  | _ => s.on F.CI_CTRL_SCRUB_EN

def State.scrubAt (s : State) : MemId → Nat
  | .aq => s.mems.aqScrub
  | _ => s.mems.ciScrub

/-- The length of a pass, in ticks of real time, which a stretched clock does not slow (R336, R340). -/
def State.scrubPeriod (s : State) : MemId → Nat
  | .aq => 9000000000000 * s.get F.AQ_SCRUB_PERIOD_HOURS
  | _ => 2500000000 * s.get F.CI_SCRUB_PERIOD_SECONDS

/-- The scrubber's pointer moves on; the last page ends the pass. -/
def State.scrubNext (s : State) (m : MemId) : State :=
  let next := s.scrubAt m + 1
  let last := m.pages ≤ next
  let frm := match m with
    | .aq => s.mems.aqPassFrom
    | _ => s.mems.ciPassFrom
  let late := last && s.scrubPeriod m < s.clk.real - frm
  match m with
  | .aq =>
    let s1 := { s with mems := { s.mems with
      aqScrub := if last then 0 else next, aqPassFrom := if last then s.clk.real else frm } }
    let s2 := if last then s1.bump F.AQ_SCRUB_STATUS_PASSES else s1
    if late then s2.putB F.AQ_SCRUB_STATUS_SCRUB_LATE true else s2
  | _ =>
    let s1 := { s with mems := { s.mems with
      ciScrub := if last then 0 else next, ciPassFrom := if last then s.clk.real else frm } }
    let s2 := if last then s1.bump F.CI_SCRUB_STATUS_PASSES else s1
    if late then s2.putB F.CI_SCRUB_STATUS_SCRUB_LATE true else s2

/-- Columns of a page's code damaged in their first check symbol, under a matching word code. -/
def State.damageColumns (s : State) (m : MemId) (page columns : Nat) : State :=
  ((List.range m.columns).filter (bit columns)).foldl (fun t j => match m with
    | .aq => State.upsetCode t m page 0 (2 ^ (64 * j))
    | _ => State.upsetCode t m page (j / 2) (silentMask .cis (2 ^ (64 * (j % 2))))) s

/-- SCRUB_READ: the scrubber reads its next page, in which upsets have gathered; `columns` are damaged columns of its page code. -/
def execScrubRead (mem : Fin 2) (upsets : List (Nat × Nat × Bool)) (columns : Nat) (s : State) : Res :=
  whenLive s fun s =>
    let m := memNo mem
    if !s.scrubOn m then s
    else
      let page := s.scrubAt m
      (((s.upsets m page upsets).damageColumns m page columns).scrubPage m page).scrubNext m

/-! ## Remaps and retirement by command (R337-R339) -/

def execCiRemapWord (addr : Fin 268435456) (s : State) : Res :=
  whenHost s R.CI_REMAP_CMD fun s =>
    ((s.put F.CI_REMAP_CMD_ADDR addr).putB F.CI_REMAP_CMD_RETIRE false).remapWord addr

/-- GO reads 1 from the start of a retirement until its copy ends. -/
def execCiRetireBank (addr : Fin 268435456) (s : State) : Res :=
  whenHost s R.CI_REMAP_CMD fun s =>
    let s1 := ((s.put F.CI_REMAP_CMD_ADDR addr).putB F.CI_REMAP_CMD_RETIRE true).retireBank addr
    s1.putB F.CI_REMAP_CMD_GO (s1.bank (globalBank addr)).retireFrom.isSome

/-- A bank's contents in another bank's cells, copied through their codes: its words, its code rows (R339). -/
def State.bankCopy (s : State) (b : Nat) : State :=
  let mine (w : Nat) : Bool := globalBank w == b
  let c := s.mems.cis
  let pages := ((((c.errs.map (·.1)).filter mine).map (pageOf .cis)) ++ ((c.codeErrs.map (·.1 / 4)).filter fun p => mine (256 * p))).eraseDups
  let s1 := pages.foldl (fun t p => State.correctPage t .cis p) s
  s1.setCoded .cis ((s1.mems.cis).moved .cis mine)

/-- The spare takes a bank's number: its words, its stuck cells left behind, all entries free (R339). -/
def State.spareTakes (s : State) (b : Nat) : State :=
  let s1 := s.bankCopy b
  let left := s1.get (spareFld (b / 128)) - 1
  ((s1.modBank b fun _ => { spare := true }).put (spareFld (b / 128)) left).unitFailed 5 b 1 left

/-- BANK_RETIRE_COPY_DONE: at least 163,840 core cycles after the start of the copy. -/
def State.retireDone (s : State) (b : Nat) : State :=
  match (s.bank b).retireFrom with
  | none => s
  | some c0 => match s.reach (c0 + 163840) with
    | none => s
    | some s1 =>
      let s2 := s1.spareTakes b
      if globalBank (s2.get F.CI_REMAP_CMD_ADDR) = b && s2.on F.CI_REMAP_CMD_RETIRE then s2.putB F.CI_REMAP_CMD_GO false else s2

def execBankRetireCopyDone (bank : Fin 2048) (s : State) : Res := whenLive s fun s => s.retireDone bank

def execAqRemapPage (page : Fin 268435456) (s : State) : Res :=
  whenHost s R.AQ_REMAP_CMD fun s =>
    let s1 := s.put F.AQ_REMAP_CMD_PAGE page
    if MemId.aq.pages ≤ page then s1 else s1.remapPage (64 * page)

/-! ## Aquifer channels (R333, R334) -/

/-- A channel retired: until reset its reads are marked and its writes discarded. -/
def State.retireChannel (s : State) (c : Nat) : State :=
  if s.on (F.AQ_CHAN_RETIRED c) then s
  else
    let s1 := { s with mems := { s.mems with retiredAt := sset none s.mems.retiredAt c (some s.clk.cycle) } }
    (s1.putB (F.AQ_CHAN_RETIRED c) true).unitFailed 5 (0x8000 + c) 2 0

def execAquiferChannelRetire (channel : Fin 48) (s : State) : Res := whenLive s fun s => s.retireChannel channel

/-- AQUIFER_ZQ_TRACKING: a channel repeats its calibration; a third failure in a row retires it. `ecc` counts the link-ECC
corrections since the last repetition. -/
def execAquiferZqTracking (channel : Fin 48) (passed : Bool) (ecc : Nat) (s : State) : Res :=
  whenLive s fun s =>
    if s.on (F.AQ_CHAN_RETIRED channel) then s
    else
      let n := if passed then 0 else sget 0 s.mems.linkFails channel + 1
      let s1 := { s.bumpSat (F.AQ_CHAN_LINK_ECC channel) ecc with mems := { s.mems with linkFails := sset 0 s.mems.linkFails channel n } }
      if 3 ≤ n then s1.retireChannel channel else s1

/-! ## Fault injection (R470) -/

/-- FAULT_INJECT_ARM: a write of CI_INJECT_CTRL (memory 0) or AQ_INJECT_CTRL (memory 1). -/
def execFaultInjectArm (mem : Fin 2) (value : Word) (s : State) : Res :=
  let m := memNo mem
  whenHost s (injMode m).reg fun s => (s.put (injMode m) value.toNat).put (injPersist m) (value.toNat / 4)

end Sys2Proof.Machine
end

