-- ==== Sys2Proof/Machine/Capture.lean ====
section
/-! DEFINITION. Capture channels: deposits, sealing, the capture ring (R270-R279). -/

namespace Sys2Proof.Machine

/-! ## The capture map (R271) -/

/-- The descriptor of a profile. -/
def capDesc (map : List Byte) (p : Nat) : List Byte := padTo 32 ((map.drop (32 * p)).take 32)

def capEn (d : List Byte) : Bool := bit (byteAt d 0) 0
def capBf (d : List Byte) : Bool := bit (byteAt d 0) 1
def capLast (d : List Byte) : Bool := bit (byteAt d 0) 2
def capKeyField (d : List Byte) : Bool := bit (byteAt d 0) 3
def capKeySel (d : List Byte) : Nat := byteAt d 1 % 128
def capNval (d : List Byte) : Nat := byteAt d 2 % 16
def capField (d : List Byte) (j : Nat) : Nat := byteAt d (12 + j) % 64
def capConv (d : List Byte) (j : Nat) : Nat := byteAt d (12 + j) / 64

/-- A descriptor that CAP_MAP_LOAD refuses (R271, R279). -/
def capDescBad (d : List Byte) : Bool :=
  let n := capNval d
  bits (byteAt d 0) 4 4 != 0 || bit (byteAt d 1) 7 || bits (byteAt d 2) 4 4 != 0 || byteAt d 3 != 0
  || bits (fieldAt d 4 4) 19 13 != 0 || !allZero (d.drop 20)
  || (List.range 8).any (fun j => n ≤ j && byteAt d (12 + j) != 0)
  || (capEn d && (n == 0 || 8 < n))
  || fieldAt d 8 2 < n || 4096 < fieldAt d 8 2 || fieldAt d 10 2 == 0 || 32767 < fieldAt d 10 2
  || (List.range (min n 8)).any fun j => capConv d j == 3 || (capConv d j == 2 && !capBf d)

/-! ## Deposits (R272-R274) -/

/-- A field's value converted; none where the conversion gives a missing value. -/
def capValue (bf : Bool) (conv v : Nat) : Option Nat :=
  let i : Int := if conv = 0 then sInt 16 v else min v 32767
  if conv = 2 then (if (f32 (v % 2 ^ 32)).isNan then none else some (bfloat16.round (f32 (v % 2 ^ 32))))
  else some (if bf then bfloat16.round (Flt.ofInt i) else uInt 16 i)

/-- The key of a pass under a descriptor, if it is usable. -/
def capKey (d : List Byte) (p : Pass) : Option Nat :=
  let k : Option Int :=
    if capKeyField d then
      match p.fields[capKeySel d]? with
      | some (v, false) => some v
      | _ => none
    else p.feats.bind fun fs => featVal (fs.getD (capKeySel d) 0x8000)
  k.bind fun i => if 0 ≤ i && i < fieldAt d 10 2 then some i.toNat else none

/-- One deposit into a channel: by the policy, the earlier or the later dealing is kept; the other counts as a duplicate. -/
def CapBank.put (b : CapBank) (last : Bool) (chan : Nat) (k : CapKept) : CapBank :=
  if b.cfg.nch ≤ chan then { b with range := sat32 (b.range + 1) }
  else
    let b1 := { b with deposits := sat32 (b.deposits + 1) }
    match sget none b.kept chan with
    | none => { b1 with kept := sset none b.kept chan (some k) }
    | some old =>
      let later := old.dealt < k.dealt || (old.dealt = k.dealt && old.lane < k.lane)
      { b1 with dups := sat32 (b.dups + 1), kept := if later == last then sset none b.kept chan (some k) else b.kept }

/-- A frame's deposit into its stroke's bank (R272). -/
def CapBank.deposit (b : CapBank) (d : List Byte) (e : RoEntry) (p : Pass) : CapBank :=
  match capKey d p with
  | none => { b with nokey := sat32 (b.nokey + 1) }
  | some key =>
    (List.range (capNval d)).foldl (fun b j =>
      match p.fields[capField d j]? with
      | some (v, false) => match capValue (capBf d) (capConv d j) v with
        | some x => b.put (capLast d) (fieldAt d 4 4 % 2 ^ 19 + key * fieldAt d 8 2 + j) ⟨x, e.dealt, e.lane, p.ctx⟩
        | none => b
      | _ => b) b

/-- The capture map that was in force at a frame's dealing (R273). -/
def State.capMapOf (s : State) (e : RoEntry) : List Byte :=
  if e.capMap = s.capture.mapNo then s.capture.map else s.capture.oldMap

/-- A frame whose verdict its final pass's rule or ensemble gave deposits, into the bank of its own stroke (R273); nothing does while
strokes do not run (R278). -/
def State.deposit (s : State) (e : RoEntry) (p : Pass) : State :=
  let d := capDesc (s.capMapOf e) p.profile
  if !capEn d || e.since.isNone || !s.clk.strokes then s
  else
    let step (b : CapBank) : CapBank := if b.stroke = e.stroke && !b.dropped then b.deposit d e p else b
    { s with capture := { s.capture with cur := s.capture.cur.map step, closed := s.capture.closed.map step } }

/-! ## Slots (R276, R277) -/

/-- Bytes of a slot, rounded up to 4 KiB. -/
def CapCfg.slotBytes (c : CapCfg) : Nat :=
  4096 * ceilDiv (4096 + 2 * c.nch + c.nch / 8 + if c.src then 4 * c.nch else 0) 4096

/-- The flags of a slot's header. -/
def CapBank.flags (b : CapBank) : Nat :=
  b2n b.restarted + 2 * b2n b.unlocked + 4 * b2n b.brownout + 8 * b2n b.dropped + 16 * b2n b.cfg.src
    + 32 * b2n (b.marks.any fun w => 4096 + 16 * w < b.cfg.slotBytes)

/-- The header of a slot. -/
def CapBank.header (b : CapBank) : List Byte :=
  padTo 4096 (natBytes 4 0x43410880 ++ natBytes 4 b.cfg.nch ++ natBytes 8 b.sealNo ++ natBytes 8 b.stroke ++ natBytes 8 b.time
    ++ natBytes 4 b.kept.length ++ natBytes 4 b.deposits ++ natBytes 4 b.dups ++ natBytes 4 b.nokey ++ natBytes 4 b.range
    ++ natBytes 1 b.flags)

/-- A slot's bytes: header, data, mask, source. -/
def CapBank.slot (b : CapBank) : List Byte :=
  let chans := List.range b.cfg.nch
  let at_ (j : Nat) := sget none b.kept j
  let data := (chans.map fun j => natBytes 2 (match at_ j with
    | some k => k.value
    | none => if b.cfg.hold then sget 0 b.hold j else 0)).flatten
  let mask := (List.range (b.cfg.nch / 8)).map fun i =>
    BitVec.ofNat 8 ((List.range 8).map fun t => b2n (at_ (8 * i + t)).isSome * 2 ^ t).sum
  let src := if b.cfg.src then (chans.map fun j => natBytes 4 (match (at_ j).bind (·.ctx) with
    | some i => i
    | none => 0x80000000)).flatten else []
  padTo b.cfg.slotBytes (b.header ++ data ++ mask ++ src)

/-- A slot's 16-byte words, each with its mark. -/
def CapBank.words (b : CapBank) : List (List Byte × Bool) :=
  let ws := chunks16 (b.cfg.slotBytes / 16) b.slot
  ws.zip ((List.range ws.length).map fun i => 256 ≤ i && b.marks.contains (i - 256))

/-- The HOLD values after a bank. -/
def CapBank.held (b : CapBank) : SMap Nat :=
  b.kept.foldl (fun m e => match e.2 with
    | some k => sset 0 m e.1 k.value
    | none => m) b.hold

/-- CAPTURE_DRAIN: the oldest sealed bank goes to its slot by the bound of R275, its words that cannot be corrected with poison marks
(R277), and the capture float rises by 1. -/
def State.drain (s : State) : State :=
  match s.capture.closed with
  | [] => s
  | b0 :: rest =>
    match s.reach (b0.sealedAt + 1600 + 256 + ceilDiv b0.cfg.slotBytes 1536) with
    | none => s
    | some s1 =>
      let b : CapBank := { b0 with hold := if b0.gen = s1.capture.gen then s1.capture.hold else b0.hold }
      let addr := b.cfg.base + b.sealNo % 2 ^ b.cfg.log2 * b.cfg.slotBytes
      let s2 := { s1 with capture := { s1.capture with
        closed := rest, hold := if b.gen = s1.capture.gen then b.held else s1.capture.hold } }
      (s2.wrMarked .cis addr b.words).addFloat b.cfg.float 1

def execCaptureDrain (s : State) : Res := whenLive s State.drain

/-! ## At a boundary (R275, R278, R279) -/

/-- Step 4: the bank of the ending stroke seals. -/
def State.sealBank (s : State) : State :=
  let c := s.capture
  match c.cur with
  | none => s
  | some b => { s with capture := { c with
      cur := none, closed := c.closed ++ [{ b with sealedAt := s.clk.cycle, hold := c.hold }] } }

/-- A pending setting or map that names stroke `k`, or an earlier one, takes force. -/
def State.applyCapture (s : State) (k : Nat) : State :=
  let c := s.capture
  let c1 := match c.pendingCfg with
    | some (cfg, at_) => if at_ ≤ k
        then { c with cfg := cfg, pendingCfg := none, gen := c.gen + 1, nextSeal := 0, restart := true, hold := [] } else c
    | none => c
  let c2 := match c1.pendingMap with
    | some (m, at_, _) => if at_ ≤ k then { c1 with map := m, oldMap := c1.map, mapNo := c1.mapNo + 1, pendingMap := none } else c1
    | none => c1
  { s with capture := c2 }

/-- The bank of the stroke that opens; while a drain has not finished it deposits nothing (R290). -/
def State.openBank (s : State) (k : Nat) (late : Bool) : State :=
  let c := s.capture
  if !c.cfg.en then s
  else { s with capture := { c with
    nextSeal := c.nextSeal + 1, restart := false
    cur := some { stroke := k, time := s.clk.openTime, sealNo := c.nextSeal, cfg := c.cfg, gen := c.gen, restarted := c.restart
                  unlocked := s.get F.STK_STATUS_STATE != 1, dropped := late } } }

/-- The bank of the stroke flagged: the timebase left LOCKED, or a brownout. -/
def State.flagBank (s : State) (f : CapBank → CapBank) : State :=
  { s with capture := { s.capture with cur := s.capture.cur.map f } }

/-- Strokes stop: the stroke cut off is not sealed, and the next seal carries RESTARTED (R278). -/
def State.stopCapture (s : State) : State :=
  { s with capture := { s.capture with cur := none, restart := true
                                       nextSeal := if s.capture.cur.isSome then s.capture.nextSeal - 1 else s.capture.nextSeal } }

/-! ## CAP_CTRL and CAP_MAP_LOAD (R278, R279) -/

/-- A stroke already past, while strokes run. -/
def State.past (s : State) (k : Nat) : Bool := k != 0 && s.clk.strokes && k ≤ s.clk.now

def capSetting (c : List Byte) : CapCfg :=
  let f := byteAt c 16
  { en := bit f 0, hold := bit f 1, src := bit f 2, log2 := byteAt c 17, nch := fieldAt c 20 4, base := fieldAt c 24 8
    float := fieldAt c 32 4 % 2 ^ 17 }

/-- A setting that CAP_CTRL refuses (R278). -/
def capBad (c : List Byte) : Bool :=
  let g := capSetting c
  8 ≤ byteAt c 16 || g.log2 == 0 || 12 < g.log2 || fieldAt c 18 2 != 0 || g.nch < 256 || 524288 < g.nch || g.nch % 256 != 0
  || g.base % 4096 != 0 || 0xA0000000 < g.base + 2 ^ g.log2 * g.slotBytes || 2 ^ 17 ≤ fieldAt c 32 4
  || !allZero ((c.drop 44).take 20)

def State.capCtrlEffect (c : List Byte) (t : State) : State × Nat :=
  let at_ := fieldAt c 36 8
  if t.past at_ then (t, Status.strokePassed)
  else ({ t with capture := { t.capture with pendingCfg := some (capSetting c, at_) } }, Status.ok)

def execCapCtrl (q : Fin 16) (s : State) : Res :=
  whenLive s fun s => s.runOp (64 + q) 0x50 openTime State.capCtrlEffect

/-- A map with a descriptor that is refused (R279). -/
def capMapBad (m : List Byte) : Bool := (List.range 64).any fun p => capDescBad (capDesc m p)

/-- A map that passes is pending; one refused stores nothing, and neither does one with a poisoned word (R329). -/
def State.capMapLoadEffect (c : List Byte) (t : State) : State × Nat :=
  let addr := fieldAt c 16 8
  let sp := byteAt c 24
  let at_ := fieldAt c 25 7
  match (if sp = 0 then t.grant [(false, addr, 2048)] else none) with
  | some t' => (t', Status.dmaFault)
  | none =>
    let (t1, ws) := t.readSpace sp addr 2048
    let m := wordBytesOf ws
    if anyMark ws then (t1, Status.poison)
    else if capMapBad m then (t1, Status.badCommand)
    else if t1.past at_ then (t1, Status.strokePassed)
    else ({ t1 with capture := { t1.capture with pendingMap := some (m, at_, none) } }, Status.ok)

def execCapMapLoad (q : Fin 16) (stores : List (Nat × List Byte)) (s : State) : Res :=
  whenLive (s.hostStores stores) fun s => s.runOp (64 + q) 0x51 openTime State.capMapLoadEffect

end Sys2Proof.Machine
end

