-- ==== Sys2Proof/Machine/Keccak.lean ====
section
/-! DEFINITION. SHAKE256 of FIPS 202: the digest of model images and of firmware (R291, R382). -/

namespace Sys2Proof.Machine

/-- A 64-bit lane rotated left. -/
def rotl64 (n x : Nat) : Nat := (x * 2 ^ n + x / 2 ^ (64 - n)) % 2 ^ 64

/-- The offsets of rho (FIPS 202, 3.2.2): a walk over the lanes from (1, 0) by (x, y) → (y, 2x + 3y), whose step `k` turns its lane
by the `k`-th triangular number. `n` steps are left; what is answered is the lanes' indices with their offsets. -/
def rhoWalk : Nat → Nat → Nat → Nat → List (Nat × Nat)
  | 0, _, _, _ => []
  | n + 1, k, x, y => (x + 5 * y, k * (k + 1) / 2 % 64) :: rhoWalk n (k + 1) y ((2 * x + 3 * y) % 5)

/-- How far rho turns lane `i`; lane 0, which the walk does not meet, stays. -/
def rhoOffset (i : Nat) : Nat := ((rhoWalk 24 1 1 0).find? fun e => e.1 == i).elim 0 (·.2)

def rhoTable : List Nat := (List.range 25).map rhoOffset

/-- The register that iota's constants are drawn from (3.2.5): its feedback is x^8 + x^6 + x^5 + x^4 + 1. -/
def iotaStep (r : Nat) : Nat := if 128 ≤ r then (2 * r) ^^^ 0x171 else 2 * r

/-- A round's constant: bits 0, 1, 3, 7, 15, 31 and 63 from seven steps of the register; and the register after them. -/
def iotaWord (r : Nat) : Nat × Nat :=
  (List.range 7).foldl (fun (acc : Nat × Nat) j => (acc.1 + acc.2 % 2 * 2 ^ (2 ^ j - 1), iotaStep acc.2)) (0, r)

/-- Lane (x, y) of a state of 25 lanes. -/
def lane (a : List Nat) (x y : Nat) : Nat := a.getD (x % 5 + 5 * (y % 5)) 0

/-- A state given lane by lane. -/
def lanes (f : Nat → Nat → Nat) : List Nat := (List.range 25).map fun i => f (i % 5) (i / 5)

/-- The parity of column `x`. -/
def colParity (a : List Nat) (x : Nat) : Nat := (List.range 5).foldl (fun p y => p ^^^ lane a x y) 0

/-- One round of Keccak-f[1600] but for iota: theta, rho with pi, chi. -/
def keccakMix (a : List Nat) : List Nat :=
  let t := lanes fun x y => lane a x y ^^^ colParity a (x + 4) ^^^ rotl64 1 (colParity a (x + 1))
  let b := lanes fun x y => rotl64 (lane rhoTable (x + 3 * y) x) (lane t (x + 3 * y) x)
  lanes fun x y => lane b x y ^^^ ((2 ^ 64 - 1 - lane b (x + 1) y) &&& lane b (x + 2) y)

/-- `n` rounds with the register of iota at `r`. -/
def keccakRounds : Nat → Nat → List Nat → List Nat
  | 0, _, a => a
  | n + 1, r, a =>
    let (rc, r1) := iotaWord r
    keccakRounds n r1 (modAt (keccakMix a) 0 (· ^^^ rc))

def keccakF (a : List Nat) : List Nat := keccakRounds 24 1 a

/-- A block of 136 bytes taken into the state. -/
def absorb (a : List Nat) (block : List Byte) : List Nat :=
  keccakF ((List.range 25).map fun i => a.getD i 0 ^^^ (if i < 17 then fieldAt block (8 * i) 8 else 0))

/-- Padded input taken in, block by block; `n` bounds the blocks. -/
def absorbAll : Nat → List Nat → List Byte → List Nat
  | 0, a, _ => a
  | n + 1, a, bs => absorbAll n (absorb a (bs.take 136)) (bs.drop 136)

/-- The padding of SHAKE256: 1111, then 1 0* 1. -/
def shakePad (len : Nat) : List Byte :=
  let k := 136 - len % 136
  if k = 1 then [0x9F] else 0x1F :: zeros (k - 2) ++ [0x80]

/-- Output squeezed from the state, 136 bytes a block. -/
def squeeze : Nat → List Nat → List Byte
  | 0, _ => []
  | n + 1, a => ((a.take 17).map (natBytes 8)).flatten ++ squeeze n (keccakF a)

/-- SHAKE256 with `n` bytes of output. -/
def shake256 (n : Nat) (bs : List Byte) : List Byte :=
  (squeeze (ceilDiv n 136) (absorbAll (bs.length / 136 + 1) (List.replicate 25 0) (bs ++ shakePad bs.length))).take n

end Sys2Proof.Machine
end

