-- ==== Sys2Proof/Machine/Models.lean ====
section
/-! DEFINITION. Model images, model banks and sequence contexts: MODEL_CFG, PRIME, COMMIT, ABANDON, MODEL_SELECT, MODEL_READ,
RETIRE, CTX_OPEN, CTX_CLOSE, CTX_READ, CTX_ADVANCE, and what the boundary does with them (R280-R311). -/

namespace Sys2Proof.Machine

/-! ## The image (R291-R296) -/

/-- A directory entry (R292). -/
structure DirEntry where
  type : Nat
  order : Nat
  reserved : Nat
  off : Nat
  bytes : Nat
  place : Nat
  deriving DecidableEq, Repr

/-- The header's and footprint's fields that priming uses (R291, R294). -/
structure ImageHead where
  dir : List DirEntry
  nmap : Nat
  flags : Nat
  foot : List Byte
  deriving DecidableEq, Repr

def dirEntry (m : List Byte) (i : Nat) : DirEntry :=
  let o := 256 + 32 * i
  ⟨fieldAt m o 2, fieldAt m (o + 2) 2, fieldAt m (o + 4) 4 + fieldAt m (o + 28) 4, fieldAt m (o + 8) 8, fieldAt m (o + 16) 8,
    fieldAt m (o + 24) 4⟩

/-- Header and directory pass R291, apart from what concerns the sections' contents. -/
def headerOk (h : List Byte) (len : Nat) : Bool :=
  let nsect := fieldAt h 6 2
  let flags := byteAt h 24
  let nmap := byteAt h 25
  fieldAt h 0 4 == 0x4D440880 && fieldAt h 4 2 == 1 && 1 ≤ nsect && nsect ≤ 64 && fieldAt h 8 4 != 0
  && fieldAt h 16 8 == len && len % 4096 == 0 && len ≤ 2 ^ 34 && flags < 8 && nmap ≤ 16 && (nmap != 0 || !bit flags 2)
  && allZero ((h.drop 40).take 152)

/-- The rules of R291 to R293 for one entry, `nbays` being the footprint's. -/
def entryOk (nbays len : Nat) (e : DirEntry) : Bool :=
  let data := e.type == 3 || e.type == 4
  1 ≤ e.type && e.type ≤ 7 && e.reserved == 0 && e.off % 4096 == 0 && 4096 ≤ e.off && e.off + e.bytes ≤ len
  && (e.type == 3 || e.order == 0) && (if data then e.place % 4096 == 0 else e.place == 0)
  && (!data || (if nbays = 0 then e.bytes == 0 else e.bytes % (4096 * nbays) == 0))

/-- Sections in ascending order, none overlapping another. -/
def dirOrdered : List DirEntry → Bool
  | a :: b :: rest => a.off < b.off && a.off + a.bytes ≤ b.off && dirOrdered (b :: rest)
  | _ => true

def countType (d : List DirEntry) (t : Nat) : Nat := countIf (fun e => e.type == t) d

/-- Counts and lengths of each type (R292, R294, R295). -/
def dirCounts (d : List DirEntry) (nmap : Nat) : Bool :=
  countType d 1 == 1 && (d.head?.map (·.type)) == some 1 && countType d 5 ≤ 1 && countType d 6 ≤ 1 && countType d 7 ≤ 1
  && d.all fun e =>
    if e.type = 1 then e.bytes == 64 + 32 * nmap
    else if e.type = 2 then 64 ≤ e.bytes
    else if e.type = 5 then e.bytes == enTreeOff 1 0 || e.bytes == enTreeOff 2 0
    else if e.type = 6 then e.bytes == 204800
    else if e.type = 7 then e.bytes == 2048 else true

/-- The reserved fields of the footprint are 0 (R294). -/
def footOk (f : List Byte) (nmap : Nat) : Bool :=
  byteAt f 1 == 0 && allZero ((f.drop 28).take 36)
  && (List.range nmap).all fun i => fieldAt f (66 + 32 * i) 2 == 0 && allZero ((f.drop (80 + 32 * i)).take 16)

/-- TILEMAP headers: MAP below NMAP, a known PHASE, reserved bytes 0, one at most per mapping and phase (R292, R296). -/
def tilemapsOk (heads : List (List Byte)) (nmap : Nat) : Bool :=
  let keys := heads.map fun h => (byteAt h 0, byteAt h 1)
  heads.all (fun h => byteAt h 0 < nmap && byteAt h 1 ≤ 4 && allZero ((h.drop 8).take 56)) && keys.eraseDups.length == keys.length

def footMaps (f : List Byte) (nmap : Nat) : List ModelMap :=
  (List.range nmap).map fun i =>
    let o := 64 + 32 * i
    ⟨byteAt f o, byteAt f (o + 1), fieldAt f (o + 4) 4, fieldAt f (o + 8) 4, fieldAt f (o + 12) 4⟩

/-- The extent of the sections that are placed in the bays (R293). -/
def extentOf (nbays : Nat) (d : List DirEntry) : Nat :=
  (d.filter fun e => e.type == 3 || e.type == 4).foldl (fun m e => max m (e.place + e.bytes / max 1 nbays)) 0

/-- The directory indices of WEIGHTS sections in the order in which they spill: descending ORDER, the later entry first (R302). -/
def spillOrder (d : List DirEntry) : List Nat :=
  let ws := (List.range d.length).filter fun i => (d.getD i ⟨0, 0, 0, 0, 0, 0⟩).type == 3
  (sortBy (fun i => (d.getD i ⟨0, 0, 0, 0, 0, 0⟩).order) ws).reverse

/-- The sections that spill, so that the extent of the others fits in `room`. -/
def spillFrom (nbays room : Nat) (d : List DirEntry) : List Nat → List Nat → List Nat
  | [], out => out
  | i :: rest, out =>
    let kept := (List.range d.length).filter fun j => !out.contains j
    if extentOf nbays (kept.map fun j => d.getD j ⟨0, 0, 0, 0, 0, 0⟩) ≤ room then out
    else spillFrom nbays room d rest (out ++ [i])

/-- The lowest mapping that fits the tiles in service. -/
def fitting (tiles : List (Option Nat)) (ms : List ModelMap) : Option Nat :=
  (List.range ms.length).find? fun i => partsShort tiles (ms.getD i ⟨0, 0, 0, 0, 0⟩) == 0

/-- A named mapping (0xFF: the lowest that fits) as it would be selected; none where it does not fit. -/
def State.selectMap (s : State) (i : ModelImage) (n : Nat) : Option (Option Nat) :=
  if n = 0xFF then (if i.maps.isEmpty then some none else (fitting s.tilesNow i.maps).map some)
  else match i.maps[n]? with
    | some m => if partsShort s.tilesNow m = 0 then some (some n) else none
    | none => none

def align4k (n : Nat) : Nat := 4096 * ceilDiv n 4096

/-- Where sections go that lie one behind another from `a` on, each at the next 4 KiB boundary. -/
def packFrom (d : List DirEntry) : Nat → List Nat → List (Nat × Nat)
  | _, [] => []
  | a, i :: rest => (i, align4k a) :: packFrom d (align4k a + (d.getD i ⟨0, 0, 0, 0, 0, 0⟩).bytes) rest

/-- The image record of a priming: placement, excesses, spill (R299-R302). -/
def State.planImage (s : State) (b allow : Nat) (h : List Byte) (head : ImageHead) : ModelImage :=
  let k := s.model b
  let d := head.dir
  let f := head.foot
  let nbays := byteAt f 0
  let rate := bit head.flags 0 && bit allow 0
  let spill := bit head.flags 1 && bit allow 1
  let room := 2 ^ 24 * k.quota
  let out := if spill then spillFrom nbays room d (spillOrder d) [] else []
  let kept := (List.range d.length).filter fun j => !out.contains j
  let ext := extentOf nbays (kept.map fun j => d.getD j ⟨0, 0, 0, 0, 0, 0⟩)
  let spilled := (out.map fun i => (d.getD i ⟨0, 0, 0, 0, 0, 0⟩).bytes).sum
  let frame := packFrom d k.aqBase (([5, 6, 7].map fun t => (List.range d.length).filter fun i =>
    (d.getD i ⟨0, 0, 0, 0, 0, 0⟩).type == t).flatten)
  let aqAt := packFrom d (k.aqBase + fieldAt f 16 8) (sortBy (fun i => (d.getD i ⟨0, 0, 0, 0, 0, 0⟩).order) (sortBy id out))
  let at_ (l : List (Nat × Nat)) (i : Nat) : Option Nat := (l.find? fun x => x.1 == i).map (·.2)
  let store (t : Nat) : Option (Nat × Nat) :=
    (frame.find? fun x => (d.getD x.1 ⟨0, 0, 0, 0, 0, 0⟩).type == t).map fun x => (x.2, (d.getD x.1 ⟨0, 0, 0, 0, 0, 0⟩).bytes)
  { id := fieldAt h 8 4, version := fieldAt h 12 4, rate := rate, spill := spill, maps := footMaps f head.nmap
    excess := [nbays - (regionBays k.mask).length, ext - room, fieldAt f 16 8 + spilled - k.aqSize] ++
      [fieldAt f 2 2 - 128, fieldAt f 8 2 - (if rate then 128 else 64), fieldAt f 10 2 - k.amLimit]
    spillBytes := spilled, digest := (h.drop 192).take 64
    placed := (List.range d.length).map fun i =>
      let e := d.getD i ⟨0, 0, 0, 0, 0, 0⟩
      match at_ frame i, at_ aqAt i with
      | some a, _ => ⟨2, e.type, e.bytes, a⟩
      | none, some a => ⟨2, e.type, e.bytes / max 1 nbays, a⟩
      | none, none =>
        if e.type = 3 || e.type = 4 then ⟨1, e.type, e.bytes / max 1 nbays, s.regionStart b + e.place⟩ else ⟨0, e.type, 0, 0⟩
    ens := store 5, feat := store 6, cap := store 7 }

/-- Step 5 of PRIME: every excess is 0, and some mapping fits where the image has any. -/
def planFits (tiles : List (Option Nat)) (i : ModelImage) : Bool :=
  i.excess.all (· == 0) && (i.maps.isEmpty || (fitting tiles i.maps).isSome)

/-! ## MODEL_CFG (R298) -/

/-- The Aquifer regions of two banks overlap. -/
def aqOverlap (a n b m : Nat) : Bool := n != 0 && m != 0 && a < b + m && b < a + n

def State.modelCfgEffect (c : List Byte) (t : State) : State × Nat :=
  let b := byteAt c 16
  let k := t.model b
  let other := t.model (1 - b)
  let base := fieldAt c 24 8
  let size := fieldAt c 32 8
  if k.st != .empty then (t, Status.primeBusy)
  else if 16 < byteAt c 17 + other.quota || 384 * 2 ^ 30 < base + size || aqOverlap base size other.aqBase other.aqSize then
    (t, Status.badCommand)
  else (t.setModel b { k with
    quota := byteAt c 17, mask := fieldAt c 18 2 % 1024, amLimit := fieldAt c 20 2, aqBase := base, aqSize := size }, Status.ok)

def execModelCfg (q : Fin 16) (s : State) : Res :=
  whenLive s fun s => s.runOp (64 + q) 0x60 openTime State.modelCfgEffect

/-! ## PRIME (R299-R302) -/

/-- Step 3: the header, directory and footprint as read from the image; none where they are invalid. -/
def imageHead (img : List Byte) (len : Nat) : Option ImageHead :=
  if !headerOk img len then none
  else
    let d := (List.range (fieldAt img 6 2)).map (dirEntry img)
    let nmap := byteAt img 25
    let f := match d.head? with
      | some e => (img.drop e.off).take (64 + 32 * nmap)
      | none => []
    let tiles := (d.filter fun e => e.type == 2).map fun e => (img.drop e.off).take 64
    if d.all (entryOk (byteAt f 0) len) && dirOrdered d && dirCounts d nmap && footOk f nmap && tilemapsOk tiles nmap
    then some ⟨d, nmap, byteAt img 24, f⟩ else none

/-- A section written to its place: whole in the Aquifer, in parts over the bays of the region otherwise. -/
def State.placeSection (s : State) (b : Nat) (ws : List (List Byte × Bool)) (e : DirEntry) (p : Placed) : State :=
  let body := (ws.drop (e.off / 16)).take (ceilDiv e.bytes 16)
  if p.space = 2 then s.wrMarked .aq p.addr body
  else if p.space = 1 then
    (List.range (e.bytes / max 1 p.part)).foldl (fun t k =>
      let bay := (regionBays (s.model b).mask).getD k 0
      t.wrMarked .cis (2 ^ 28 * bay + p.addr) ((body.drop (k * (p.part / 16))).take (p.part / 16))) s
  else s

/-- The BAR0 offset at which a byte offset of a FEATURE section is staged (R295). -/
def featOff (o : Nat) : Nat :=
  if o < 4096 then 0x104000 + o
  else if o < 69632 then 0x108000 + (o - 4096)
  else if o < 73728 then 0x201000 + (o - 69632)
  else 0x210000 + (o - 73728)

/-- The words of a FEATURE section, by staging offset. -/
def featWords (bs : List Byte) : List (Nat × Nat) :=
  (List.range 51200).map fun i => (featOff (4 * i), fieldAt bs (4 * i) 4)

/-- A word with bits where its register has none, or where no register lies (R295). -/
def featReserved (off v : Nat) : Bool :=
  match findRow regRows off with
  | none => v != 0
  | some (r, _) =>
    (r.base == R.WH_PROF_FIELD_0 0 0 && 2 ^ 17 ≤ v)
    || (List.range 32).any fun i => bit v i && !r.fields.any fun f => f.lo ≤ i && i < f.lo + f.w

/-- A FEATURE section written to the staging bank, as host writes of the same values would be (R295). -/
def State.loadFeature (s : State) (bs : List Byte) : State :=
  (featWords bs).foldl (fun t (o, v) => t.writeStaging o v) s

/-- Step 8 for a FEATURE section: reserved bytes 0, and the checks of R152. -/
def State.featureFails (s : State) (bs : List Byte) : Bool :=
  (featWords bs).any (fun (o, v) => featReserved o v)
  || ((((s.setStaging []).putB BankKind.feature.retiring false).putB BankKind.feature.copying false).loadFeature bs).featureRefusal.isSome

/-- The bytes of a section of the image by its type; none where the image has none. -/
def sectionOf (img : List Byte) (d : List DirEntry) (t : Nat) : Option (List Byte) :=
  (d.find? fun e => e.type == t).map fun e => (img.drop e.off).take e.bytes

/-- Step 8: FEATURE and ENSEMBLE pass their banks' checks. -/
def State.sectionsFail (s : State) (img : List Byte) (d : List DirEntry) : Bool :=
  ((sectionOf img d 6).any fun bs => s.featureFails bs)
  || ((sectionOf img d 5).any fun bs => (ensRefusal (Memory.write [] 0 bs)).isSome)

/-- The digest of an image (R291). -/
def imageDigest (img : List Byte) : List Byte := shake256 64 (img.take 192 ++ img.drop 256)

/-- A priming that stops: the bank EMPTY, its record with what was found until then (log 17). -/
def State.primeFails (s : State) (c : List Byte) (i : ModelImage) (st : Nat) : State × Nat :=
  let b := byteAt c 25
  let k := (s.model b).emptied
  ((s.setModel b k).putBankRecord (fieldAt c 40 8) b { k with img := i }, st)

/-- Steps 5 to 9 of PRIME on a bank that is LOADING; `s` is the state after the image's words `ws` were read. -/
def State.primeImage (s : State) (c : List Byte) (ws : List (List Byte × Bool)) (img : List Byte) (head : ImageHead) : State × Nat :=
  let b := byteAt c 25
  let k := s.model b
  let plan := s.planImage b (byteAt c 26) img head
  if !planFits k.tiles plan then s.primeFails c plan Status.modelTooLarge
  else
    let s2 := (List.range head.dir.length).foldl (fun t j =>
      t.placeSection b ws (head.dir.getD j ⟨0, 0, 0, 0, 0, 0⟩) (plan.placed.getD j ⟨0, 0, 0, 0⟩)) s
    if anyMark ws then s2.primeFails c plan Status.poison
    else if imageDigest img != plan.digest then s2.primeFails c plan Status.digestMismatch
    else if s2.sectionsFail img head.dir then s2.primeFails c plan Status.imageInvalid
    else
      let k1 := { k.emptied with st := .primed, img := plan, mapping := fitting k.tiles plan.maps }
      let s3 := (s2.setModel b k1).raise 0x0701 (payload 16 [(0, 1, b), (4, 4, plan.id)])
      (s3.putBankRecord (fieldAt c 40 8) b k1, Status.ok)

/-- Steps 2 to 9 of PRIME: a bank that the command's start did not find EMPTY is busy. The windows are judged before the first
request, of step 3; a refused source leaves the record to be written where RESULT is granted (R86, R300, log 17). -/
def State.prime (s : State) (c : List Byte) : State × Nat :=
  let b := byteAt c 25
  let result := fieldAt c 40 8
  let answer := [(true, result, if result = 0 then 0 else 1280)]
  let source := if byteAt c 24 = 0 then [(false, fieldAt c 16 8, fieldAt c 32 8)] else []
  if (s.model b).st != .loading then match s.grant answer with
    | some t => (t, Status.dmaFault)
    | none => (s.putBankRecord result b (s.model b), Status.primeBusy)
  else match s.grant (source ++ answer) with
  | some t => if (s.grant answer).isSome then (t, Status.dmaFault) else t.primeFails c {} Status.dmaFault
  | none =>
    let (s1, ws) := s.readSpace (byteAt c 24) (fieldAt c 16 8) (fieldAt c 32 8)
    let img := wordBytesOf ws
    match imageHead img (fieldAt c 32 8) with
    | none => s1.primeFails c {} Status.imageInvalid
    | some head =>
      let other := s.model (1 - b)
      if other.st != .empty && other.img.id = fieldAt img 8 4 then (s1, Status.badCommand) else s1.primeImage c ws img head

def execPrime (q : Fin 16) (stores : List (Nat × List Byte)) (s : State) : Res :=
  whenLive (s.hostStores stores) fun s => s.runOp (64 + q) 0x61 openTime fun c t => t.prime c

/-! ## COMMIT, ABANDON, MODEL_SELECT, MODEL_READ, RETIRE (R304-R309) -/

/-- The per-frame banks that an image carries. -/
def ModelImage.carries (i : ModelImage) (b : BankKind) : Bool :=
  match b with
  | .feature => i.feat.isSome
  | .ensemble => i.ens.isSome
  | .rule => false

/-- A staging bank that a commit cannot use now. -/
def State.stagingTaken (s : State) (b : BankKind) : Bool :=
  s.on b.validating || s.on b.armed || s.on b.retiring || s.on b.copying

/-- A bank armed for a stroke and validated. -/
def State.armFor (s : State) (b : BankKind) (at_ : Nat) : State := ((s.put64 b.atReg at_).armBank b).validated b

/-- The per-frame banks that a commit armed, disarmed. -/
def State.disarmCarried (s : State) (i : ModelImage) : State :=
  [BankKind.feature, BankKind.ensemble].foldl (fun t b => if i.carries b then t.disarm b else t) s

/-- The carried sections as they lie in the per-frame store; whether a word of them is poisoned. -/
def State.readStore (s : State) (p : Option (Nat × Nat)) : State × List Byte × Bool :=
  match p with
  | none => (s, [], false)
  | some (a, n) =>
    let (s1, bs, marks) := s.rdRange .aq a n
    (s1, bs, marks.any id)

/-- Steps 3 to 6 of COMMIT. DEDUCED (log 17): a carried map that CAP_MAP_LOAD would refuse completes IMAGE_INVALID, as a refused
bank does. -/
def State.commitArm (s : State) (b mapping at_ retire : Nat) (sel : Option Nat) : State × Nat :=
  let k := s.model b
  let i := k.img
  let (s1, fb, pf) := s.readStore i.feat
  let (s2, eb, pe) := s1.readStore i.ens
  let (s3, cb, pc) := s2.readStore i.cap
  if pf || pe || pc then (s3, Status.poison)
  else
    let s4 := if i.feat.isSome then (s3.loadFeature fb).armFor .feature at_ else s3
    let s5 := if i.ens.isSome then (s4.loadImage .ensemble eb).armFor .ensemble at_ else s4
    if ([BankKind.feature, BankKind.ensemble].any fun x => i.carries x && !s5.on x.armed) || (i.cap.isSome && capMapBad cb) then
      (s5.disarmCarried i, Status.imageInvalid)
    else
      let s6 := if i.cap.isSome then { s5 with capture := { s5.capture with pendingMap := some (cb, at_, some b) } } else s5
      (s6.setModel b { k with st := .armed, mapping := if mapping = 0xFF then sel else some mapping, commitAt := at_
                              retireAt := retire, lost := false }, Status.ok)

/-- A stroke was already past when the table engine's running command started (R305). -/
def State.pastAtStart (s : State) (k : Nat) : Bool :=
  match s.unitHolder 4 with
  | some q => match (s.q q).cur with
    | some r => k != 0 && r.startStroke != 0xFFFFFFFFFFFFFFFF && k ≤ r.startStroke
    | none => s.past k
  | none => s.past k

def State.commit (s : State) (c : List Byte) : State × Nat :=
  let b := byteAt c 16
  let at_ := fieldAt c 24 8
  let retire := fieldAt c 32 8
  let result := fieldAt c 40 8
  let k := s.model b
  let done (r : State × Nat) : State × Nat :=
    if r.2 = Status.badCommand then r else (r.1.putBankRecord result b (r.1.model b), r.2)
  match s.grant [(true, result, if result = 0 then 0 else 1280)] with
  | some t => (t, Status.dmaFault)
  | none => done (
    if k.st != .primed then (s, Status.badCommand)
    else if s.pastAtStart at_ || s.pastAtStart retire then (s, Status.strokePassed)
    else if [BankKind.feature, BankKind.ensemble].any fun x => k.img.carries x && s.stagingTaken x then (s, Status.primeBusy)
    else match s.selectMap k.img (byteAt c 17) with
      | none => (s, Status.modelTooLarge)
      | some sel => s.commitArm b (byteAt c 17) at_ retire sel)

def execCommit (q : Fin 16) (s : State) : Res :=
  whenLive s fun s => s.runOp (64 + q) 0x62 openTime fun c t => t.commit c

/-- The commit of an ARMED bank undone: its banks disarmed, its capture map withdrawn while it is still pending. -/
def State.undoCommit (s : State) (b : Nat) : State :=
  let s1 := s.disarmCarried (s.model b).img
  match s1.capture.pendingMap with
  | some (_, _, by_) => if by_ = some b then { s1 with capture := { s1.capture with pendingMap := none } } else s1
  | none => s1

def State.abandon (s : State) (c : List Byte) : State × Nat :=
  let b := byteAt c 16
  let k := s.model b
  if k.st = .primed then (s.setModel b k.emptied, Status.ok)
  else if k.st = .armed then ((s.undoCommit b).setModel b k.emptied, Status.ok)
  else (s, Status.badCommand)

def execAbandon (q : Fin 16) (s : State) : Res :=
  whenLive s fun s => s.runOp (64 + q) 0x63 openTime fun c t => t.abandon c

def State.modelSelect (s : State) (c : List Byte) : State × Nat :=
  let b := byteAt c 16
  let k := s.model b
  let result := fieldAt c 24 8
  match s.grant [(true, result, if result = 0 then 0 else 1280)] with
  | some t => (t, Status.dmaFault)
  | none =>
    if k.st = .empty || k.st = .loading then (s, Status.badCommand)
    else match s.selectMap k.img (byteAt c 17) with
      | none => (s.putBankRecord result b k, Status.modelTooLarge)
      | some sel =>
        let k1 := { k with mapping := sel }
        ((s.setModel b k1).putBankRecord result b k1, Status.ok)

def execModelSelect (q : Fin 16) (s : State) : Res :=
  whenLive s fun s => s.runOp (64 + q) 0x64 openTime fun c t => t.modelSelect c

def State.modelReadEffect (c : List Byte) (t : State) : State × Nat :=
  match t.grant [(true, fieldAt c 24 8, 1280)] with
  | some t' => (t', Status.dmaFault)
  | none => (t.dataWrite (fieldAt c 24 8) (t.bankRecord (byteAt c 16) (t.model (byteAt c 16))), Status.ok)

def execModelRead (q : Fin 16) (s : State) : Res :=
  whenLive s fun s => s.runOp (64 + q) 0x65 openTime State.modelReadEffect

def State.retireEffect (c : List Byte) (t : State) : State × Nat :=
  let b := byteAt c 16
  let at_ := fieldAt c 24 8
  let k := t.model b
  if at_ = 0 || k.st != .draining then (t, Status.badCommand)
  else if t.past at_ then (t, Status.strokePassed)
  else (t.setModel b { k with retireAt := at_ }, Status.ok)

def execRetire (q : Fin 16) (s : State) : Res :=
  whenLive s fun s => s.runOp (64 + q) 0x66 openTime State.retireEffect

/-! ## At a boundary (R282, R303, R306, R307) -/

/-- No sequence context is bound to a bank. -/
def State.unbound (s : State) (b : Nat) : Bool := s.seqs.all fun (_, x) => x.state == 0 || x.bank != b

/-- Before the banks swap: a commit whose per-frame banks are no longer armed for it is lost (R306). -/
def State.loseCommit (s : State) (k b : Nat) : State :=
  let m := s.model b
  if m.st != .armed || k < m.commitAt then s
  else if [BankKind.feature, BankKind.ensemble].all fun x =>
      !m.img.carries x || (s.on x.armed && s.get64 x.atReg == m.commitAt) then s
  else (s.undoCommit b).setModel b { m with st := .primed, lost := true, commitAt := 0, retireAt := 0 }

def State.loseCommits (s : State) (k : Nat) : State := (s.loseCommit k 0).loseCommit k 1

/-- After the banks have swapped: an ARMED bank takes over (R306). -/
def State.commitModel (s : State) (k b : Nat) : State :=
  let m := s.model b
  if m.st != .armed || k < m.commitAt then s
  else
    let o := 1 - b
    let old := s.model o
    let s1 := if old.st = .active then
        s.setModel o (if s.unbound o then old.emptied else { old with st := .draining, retireAt := m.retireAt })
      else s
    let e := (s1.models.epoch + 1) % 2 ^ 32
    let s2 := s1.setModel b { m with st := .active, commitAt := 0, retireAt := 0, lost := false }
    State.raise { s2 with models := { s2.models with epoch := e } } 0x0702 (payload 16 [(0, 1, b), (4, 4, m.img.id), (8, 4, e)])

def State.activeBank (s : State) : Option Nat :=
  if s.models.bank0.st = .active then some 0 else if s.models.bank1.st = .active then some 1 else none

/-- One context of a retired bank re-initialised on the active model (R282). -/
def State.retireCtx (s : State) (a c : Nat) : State :=
  let x := sget {} s.seqs c
  let y := { x with bank := a, model := (s.model a).img.id, state := 1, steps := 0, lastSeal := 2 ^ 64 - 1, missing := 0 }
  State.raise { s with seqs := sset {} s.seqs c y } 0x0703 (payload 16 [(0, 1, c), (4, 4, x.model)])

/-- A DRAINING bank's retire stroke, and its end once nothing is bound to it (R303, R307). -/
def State.drainModel (s : State) (k b : Nat) : State :=
  let m := s.model b
  if m.st != .draining then s
  else
    let s1 := if m.retireAt != 0 && m.retireAt ≤ k then
        match s.activeBank with
        | some a => ((s.seqs.filter fun (_, x) => x.state != 0 && x.bank == b).map (·.1)).foldl (fun t c => State.retireCtx t a c) s
        | none => s
      else s
    if s1.unbound b then s1.setModel b m.emptied else s1

/-- Step 3 of the boundary as far as it concerns models, after the bank swaps. -/
def State.modelBoundary (s : State) (k : Nat) : State :=
  (((s.commitModel k 0).commitModel k 1).drainModel k 0).drainModel k 1

/-! ## Sequence contexts (R280, R281) -/

/-- The 64 bytes of a context entry. -/
def SeqCtx.entry (x : SeqCtx) : List Byte :=
  padTo 64 (natBytes 1 x.state ++ natBytes 1 x.bank ++ [0, 0] ++ natBytes 4 x.model ++ natBytes 8 x.addr ++ natBytes 4 x.bytes
    ++ natBytes 4 x.chan0 ++ natBytes 4 x.nchan ++ zeros 4 ++ natBytes 8 x.steps ++ natBytes 8 x.lastSeal ++ natBytes 4 x.missing)

/-- The contexts a range names. -/
def ctxRange (c : List Byte) : List Nat := (List.range (byteAt c 17 + 1)).map (byteAt c 16 + ·)

/-- The region overlaps that of an open context. -/
def State.regionTaken (s : State) (a n : Nat) : Bool :=
  s.seqs.any fun (_, x) => x.state != 0 && aqOverlap a n x.addr x.bytes

def State.ctxOpenEffect (c : List Byte) (t : State) : State × Nat :=
  let i := byteAt c 16
  let a := fieldAt c 32 8
  let n := fieldAt c 40 4
  if (sget {} t.seqs i).state != 0 || 0xA0000000 < a + n || t.regionTaken a n || 524288 < fieldAt c 20 4 + fieldAt c 24 4 then
    (t, Status.badCommand)
  else match t.activeBank with
    | none => (t, Status.notFound)
    | some b =>
      let x : SeqCtx := { state := 1, bank := b, model := (t.model b).img.id, addr := a, bytes := n, chan0 := fieldAt c 20 4,
                          nchan := fieldAt c 24 4, steps := 0, lastSeal := 2 ^ 64 - 1, missing := 0 }
      ({ t with seqs := sset {} t.seqs i x }, Status.ok)

def execCtxOpen (q : Fin 16) (s : State) : Res :=
  whenLive s fun s => s.runOp (64 + q) 0x52 openTime State.ctxOpenEffect

def State.ctxCloseEffect (c : List Byte) (t : State) : State × Nat :=
  ((ctxRange c).foldl (fun (t : State) i => { t with seqs := smod {} t.seqs i fun x => { x with state := 0 } }) t, Status.ok)

def execCtxClose (q : Fin 16) (s : State) : Res :=
  whenLive s fun s => s.runOp (64 + q) 0x53 openTime State.ctxCloseEffect

def State.ctxReadEffect (c : List Byte) (t : State) : State × Nat :=
  let is := ctxRange c
  match t.grant [(true, fieldAt c 24 8, 64 * is.length)] with
  | some t' => (t', Status.dmaFault)
  | none => (t.dataWrite (fieldAt c 24 8) ((is.map fun i => (sget {} t.seqs i).entry).flatten), Status.ok)

def execCtxRead (q : Fin 16) (s : State) : Res :=
  whenLive s fun s => s.runOp (64 + q) 0x54 openTime State.ctxReadEffect

/-- A context that takes in seal `n`. -/
def SeqCtx.advance (x : SeqCtx) (n : Nat) : SeqCtx :=
  { x with
    missing := if x.lastSeal != 2 ^ 64 - 1 && x.lastSeal + 1 < n then sat32 (x.missing + (n - x.lastSeal - 1)) else x.missing
    lastSeal := n, steps := x.steps + 1, state := 2 }

def State.ctxAdvanceEffect (c : List Byte) (t : State) : State × Nat :=
  let id := fieldAt c 20 4
  let bound := (ctxRange c).filter fun i => (sget {} t.seqs i).state != 0
  let mine := bound.filter fun i => (sget {} t.seqs i).model == id
  (mine.foldl (fun (t : State) i => { t with seqs := smod {} t.seqs i fun x => x.advance (fieldAt c 24 8) }) t,
    if mine.length = bound.length then Status.ok else Status.notFound)

def execCtxAdvance (q : Fin 16) (s : State) : Res :=
  whenLive s fun s => s.runOp (64 + q) 0x55 openTime State.ctxAdvanceEffect

end Sys2Proof.Machine
end

