-- ==== Sys2Proof/Machine/Verdict.lean ====
section
/-! DEFINITION. The verdict stage, the drop budget, the reorder stage, verdict frames (R158, R159, R178, R179, R184-R187, R403). -/

namespace Sys2Proof.Machine

/-! ## Composing a verdict (R118, R178) -/

/-- A link's default action, in force (R118). -/
def State.defaultVerdict (s : State) (n : Nat) : Verdict :=
  let a := s.getF (F.WH_LINK_DEFAULT_ACTION n)
  { action := a, tc := s.getF (F.WH_LINK_DEFAULT_TC n), dflt := true
    mark := if a = 3 then s.getF (F.WH_LINK_DEFAULT_MARK_CODE n) else 0 }

/-- The verdict of a TERMINAL rule result. -/
def ruleVerdict (r : Nat) : Verdict :=
  { action := bits r 56 2, tc := bits r 28 3, police := bit r 31, policer := bits r 32 16
    mark := if bits r 56 2 = 3 then bits r 48 8 else 0, ruleId := bits r 0 20 }

/-- The verdict of an INSPECT result whose ensemble voted: entry `a` of the class-action table. -/
def voteVerdict (r a cls margin score : Nat) : Verdict :=
  let rule := ruleVerdict r
  let own := bit a 6
  { action := bits a 0 2, mark := if bits a 0 2 = 3 then bits a 8 8 else 0
    tc := if own then rule.tc else bits a 2 3, police := if own then rule.police else bit a 5
    policer := if own then rule.policer else bits a 16 16
    inspected := true, cls := cls, margin := margin, score := score, ruleId := bits r 0 20 }

/-- What a pass's result comes to, if it is final. -/
def State.passVerdict (s : State) (p : Pass) (e : RoEntry) : Option Verdict :=
  match p.result with
  | .none => none
  | .rule r => if p.inspects then none else some (ruleVerdict r)
  | .vote r c m sc => some (voteVerdict r (enAction (s.img .ensemble e.eBank) p.profile c) c m sc)
  | .dflt => some (s.defaultVerdict p.link)

/-- CONFLICT of a pass's flow context after its update; 0 with no context; none while its flow stage runs on. -/
def Pass.ctxConflict (p : Pass) : Option Bool :=
  if p.flow == .done then some ((p.ctxSnap.map Sys2Proof.Machine.ctxConflict).getD false) else none

/-! ## The drop budget (R179, R403) -/

/-- A DROP or SUMP verdict is allowed: the V-th verdict of the window, D allowed before it. -/
def dropAllowed (fraction floor v d : Nat) : Bool :=
  fraction == 0xFFFF || d < floor || 65536 * (d + 1) ≤ fraction * v

/-- A verdict through the budget of its link: a conversion counts, and the first of the window moves the link's pair. -/
def State.dropBudget (s : State) (n : Nat) (v : Verdict) : State × Verdict :=
  let i := s.intake
  let vs := sget 0 i.budgetV n + 1
  let d := sget 0 i.budgetD n
  let s1 := { s with intake := { i with budgetV := bumpMap i.budgetV n 1 } }
  if !(v.action == 1 || v.action == 2) then (s1, v)
  else if dropAllowed (s.get (F.RV_DROP_FRACTION n)) (s.get (F.RV_DROP_FLOOR n)) vs d then
    ({ s1 with intake := { s1.intake with budgetD := bumpMap i.budgetD n 1 } }, v)
  else
    let s2 := { s1 with intake := { s1.intake with converted := bumpMap i.converted n 1 } }.bump (F.WH_VALVE_PASS n)
    (if sget 0 i.converted n = 0 then s2.valveBypass 2 n else s2, { v with action := 0, mark := 0, valve := true })

/-- The window of the budget closes: VALVE_TRIP and LADDER_YIELD for each link with conversions (R42, R403). -/
def State.closeBudget (s : State) (priv : Nat → Bool) : State :=
  let t := s.intake.converted.foldl (fun t e =>
    (t.raise 0x0801 (tripPayload 2 e.1 e.2)).raise 0x0106
      (payload 16 [(0, 1, if priv e.1 then 2 else 3), (1, 1, e.1), (2, 1, 1), (3, 1, 2), (4, 4, e.2)])) s
  { t with intake := { t.intake with budgetV := [], budgetD := [], converted := [], windowFrom := s.clk.cycle } }

/-- DROP_BUDGET_WINDOW: while strokes do not run, windows of 250,000 core cycles take their place. -/
def State.budgetWindow (s : State) : State :=
  if s.clk.strokes then s
  else match s.reach (s.intake.windowFrom + 250000) with
    | none => s
    | some s1 => s1.closeBudget s1.priv

def execDropBudgetWindow (s : State) : Res := whenLive s State.budgetWindow

/-! ## The verdict stage (R157-R159, R188) -/

/-- A frame's verdict leaves the verdict stage: no pass of it uses a bank from now on, its rewind mark is released. -/
def State.issueVerdict (s : State) (n : Nat) (e : RoEntry) (v : Verdict) (arrived : Nat) : State :=
  let (s1, v1) := if e.aborted then
      ({ s with intake := { s.intake with budgetV := bumpMap s.intake.budgetV n 1 } }, { v with action := 1, mark := 0 })
    else s.dropBudget n v
  let s2 := if v1.dflt then s1.bump (F.WH_DEFAULT n) else s1
  let s3 := s2.modEntry n e.seq fun x => { x with issued := true, verdict := some v1, arrived := arrived, second := none }
  let s4 := if s.mode n == 2 then
      s3.modFrame n e.frame fun f => if f.marked then { f with marked := false, released := true } else f
    else s3
  s4.sweep

/-- A frame's result that stands in time for its verdict stage. -/
def State.timely (s : State) (n : Nat) (e : RoEntry) : Option Pass :=
  s.intake.passes.find? fun p => p.link == n && p.seq == e.seq && (p.second || !e.two)
    && (s.passVerdict p e).isSome && p.resultAt + 1 ≤ e.dealt + 1591

/-- When a frame's verdict leaves the verdict stage, as far as it is known, and the lane that orders it within the cycle: its result's,
or at its deadline. -/
def State.leaves (s : State) (n : Nat) (e : RoEntry) : Nat × Nat :=
  match s.timely n e with
  | some p => (p.resultAt + 8, p.lane)
  | none => (e.dealt + 1599, ((s.intake.passes.find? fun p => p.link == n && p.seq == e.seq && p.second == e.two).map (·.lane)).getD e.lane)

/-- Another frame's verdict of the link leaves before this one's: earlier, or in the same cycle with a lower lane (R179). -/
def State.preceded (s : State) (n : Nat) (e : RoEntry) : Bool :=
  let mine := s.leaves n e
  (s.reorder n).any fun x => x.seq != e.seq && !x.issued &&
    let its := s.leaves n x
    its.1 < mine.1 || (its.1 == mine.1 && its.2 < mine.2)

/-- VERDICT_STAGE: a final result enters in the cycle after it stands and leaves 8 core cycles later; one that enters after the
1,591st cycle from dealing is too late. Verdicts of a link leave in the order their results stand. -/
def State.verdictStage (s : State) (r : PassRef) : State :=
  match s.pass? r with
  | none => s
  | some p => match s.entry? p.link p.seq with
    | none => s
    | some e => match s.passVerdict p e with
      | none => s
      | some v =>
        if e.issued || e.dealt + 1591 < p.resultAt + 1 || (!p.second && e.two) || s.preceded p.link e then s
        else match s.reach (p.resultAt + 8) with
          | none => s
          | some s1 =>
            let v1 := { v with twoPass := p.second, conflict := p.ctxConflict }
            let s2 := s1.issueVerdict p.link e v1 (p.resultAt + 9)
            if v.dflt || e.aborted then s2 else s2.deposit e p

def execVerdictStage (p : PassRef) (s : State) : Res := whenLive s fun s => s.verdictStage p

/-- A result of the frame has entered the verdict stage by the 1,591st cycle. -/
def State.resultInTime (s : State) (n : Nat) (e : RoEntry) : Bool := (s.timely n e).isSome

/-- A late frame in whose tree group frames of privileged links went ahead of it in this stroke (R158). -/
def State.behindPriv (s : State) (n : Nat) (e : RoEntry) : Bool :=
  !s.priv n && s.intake.passes.any fun p => p.link == n && p.seq == e.seq && p.behind == some s.clk.openCycle

/-- VERDICT_DEADLINE: in the 1,592nd cycle the verdict stage takes the link's default action. -/
def State.verdictDeadline (s : State) (n seq : Nat) : State :=
  match s.entry? n seq with
  | none => s
  | some e =>
    if e.issued || s.resultInTime n e || s.preceded n e then s
    else match s.reach (e.dealt + 1599) with
      | none => s
      | some s1 =>
        let fin := s.intake.passes.find? fun p => p.link == n && p.seq == seq && p.second == e.two
        let v := { s1.defaultVerdict n with
          late := true, twoPass := e.two, conflict := (fin.map Pass.ctxConflict).getD (some false) }
        let s2 := (s1.bump (F.WH_VERDICT_LATE n)).issueVerdict n e v (e.dealt + 1600)
        if s.behindPriv n e then
          { s2 with intake := { s2.intake with lateBehind := bumpMap s2.intake.lateBehind n 1 } }
        else s2

def execVerdictDeadline (link : Fin 24) (seq : Fin 4096) (s : State) : Res :=
  whenLive s fun s => s.verdictDeadline link seq

/-! ## Verdict frames (R184-R186) -/

/-- A verdict record. -/
def verdictRecord (e : RoEntry) (v : Verdict) : Nat :=
  e.lseq + 2 ^ 32 * e.port + 2 ^ 48 * v.action + 2 ^ 50 * v.tc + 2 ^ 53 * b2n v.police + 2 ^ 54 * b2n v.dflt
    + 2 ^ 55 * b2n v.valve + 2 ^ 56 * b2n v.late + 2 ^ 57 * b2n v.inspected + 2 ^ 58 * b2n v.twoPass
    + 2 ^ 59 * b2n (v.conflict.getD false) + 2 ^ 60 * v.cls + 2 ^ 64 * v.policer + 2 ^ 80 * v.mark + 2 ^ 88 * v.margin
    + 2 ^ 100 * v.score + 2 ^ 108 * v.ruleId

/-- An address register pair as bytes in transmission order. -/
def State.macAddr (s : State) (lo hi : Nat) : List Byte := natBytes 4 (s.raw lo) ++ natBytes 2 (s.raw hi)

/-- A verdict frame, without its check sequence, of the given records and timestamps. -/
def State.verdictFrame (s : State) (n : Nat) (rs : List VRec) : List Byte :=
  let body := s.macAddr (R.WH_VF_DA_LO n) (R.WH_VF_DA_HI n) ++ s.macAddr (R.WH_VF_SA_LO n) (R.WH_VF_SA_HI n)
    ++ [0x88, 0xB5, 0x02, 0x01] ++ natBytes 1 rs.length ++ [0] ++ natBytes 2 (sget 0 s.intake.vfSeq n)
    ++ natBytes 8 s.clk.time ++ zeros 4 ++ (rs.map fun r => natBytes 16 r.bits).flatten
    ++ (rs.map fun r => natBytes 8 r.stamp).flatten
  body ++ zeros (60 - body.length)

def State.verdictQ (s : State) (n : Nat) : List VRec := sget [] s.intake.verdictQ n

def State.setVerdictQ (s : State) (n : Nat) (l : List VRec) : State :=
  { s with intake := { s.intake with verdictQ := sset [] s.intake.verdictQ n l } }

/-- Records as they are sent: CONFLICT of a pass whose flow stage has not ended is a free bit. DESIGN CHOICE (log 36): R186 gives
CONFLICT after the update, and a TERMINAL verdict waits for no update. -/
def State.knowRecords (s : State) : List VRec → State × List VRec
  | [] => (s, [])
  | r :: rs =>
    let (f, s1) := s.free
    let (s2, l) := (if r.pass.isNone then s else s1).knowRecords rs
    (s2, (if r.pass.isNone then r else { r with bits := r.bits + 2 ^ 59 * (f % 2), pass := none }) :: l)

/-- MAXREC of a link. -/
def State.maxRec (s : State) (n : Nat) : Nat := max 1 (s.get (F.WH_VF_CTRL_MAXREC n))

/-- VERDICT_FRAME_SEND: the oldest records, up to MAXREC, in one frame ready for the link's transmitter. -/
def State.sendVerdicts (s0 : State) (n : Nat) : State :=
  let (s, rs) := s0.knowRecords ((s0.verdictQ n).take (s0.maxRec n))
  if rs.isEmpty then s
  else
    let fr := withFcs (s.verdictFrame n rs)
    let s1 := s.setVerdictQ n ((s.verdictQ n).drop rs.length)
    let s2 := { s1 with
      intake := { s1.intake with vfSeq := sset 0 s1.intake.vfSeq n ((sget 0 s1.intake.vfSeq n + 1) % 65536) }
      egress := { s1.egress with aside := smod [] s1.egress.aside n fun l => l ++ [fr] } }
    (s2.bump (F.WH_VF_SENT n)).bump (F.WH_VF_RECORDS n) rs.length

/-- A record joins a MODE 2 link's verdict queue; a link that is down cannot carry it (R211). -/
def State.pushRecord (s : State) (n : Nat) (e : RoEntry) (v : Verdict) : State :=
  if !s.lit n then s
  else s.setVerdictQ n (s.verdictQ n ++ [{ bits := verdictRecord e v, stamp := e.stamp, at_ := s.clk.cycle
                                           pass := if v.conflict.isNone then some (e.seq, e.two) else none }])

/-- The core cycle in which the queue's next frame of MAXREC records can be sent: the one after its last record came (R110). -/
def State.fullAt (s : State) (n : Nat) : Option Nat := ((s.verdictQ n)[s.maxRec n - 1]?).map fun r => r.at_ + 1

/-- The frames of MAXREC records that are due by now, `k` at most. -/
def State.sendFull (s : State) (n : Nat) : Nat → State
  | 0 => s
  | k + 1 => match s.fullAt n with
    | some c => if c ≤ s.clk.cycle then (s.sendVerdicts n).sendFull n k else s
    | none => s

/-- VERDICT_FRAME_HOLD_EXPIRY: the oldest record has waited HOLD core cycles, one at least (R110), or the frame holds MAXREC
records before that. -/
def State.holdExpiry (s : State) (n : Nat) : State :=
  match s.verdictQ n with
  | [] => s
  | r :: _ =>
    let due := r.at_ + max 1 (s.get (F.WH_VF_CTRL_HOLD n))
    match s.reach (match s.fullAt n with
      | some c => min c due
      | none => due) with
    | none => s
    | some s1 => s1.sendVerdicts n

def execVerdictFrameHoldExpiry (link : Fin 24) (s : State) : Res := whenLive s fun s => s.holdExpiry link

/-! ## The reorder stage (R121) -/

/-- The sump link takes frames: valid, up, not in MODE 2 (R118). -/
def State.sumpOpen (s : State) : Bool :=
  s.on F.WH_SUMP_VALID && s.lit (s.get F.WH_SUMP_LINK) && s.mode (s.get F.WH_SUMP_LINK) != 2

/-- A frame goes to a link's scheduler: a policed frame waits for its end (R192). -/
def State.toEgress (s : State) (n dst : Nat) (e : RoEntry) (v : Verdict) : State :=
  let ended := match s.frame? n e.frame with
    | some f => f.stat != .opening
    | none => true
  { s with egress := { s.egress with ready := s.egress.ready ++
    [⟨n, e.frame, dst, v.tc, v.police, v.policer, v.mark, if v.police && !ended then none else some s.clk.cycle⟩] } }

/-- One verdict released: a record in look-aside mode, else the frame's way. -/
def State.releaseVerdict (s : State) (n : Nat) (e : RoEntry) (v : Verdict) : State :=
  if e.flushed then s
  else if s.mode n == 2 then s.pushRecord n e v
  else if e.aborted then s.releaseFrame n e.frame
  else match v.action with
    | 1 => s.releaseFrame n e.frame
    | 2 => if s.sumpOpen then s.toEgress n (s.get F.WH_SUMP_LINK) e v else s.releaseFrame n e.frame
    | _ => s.toEgress n (partner n) e v

/-- Up to `k` verdicts in sequence order, each from the cycle after it reached the stage. -/
def State.releaseUpTo (s : State) (n : Nat) : Nat → State
  | 0 => s
  | k + 1 => match s.reorder n with
    | e :: rest => match e.verdict with
      | some v => if e.arrived < s.clk.cycle then ((s.setReorder n rest).releaseVerdict n e v).releaseUpTo n k else s
      | none => s
    | [] => s

/-- REORDER_RELEASE: the next cycle in which the link's oldest verdict can go; up to 4 go in it. -/
def State.reorderRelease (s : State) (n : Nat) : State :=
  let due := match s.reorder n with
    | [] => none
    | e :: _ => e.verdict.map fun _ => max (e.arrived + 1) (sget 0 s.intake.relNext n)
  match due, s.fullAt n with
  | some c, _ => match s.reach c with
    | none => s
    | some s1 =>
      let s2 := (s1.sendFull n 4096).releaseUpTo n 4
      ({ s2 with intake := { s2.intake with relNext := sset 0 s2.intake.relNext n (s2.clk.cycle + 1) } }).sweep
  | none, some c => match s.reach c with
    | none => s
    | some s1 => s1.sendFull n 4096
  | none, none => s

def execReorderRelease (link : Fin 24) (s : State) : Res := whenLive s fun s => s.reorderRelease link

end Sys2Proof.Machine
end

