-- ==== Sys2Proof/Machine/Egress.lean ====
section
/-! DEFINITION. Egress: policers and shapers, class queues, the scheduler, time gates, originated frames (chapter 06, R189-R213,
R180, R404). -/

namespace Sys2Proof.Machine

/-- A step at a timebase count: time passes up to it if it lies ahead; none where a boundary comes first (log 1). -/
def State.reachTick (s : State) (e : Nat) : Option State :=
  if e ≤ s.clk.time then some s
  else match s.nextEdge with
    | some k => if e ≤ k then some (s.elapseTo e) else none
    | none => some (s.elapseTo e)

/-! ## Class queues (R191-R193) -/

/-- Bytes queued in a class. -/
def State.classBytes (s : State) (n c : Nat) : Nat := ((s.classQ n c).map fun e => (s.entryLen e).1).sum

/-- A frame enters its class, or is dropped above the class's limit; and whether it entered. -/
def State.enqueue (s : State) (n c : Nat) (e : QEntry) : State × Bool :=
  if 256 * s.getF (F.EG_TC_LIMIT n c) < s.classBytes n c + (s.entryLen e).1 then
    ((s.bump (F.EG_TAIL_DROPS n c)).releaseEntry e, false)
  else (s.setClassQ n c (s.classQ n c ++ [e]), true)

/-- POLICER_METER: the named policer colours a frame; none where it is dropped (R196-R199). -/
def State.meter (s : State) (r : Ready) : State × Option (Colour × Nat) :=
  let e := s.polEntry r.policer
  let m := polMode e
  if !r.police then (s, some (.green, r.mark))
  else if m = 0 || m = 3 then (s.bump F.EG_POL_NOCFG_COUNT, some (.green, r.mark))
  else
    let len := (s.entryLen { src := r.src, frame := r.frame, mark := r.mark }).1
    let (b, col) := ((s.bucket r.policer).refresh e s.clk.cycle).meter e len
    let s1 := s.setBucket r.policer b
    let mark (code : Nat) : Nat := if polMark e && code != 0 then code else r.mark
    match col with
    | .green => (s1, some (.green, r.mark))
    | .yellow => (s1, if polYDrop e then none else some (.yellow, mark (byteAt e 16)))
    | .red => (s1, if polRDrop e then none else some (.red, mark (byteAt e 17)))

/-- The next frame to meter: the one ready first, the lower source link first. -/
def State.nextReady (s : State) : Option Ready :=
  (sortBy (fun r => r.at_.getD 0 * 32 + r.src) (s.egress.ready.filter fun r => r.at_.isSome)).head?

/-- EGRESS_ENQUEUE: a frame ready for a link that is down is dropped (R210), else metered and enqueued. -/
def State.egressEnqueue (s : State) : State :=
  match s.nextReady with
  | none => s
  | some r =>
    let s0 := { s with egress := { s.egress with ready := s.egress.ready.filter (· != r) } }
    let entry (mark : Nat) : QEntry := { src := r.src, frame := r.frame, mark := mark }
    if !s.lit r.dst then (s0.bump (F.EG_DOWN_DROPS r.dst r.tc)).releaseEntry (entry 0)
    else match s0.meter r with
      | (s1, none) => (s1.bump (F.EG_POL_DROPS r.dst r.tc)).releaseEntry (entry 0)
      | (s1, some (col, mark)) =>
        let (s2, entered) := s1.enqueue r.dst r.tc (entry mark)
        (if entered && col == .yellow then s2.bump (F.EG_POL_YELLOW r.dst r.tc) else s2).newHeads r.dst

def execEgressEnqueue (s : State) : Res := whenLive s State.egressEnqueue

/-! ## The scheduler (R201) -/

/-- The class that the scheduler picks, its eligible heads tagged (R201). -/
def State.pickClass (s : State) (n : Nat) : Option Nat :=
  let el := (List.range 8).filter fun c => s.eligible n c
  match (el.filter (s.strict n)).reverse with
  | c :: _ => some c
  | [] =>
    let tag (c : Nat) := match s.classQ n c with
      | e :: _ => (e.tag.getD 0 + 2 ^ 64 - s.vtime n) % 2 ^ 64
      | [] => 0
    (sortBy tag el).head?

/-! ## Marks (R180) -/

/-- One's-complement sum of two 16-bit words. -/
def ocAdd (a b : Nat) : Nat := let t := a + b; if 65536 ≤ t then t - 65535 else t

/-- A head rewritten by a mark entry (its two words); none where it lies beyond the head. -/
def rewriteHead (head : List Byte) (w0 w1 : Nat) : Option (List Byte) :=
  let o := bits w0 0 7
  let width := bits w0 10 3 + 1
  let lo := 8 - bits w0 7 3 - width
  let cs := bits w1 1 7
  let sum := bit w1 0
  if head.length ≤ o || (sum && head.length < cs + 2) then none
  else
    let new := putField head o 1 (setBits (byteAt head o) lo width (bits w0 16 8))
    if !sum then some new
    else
      let word (h : List Byte) : Nat :=
        if (o + cs) % 2 = 0 then 256 * byteAt h o + byteAt h (o + 1)
        else 256 * (if o = 0 then 0 else byteAt h (o - 1)) + byteAt h o
      let hc := be16 new cs
      let c := 65535 - ocAdd (ocAdd (65535 - hc) (65535 - word head)) (word new)
      some (putBytes new cs (beBytes 2 c))

/-- The rewritten head of a frame that egress starts, by the mark table in force; a mark beyond the head is counted. -/
def State.markFrame (s : State) (e : QEntry) : State × Option (List Byte) :=
  let w0 := (s.wordF (R.WH_MARK_0 e.mark)).toNat
  if e.mark = 0 || 255 < e.mark || !bit w0 15 then (s, none)
  else match s.frame? e.src e.frame with
    | none => (s, none)
    | some f =>
      match rewriteHead (headOf false f) w0 (s.wordF (R.WH_MARK_4 e.mark)).toNat with
      | some h => (s, some h)
      | none => (s.bump (F.WH_MARK_SKIP e.src), none)

/-! ## EGRESS_SELECT and EGRESS_FRAME_END -/

def State.tx (s : State) (n : Nat) : Option Tx := sget none s.egress.tx n

def State.setTx (s : State) (n : Nat) (t : Option Tx) : State :=
  { s with egress := { s.egress with tx := sset none s.egress.tx n t } }

/-- A shaper charged for a frame; a class that it holds back now becomes inactive (R200, R202). -/
def State.charge (s : State) (e len : Nat) : State :=
  let b := (s.bucket e).refresh (s.polEntry e) s.clk.cycle
  let s1 := s.setBucket e { b with tc := b.tc - (65536 * (len + polOverhead (s.polEntry e)) : Nat) }
  if b.tc < (65536 * (len + polOverhead (s.polEntry e)) : Nat) then
    (List.range 192).foldl (fun t k => if t.shaper (k / 8) (k % 8) == some e then t.setTag (k / 8) (k % 8) none else t) s1
  else s1

/-- The transmit timestamp of a PTP event message that the 880 sends itself (R19, R359). -/
def State.stampTx (s : State) (n : Nat) (e : QEntry) : State :=
  match e.own with
  | some bs => if ptpEvent bs then s.emit (.ptpSent n s.clk.time) else s
  | none => s

/-- A class's head frame starts. -/
def State.startFrame (s : State) (n c : Nat) : State :=
  match s.classQ n c with
  | [] => s
  | e :: rest =>
    let (len, known) := s.entryLen e
    let s1 := s.setClassQ n c rest
    let s2 := if s.strict n c then s1
      else { s1 with egress := { s1.egress with vtime := sset 0 s1.egress.vtime n (e.tag.getD 0) } }
    let s3 := if s.onF (F.EG_SHAPE_EN n c) && (s.shaper n c).isNone then s2.bump F.EG_POL_NOCFG_COUNT else s2
    let s4 := match s.shaper n c with
      | some k => s3.charge k len
      | none => s3
    let (s5, head) := s4.markFrame e
    let s6 := s5.modFrame e.src e.frame fun f => { f with started := true }
    let owed : List (Nat × Nat × Nat × Nat) := match s.shaper n c with
      | some k => if known then [] else [(e.src, e.frame, k, len)]
      | none => []
    let s7 := { s6 with egress := { s6.egress with refunds := s6.egress.refunds ++ owed } }
    ((s7.setTx n (some { entry := e, tc := c, start := s.clk.time, rewrite := head })).stampTx n e).newHeads n

/-- EGRESS_SELECT: a transmitter that can take a frame gets one; a MODE 2 link sends what it has ready, in order (R190). -/
def State.egressSelect (s : State) (n : Nat) : State :=
  if !s.lit n || (s.tx n).isSome then s
  else if s.mode n == 2 then
    let s := s.sendFull n 4096
    match sget [] s.egress.aside n with
    | [] => s
    | f :: rest =>
      let e : QEntry := { src := n, frame := 0, mark := 0, own := some f }
      (({ s with egress := { s.egress with aside := sset [] s.egress.aside n rest } }).setTx n
        (some { entry := e, tc := 0, start := s.clk.time })).stampTx n e
  else
    let s1 := (List.range 8).foldl (fun t c => t.barClass n c) (s.newHeads n)
    match s1.pickClass n with
    | some c => s1.startFrame n c
    | none => s1

def execEgressSelect (link : Fin 24) (s : State) : Res := whenLive s fun s => s.egressSelect link

/-- The bytes that a transmitter sends: the head as rewritten, the check sequence recomputed (R180). -/
def sentBytes (bytes : List Byte) (rewrite : Option (List Byte)) : List Byte :=
  match rewrite with
  | none => bytes
  | some h => withFcs (putBytes (bytes.take (bytes.length - 4)) 0 h)

/-- EGRESS_FRAME_END: the last byte of a frame whose end is written leaves, its wire time over. -/
def State.frameEnd (s : State) (n : Nat) : State :=
  match s.tx n with
  | none => s
  | some t =>
    let frame : Option (List Byte) := match t.entry.own with
      | some bs => some bs
      | none => match s.frame? t.entry.src t.entry.frame with
        | some f => if f.stat == .good then some f.bytes else none
        | none => none
    match frame with
    | none => s
    | some bs => match s.reachTick (t.start + s.wireTicks n bs.length) with
      | none => s
      | some s1 =>
        let s2 := ((s1.setTx n none).emit (.frame n (sentBytes bs t.rewrite) false)).releaseEntry t.entry
        if s.mode n == 2 then s2
        else (s2.bump (F.EG_TX_FRAMES n t.tc)).bump64 (R.EG_TX_BYTES_LO n t.tc) bs.length

def execEgressFrameEnd (link : Fin 24) (s : State) : Res := whenLive s fun s => s.frameEnd link

/-! ## Gate steps -/


/-- GATE_ENTRY_CHANGE: the next gate event of the list in force. -/
def State.gateChange (s : State) (n : Nat) : State :=
  match (s.gates n).oper with
  | none => s
  | some (l, st) =>
    if l.entries.isEmpty then s
    else match s.reachTick (l.at_ st s.clk.time).2.2 with
      | none => s
      | some s1 => s1.tagClasses n

def execGateEntryChange (link : Fin 24) (s : State) : Res := whenLive s fun s => s.gateChange link

/-- GATE_LIST_TAKEOVER: the pending list comes into force at its tick. -/
def State.gateTakeover (s : State) (n : Nat) : State :=
  match (s.gates n).pending with
  | none => s
  | some (l, st) => match s.reachTick (nsTick st) with
    | none => s
    | some s1 =>
      ((((s1.tagClasses n).modGates n fun g => { g with oper := some (l, st), pending := none }).putB
        (F.EG_GCL_STATUS_PENDING n) false).putB (F.EG_GCL_STATUS_OPER n) (!l.entries.isEmpty)).newHeads n

def execGateListTakeover (link : Fin 24) (s : State) : Res := whenLive s fun s => s.gateTakeover link

/-- COMMIT: validation starts; what the last COMMIT left is cleared. -/
def State.gclCommit (s : State) (n : Nat) : State :=
  ((((s.putB (F.EG_GCL_STATUS_STAGED n) false).putB (F.EG_GCL_STATUS_REFUSED n) false).put
    (F.EG_GCL_STATUS_REASON n) 0)).modGates n fun g => { g with validating := true }

def execGclCommit (link : Fin 24) (s : State) : Res := whenWritable s (R.EG_GCL_CTRL link) fun s => s.gclCommit link

/-- The refusal of a list (R207). -/
def gclRefusal (l : GateList) : Option Nat :=
  let ok (t : Nat) : Bool := 8 ≤ t && t ≤ 1000000000
  if !l.entries.isEmpty && !ok l.cycle then some 1
  else if l.entries.any fun e => !ok e.2 then some 2 else none

def State.gclValidated (s : State) (n : Nat) : State :=
  if !(s.gates n).validating then s
  else
    let s1 := s.modGates n fun g => { g with validating := false }
    match gclRefusal (s.stagedList n) with
    | some r => (s1.putB (F.EG_GCL_STATUS_REFUSED n) true).put (F.EG_GCL_STATUS_REASON n) r
    | none => s1.putB (F.EG_GCL_STATUS_STAGED n) true

def execGclValidationDone (link : Fin 24) (s : State) : Res := whenLive s fun s => s.gclValidated link

/-- GATE_LIST_INSTALL, at a boundary: the staged list becomes the pending list (R207). -/
def State.installGates (s : State) (n : Nat) : State :=
  if !s.on (F.EG_GCL_STATUS_STAGED n) then s
  else
    let l := s.stagedList n
    let t := takeoverNs l s.clk.time
    ((((s.modGates n fun g => { g with pending := some (l, t) }).putB (F.EG_GCL_STATUS_STAGED n) false).putB
      (F.EG_GCL_STATUS_PENDING n) true)).put64 (R.EG_GCL_TAKEOVER_LO n) (nsTick t)

/-! ## Originated frames (R189, R404) -/

/-- The window of the origination cap closes: each link with frames refused trips valve 3. -/
def State.closeOrigin (s : State) : State :=
  let t := s.egress.origRefused.foldl (fun t e => t.trip 3 e.1 e.2) s
  { t with egress := { t.egress with origSent := [], origRefused := [], origFrom := 2500000 * (s.clk.cycle / 2500000) } }

def State.originEnd (s : State) : State :=
  match s.reach (s.egress.origFrom + 2500000) with
  | none => s
  | some s1 => s1.closeOrigin

def execOriginationWindowEnd (s : State) : Res := whenLive s State.originEnd

/-- A frame, without its check sequence, that the 880 originates on a link. -/
def State.originate (s0 : State) (n : Nat) (frame : List Byte) : State :=
  let s := if s0.egress.origFrom + 2500000 ≤ s0.clk.cycle then s0.closeOrigin else s0
  let c := s.getF (F.EG_LINK_CTRL_ORIG_TC n)
  if s.get (F.RV_ORIG_CAP n) ≤ sget 0 s.egress.origSent n then
    { s with egress := { s.egress with origRefused := bumpMap s.egress.origRefused n 1 } }
  else
    let s1 := { s with egress := { s.egress with origSent := bumpMap s.egress.origSent n 1 } }
    let bs := withFcs (frame ++ zeros (60 - frame.length))
    if !s.lit n then s1.bump (F.EG_DOWN_DROPS n c)
    else if s.mode n == 2 then
      { s1 with egress := { s1.egress with aside := smod [] s1.egress.aside n fun l => l ++ [bs] } }
    else (s1.enqueue n c { src := n, frame := 0, mark := 0, own := some bs }).1.newHeads n

def execOriginatedFrameSend (link : Fin 24) (frame : List Byte) (s : State) : Res :=
  whenLive s fun s => s.originate link frame

/-! ## POLICER_WRITE and POLICER_READ (R213) -/

/-- An entry written: full buckets and no counts, or the tokens kept and capped. -/
def State.writePolicer (s : State) (i : Nat) (e : List Byte) (keep : Bool) : State :=
  let full : Bucket := { tc := 65536 * polCbs e, te := 65536 * polBurst2 e, last := s.clk.cycle }
  let old := (s.bucket i).refresh (s.polEntry i) s.clk.cycle
  let b := if keep then { old with tc := min old.tc (65536 * polCbs e), te := min old.te (65536 * polBurst2 e) } else full
  { s with egress := { s.egress with
      policers := Memory.write s.egress.policers (32 * i) e, buckets := sset {} s.egress.buckets i b } }

def State.policerWrite (c : List Byte) (t : State) : State × Nat :=
  let addr := fieldAt c 16 8
  let sp := byteAt c 24
  let first := fieldAt c 28 2
  let n := fieldAt c 30 2 + 1
  match (if sp = 0 then t.grant [(false, addr, 32 * n)] else none) with
  | some t' => (t', Status.dmaFault)
  | none =>
    let (t1, ws) := t.readSpace sp addr (32 * n)
    let bs := wordBytesOf ws
    let entry (i : Nat) := (bs.drop (32 * i)).take 32
    if anyMark ws then (t1, Status.poison)
    else if (List.range n).any fun i => polBad (entry i) then (t1, Status.badCommand)
    else ((List.range n).foldl (fun u i => u.writePolicer (first + i) (entry i) (bit (byteAt c 25) 0)) t1, Status.ok)

def execPolicerWrite (q : Fin 16) (stores : List (Nat × List Byte)) (s : State) : Res :=
  whenLive (s.hostStores stores) fun s => s.runOp (64 + q) 0x40 openTime State.policerWrite

/-- The 64-byte record of an entry. -/
def State.policerRecord (s : State) (i : Nat) : List Byte :=
  let b := s.bucket i
  padTo 64 (s.polEntry i ++ natBytes 4 (uInt 32 (b.tc / 65536)) ++ natBytes 4 (b.te / 65536)
    ++ natBytes 4 b.green ++ natBytes 4 b.yellow ++ natBytes 4 b.red)

def State.policerRead (c : List Byte) (t : State) : State × Nat :=
  let addr := fieldAt c 16 8
  let sp := byteAt c 24
  let first := fieldAt c 28 2
  let n := fieldAt c 30 2 + 1
  match (if sp = 0 then t.grant [(true, addr, 64 * n)] else none) with
  | some t' => (t', Status.dmaFault)
  | none =>
    let t1 := (List.range n).foldl (fun u i =>
      u.setBucket (first + i) ((u.bucket (first + i)).refresh (u.polEntry (first + i)) u.clk.cycle)) t
    let bs := ((List.range n).map fun i => t1.policerRecord (first + i)).flatten
    ((t1.writeSpace sp addr ((chunks16 (4 * n) bs).map fun b => (b, false))).1, Status.ok)

def execPolicerRead (q : Fin 16) (s : State) : Res :=
  whenLive s fun s => s.runOp (64 + q) 0x41 openTime State.policerRead

end Sys2Proof.Machine
end

