-- ==== Sys2Proof/Machine/Lanes.lean ====
section
/-! DEFINITION. The lane coding of a Luapo link (R365, R366): codeword header, scrambler, RS(544,514), PAM4 levels, and how the
32-byte chunks of the flit stream are dealt to the lanes in use.

The code's field and generator, the order of its symbols, the Gray map and the precoder are IEEE 802.3's, which R365 names without
repeating them (PRESUMED, log 39). A codeword is a number: bit `i` is the `i`-th bit sent. -/

namespace Sys2Proof.Machine

/-! ## The field GF(2^10) and the code's generator -/

/-- Times the field's element α, with x^10 = x^3 + 1 (PRESUMED, log 39). -/
def laneTimesA (a : Nat) : Nat :=
  let d := 2 * a
  if 1024 ≤ d then (d % 1024) ^^^ 9 else d

/-- The product of two field elements, over the bits of the second. -/
def laneMulFrom : Nat → Nat → Nat → Nat
  | 0, _, _ => 0
  | k + 1, a, b => (if b % 2 = 1 then a else 0) ^^^ laneMulFrom k (laneTimesA a) (b / 2)

def laneMul (a b : Nat) : Nat := laneMulFrom 10 a b

/-- α to a power. -/
def laneExp (e : Nat) : Nat := Nat.rec 1 (fun _ a => laneTimesA a) (e % 1023)

/-- The inverse: the power 1,022, as the product of the powers 2, 4, …, 512. -/
def laneInv (a : Nat) : Nat := ((List.range 9).foldl (fun (p : Nat × Nat) _ =>
  let sq := laneMul p.1 p.1
  (sq, laneMul p.2 sq)) (a, 1)).2

/-- A polynomial's value, coefficients from the lowest. -/
def lanePoly (p : List Nat) (x : Nat) : Nat := p.foldr (fun c acc => c ^^^ laneMul acc x) 0

/-- The generator with its 30 roots α^0 to α^29: the coefficients of x^0 to x^29 (PRESUMED, log 39). -/
def laneGen : List Nat :=
  ((List.range 30).foldl (fun g i =>
    let r := laneExp i
    List.zipWith (· ^^^ ·) (0 :: g) (g.map (laneMul r) ++ [0])) [1]).take 30

/-- Thirty symbols as one number. -/
def packSyms (l : List Nat) : Nat := l.foldr (fun c acc => c + 1024 * acc) 0

/-- The generator times α^b, for each bit of a symbol. -/
def laneRows : List Nat := (List.range 10).map fun b => packSyms (laneGen.map (laneMul (laneExp b)))

/-- One message symbol enters the parity register. -/
def parityStep (rows : List Nat) (reg sym : Nat) : Nat :=
  let fb := sym ^^^ (reg / 2 ^ 290)
  rows.zipIdx.foldl (fun r (row, b) => if bit fb b then r ^^^ row else r) (reg * 1024 % 2 ^ 300)

/-- The parity of 514 symbols, first symbol first: the remainder's coefficients, x^0 lowest. -/
def laneParity (data : Nat) : Nat :=
  (List.range 514).foldl (fun reg i => parityStep laneRows reg (bits data (10 * i) 10)) 0

/-- Parity symbols in the order they are sent: the highest coefficient first. -/
def paritySent (reg : Nat) : Nat := packSyms ((List.range 30).map fun k => bits reg (10 * (29 - k)) 10)

/-- The 5,440 bits of a codeword from its 5,140 data bits. -/
def laneEncode (data : Nat) : Nat := data % 2 ^ 5140 + 2 ^ 5140 * paritySent (laneParity data)

/-! ## Decoding -/

/-- What is left of a received word by the generator; 0 for a codeword. -/
def laneRest (word : Nat) : Nat := laneParity (word % 2 ^ 5140) ^^^ paritySent (word / 2 ^ 5140)

/-- The 30 syndromes. -/
def laneSyndromes (rest : Nat) : List Nat :=
  let r := (List.range 30).map fun k => bits rest (10 * k) 10
  (List.range 30).map fun j => lanePoly r (laneExp j)

/-- The search for the shortest recurrence of the syndromes: the locator, the one before it, its length, the steps since. -/
structure Locator where
  loc : List Nat := [1]
  old : List Nat := [1]
  len : Nat := 0
  gap : Nat := 1
  last : Nat := 1
  deriving DecidableEq, Repr

def addPoly (a b : List Nat) : List Nat :=
  (List.range (max a.length b.length)).map fun i => a.getD i 0 ^^^ b.getD i 0

/-- One syndrome more. -/
def Locator.next (l : Locator) (syn : List Nat) (n : Nat) : Locator :=
  let d := (List.range (l.len + 1)).foldl (fun acc i => acc ^^^ laneMul (l.loc.getD i 0) (syn.getD (n - i) 0)) 0
  let mended := addPoly l.loc (List.replicate l.gap 0 ++ l.old.map (laneMul (laneMul d (laneInv l.last))))
  if d = 0 then { l with gap := l.gap + 1 }
  else if 2 * l.len ≤ n then { loc := mended, old := l.loc, len := n + 1 - l.len, gap := 1, last := d }
  else { l with loc := mended, gap := l.gap + 1 }

/-- The wrong symbols of a received word, as powers of x with the amounts to add; none where it cannot be decoded. -/
def laneErrors (rest : Nat) : Option (List (Nat × Nat)) :=
  let syn := laneSyndromes rest
  let l : Locator := (List.range 30).foldl (fun l n => Locator.next l syn n) {}
  let at_ := (List.range 544).filter fun e => lanePoly l.loc (laneExp (1023 - e)) = 0
  if 15 < l.len || at_.length != l.len then none
  else
    let omega := (List.range 30).map fun k =>
      (List.range (k + 1)).foldl (fun acc i => acc ^^^ laneMul (l.loc.getD i 0) (syn.getD (k - i) 0)) 0
    let deriv := ((l.loc.drop 1).zipIdx).map fun (c, i) => if i % 2 = 0 then c else 0
    some (at_.map fun e =>
      let x := laneExp (1023 - e)
      (e, laneMul (laneExp e) (laneMul (lanePoly omega x) (laneInv (lanePoly deriv x)))))

/-- A received word's 5,140 data bits, and whether it had to be corrected; none where it cannot be decoded: up to 15 wrong
symbols are corrected. -/
def laneDecode (word : Nat) : Option (Nat × Bool) :=
  let rest := laneRest word
  if rest = 0 then some (word % 2 ^ 5140, false)
  else match laneErrors rest with
    | none => none
    | some es =>
      let fixed := es.foldl (fun w (e, y) => w ^^^ (y * 2 ^ (10 * (543 - e)))) word
      if laneRest fixed = 0 then some (fixed % 2 ^ 5140, true) else none

/-! ## Scrambler, header, levels -/

/-- 32 bits through x^58 + x^39 + 1: a bit is added to the scrambled bits 39 and 58 before it; `h` is the last 58 of them, the oldest
lowest. -/
def scrambleBits (h d : Nat) : Nat := d ^^^ (h % 2 ^ 32) ^^^ (h / 2 ^ 19 % 2 ^ 32)

/-- The history after 32 scrambled bits. -/
def scrambleNext (h sent : Nat) : Nat := (h + 2 ^ 58 * sent) / 2 ^ 32

/-- `k` runs of 32 bits scrambled: what is sent, and the history. -/
def scramble : Nat → Nat → Nat → Nat × Nat
  | 0, h, _ => (0, h)
  | k + 1, h, d =>
    let x := scrambleBits h (d % 2 ^ 32)
    let r := scramble k (scrambleNext h x) (d / 2 ^ 32)
    (x + 2 ^ 32 * r.1, r.2)

/-- `k` runs of 32 received bits descrambled: self-synchronising, for the history is what was received. -/
def descramble : Nat → Nat → Nat → Nat × Nat
  | 0, h, _ => (0, h)
  | k + 1, h, x =>
    let r := descramble k (scrambleNext h (x % 2 ^ 32)) (x / 2 ^ 32)
    (scrambleBits h (x % 2 ^ 32) + 2 ^ 32 * r.1, r.2)

/-- The codeword header: wavelength, count modulo 2^16, 7 lanes. -/
def laneHeader (w count : Nat) (seven : Bool) : Nat := w % 8 + 8 * (count % 2 ^ 16) + 2 ^ 19 * b2n seven

/-- The PAM4 level of a pair of bits, the first sent lowest: 00, 01, 11, 10 in sending order give 0, 1, 2, 3 (PRESUMED, log 39). -/
def gray (p : Nat) : Nat := [0, 3, 1, 2].getD p 0

def ungray (l : Nat) : Nat := [0, 2, 3, 1].getD l 0

/-- The levels of `k` pairs, two bits each, after the level `prev`; with 1/(1+D) precoding each level has the one before it taken off,
modulo 4 (PRESUMED, log 39). -/
def levels (precode : Bool) : Nat → Nat → Nat → Nat × Nat
  | 0, prev, _ => (0, prev)
  | k + 1, prev, b =>
    let g := gray (b % 4)
    let l := if precode then (g + 4 - prev) % 4 else g
    let r := levels precode k l (b / 4)
    (l + 4 * r.1, r.2)

/-- The bits of `k` received levels. -/
def unlevels (precode : Bool) : Nat → Nat → Nat → Nat × Nat
  | 0, prev, _ => (0, prev)
  | k + 1, prev, x =>
    let l := x % 4
    let r := unlevels precode k l (x / 4)
    (ungray (if precode then (l + prev) % 4 else l) + 4 * r.1, r.2)

/-! ## Chunks and lanes -/

/-- The wavelengths of a mask, in ascending order. -/
def lanesOf (mask : Nat) : List Nat := (List.range 8).filter fun w => bit mask w

/-- Flits after which chunks, lanes and codewords start level again: 20 on 8 lanes, 35 on 7. -/
def flitPeriod (n : Nat) : Nat := if n = 8 then 20 else 35

/-- Codewords of a lane in that period. -/
def wordPeriod (n : Nat) : Nat := if n = 8 then 1 else 2

/-- The 256-bit chunks of flits, in order. -/
def flitChunks (fs : List (List Byte)) : List Nat :=
  (fs.map fun f => (List.range 8).map fun k => fieldAt f (32 * k) 32).flatten

/-- The chunks of lane `k` of `n`: chunk c goes to lane c mod n. -/
def laneChunks (chunks : List Nat) (n k : Nat) : List Nat :=
  (chunks.zipIdx.filter fun c => c.2 % n == k).map (·.1)

/-- Chunks as one number, the first lowest. -/
def packChunks (l : List Nat) : Nat := l.foldr (fun c acc => c + 2 ^ 256 * acc) 0

/-- The codewords of one lane from its chunks: their levels, the scrambler's history and the last level. -/
def laneWords (precode seven : Bool) (w : Nat) : Nat → Nat → Nat → Nat → List Nat → List Nat × Nat × Nat
  | 0, _, h, prev, _ => ([], h, prev)
  | k + 1, count, h, prev, cs =>
    let (x, h1) := scramble 160 h (packChunks (cs.take 20))
    let (ls, p1) := levels precode 2720 prev (laneEncode (laneHeader w count seven + 2 ^ 20 * x))
    let (more, r) := laneWords precode seven w k (count + 1) h1 p1 (cs.drop 20)
    (ls :: more, r)

/-- A full period of flits coded: each lane's codewords, in sending order, and the coder after it. -/
def Coder.code (c : Coder) (precode : Bool) : List (Nat × Nat) × Coder :=
  let ws := lanesOf c.lanes
  let n := ws.length
  let chunks := flitChunks c.flits
  let (out, scr, lev) := ws.zipIdx.foldl (fun (acc : List (Nat × Nat) × SMap Nat × SMap Nat) (w, k) =>
    let (ls, h, p) := laneWords precode (n == 7) w (wordPeriod n) c.count (sget 0 c.scramble w) (sget 0 c.level w)
      (laneChunks chunks n k)
    (acc.1 ++ ls.map (fun l => (w, l)), sset 0 acc.2.1 w h, sset 0 acc.2.2 w p)) ([], c.scramble, c.level)
  (out, { c with flits := [], count := (c.count + wordPeriod n) % 2 ^ 16, scramble := scr, level := lev })

/-- A flit enters the coder; a period that it fills leaves as codewords. -/
def Coder.push (c : Coder) (precode : Bool) (flit : List Byte) : List (Nat × Nat) × Coder :=
  let c1 := { c with flits := c.flits ++ [flit], slots := c.slots + 1 }
  if flitPeriod (lanesOf c.lanes).length ≤ c1.flits.length then c1.code precode else ([], c1)

/-- Flit slots passed since the coder started: 20 chunks a lane in 64 core cycles (25.6 ns). -/
def Coder.due (c : Coder) (now : Nat) : Nat := (now - c.since) * (5 * (lanesOf c.lanes).length) / 128

/-- Whole periods of IDLE flits that nothing looked at pass: the count goes on, the scramblers' histories are open. -/
def Coder.skip (c : Coder) (periods seed : Nat) : Coder :=
  let n := (lanesOf c.lanes).length
  { c with
    slots := c.slots + periods * flitPeriod n
    count := (c.count + periods * wordPeriod n) % 2 ^ 16
    scramble := (lanesOf c.lanes).foldl (fun m w => sset 0 m w (seed / 2 ^ (58 * w) % 2 ^ 58)) [] }

/-! ## Codewords received -/

/-- The codewords in a run of levels, with the last level. -/
def wordsIn (precode : Bool) : Nat → Nat → Nat → List Nat × Nat
  | 0, prev, _ => ([], prev)
  | k + 1, prev, x =>
    let (b, p) := unlevels precode 2720 prev x
    let (more, r) := wordsIn precode k p (x / 4 ^ 2720)
    (b :: more, r)

/-- The chunks of a received codeword, none where it cannot be decoded; its descrambler's history either way. -/
def wordChunks (h word : Nat) (decoded : Option (Nat × Bool)) : List (Option Nat) × Nat :=
  match decoded with
  | none => (List.replicate 20 none, word / 2 ^ 5082 % 2 ^ 58)
  | some (d, _) =>
    let (x, h1) := descramble 160 h (d / 2 ^ 20)
    ((List.range 20).map fun k => some (bits x (256 * k) 256), h1)

/-- The flits of a period from its lanes' chunks: a flit with a chunk missing is empty and fails its CRC. -/
def flitsOf (lanes : List (List (Option Nat))) : List (List Byte) :=
  let n := lanes.length
  (List.range (flitPeriod n)).map fun f =>
    let cs := (List.range 8).map fun k => ((lanes.getD ((8 * f + k) % n) []).getD ((8 * f + k) / n) none)
    if cs.all (·.isSome) then (cs.map fun c => natBytes 32 (c.getD 0)).flatten else []

/-- Codeword counts that follow each other, on wavelength `w` of a link with or without all lanes: consistent headers (R366). -/
def headersAgree (w : Nat) (seven : Bool) : List Nat → Bool
  | [] => true
  | [d] => d % 2 ^ 20 == laneHeader w (bits d 3 16) seven
  | d :: e :: ds => d % 2 ^ 20 == laneHeader w (bits d 3 16) seven && bits e 3 16 == (bits d 3 16 + 1) % 2 ^ 16
    && headersAgree w seven (e :: ds)

/-- Lanes are deskewed: no two codeword counts, at one moment, are more than 64 apart. -/
def skewOk (counts : List Nat) : Bool :=
  counts.all fun a => counts.all fun b => (a + 2 ^ 16 - b) % 2 ^ 16 ≤ 64 || (b + 2 ^ 16 - a) % 2 ^ 16 ≤ 64

end Sys2Proof.Machine
end

