-- ==== Sys2Proof/Machine/Links.lean ====
section
/-! DEFINITION. Optical links, laser inlets and in-line pairs (R341-R364, R405, R471, R472). -/

namespace Sys2Proof.Machine

/-! ## What a link may do (R341, R347, R356, R405, R472) -/

/-- A link may transmit: its bit of RV_LINK_ALLOW and of the strap mask is set (R405). -/
def State.allowed (s : State) (n : Nat) : Bool :=
  bit (s.get64 R.RV_LINK_ALLOW_LO) n && bit (s.get F.RV_STRAPS) (n / 8)

def State.dark (s : State) (n : Nat) : Nat := s.get (F.LK_LANE_DARK n)

/-- The wavelengths not dark, in ascending order. -/
def freeWaves (dark : Nat) : List Nat := (List.range 8).filter fun w => !bit dark w

def waveMask (ws : List Nat) : Nat := (ws.map fun w => 2 ^ w).sum

/-- The rate code and the wavelengths that a link uses (R356, R472): the rate of LINK_UP's code; none with too few left. -/
def State.chooseRate (s : State) (n : Nat) : Option (Nat × Nat) :=
  let free := freeWaves (s.dark n)
  let k := free.length
  if s.get (F.LK_CTRL_PERS n) = 1 then
    if k = 8 then some (3, 255) else if k = 7 then some (4, waveMask free) else none
  else
    let rate := s.get (F.LK_CTRL_RATE n)
    if rate = 0 && k = 8 then some (0, 255)
    else if rate ≤ 1 && 4 ≤ k then some (1, waveMask (free.take 4))
    else if 2 ≤ k then some (2, waveMask (free.take 2)) else none

def inletOf (n : Nat) : Nat := n / 4

/-- Nothing keeps a link that is enabled and allowed from training. -/
def State.trainable (s : State) (n : Nat) : Bool :=
  let l := s.link n
  s.on (F.LK_CTRL_ENABLE n) && s.allowed n && !s.on (F.LK_STATUS_CLAMPED n) && l.relight.isNone && !s.on (F.LK_STATUS_LOS n)
    && !s.on (F.LK_INLET_LOW (inletOf n)) && (24 ≤ n || s.joined n) && !l.dead && l.settleFrom.isNone && l.recalFrom.isNone
    && (s.chooseRate n).isSome

/-- The STATE of a link that is not UP: PARKED, SHUTTERED, LOCKING or DOWN. -/
def State.restState (s : State) (n : Nat) : Nat :=
  if !s.on (F.LK_CTRL_ENABLE n) || !s.allowed n then 5
  else if s.on (F.LK_STATUS_CLAMPED n) || (s.link n).relight.isSome then 6
  else if s.trainable n then 1 else 0

/-- A link that is not UP takes the state its conditions give it; one that trains goes on training. -/
def State.evalLink (s : State) (n : Nat) : State :=
  let st := s.get (F.LK_STATUS_STATE n)
  let rest := s.restState n
  if st = 4 || (rest = 1 && 1 ≤ st && st ≤ 3) then s
  else
    let use := if rest = 1 then (match s.chooseRate n with
      | some (_, m) => m
      | none => 0) else 0
    let s1 := (s.put (F.LK_STATUS_STATE n) rest).put (F.LK_LANE_IN_USE n) use
    s1.modLink n fun l => { l with
      locked := 0, coder := {}, lanesIn := [], use := if rest = 1 then use else if rest = 5 then 0 else l.use }

/-! ## LINK_UP and LINK_DOWN (R342, R210, R211, R361) -/

/-- BYPASS_CHANGE (R90). -/
def State.bypassChange (s : State) (p st cause : Nat) : State :=
  s.raise 0x0607 (payload 16 [(0, 1, p), (1, 1, st), (2, 1, cause)])

/-- A pair in TRAINING whose links are both UP is INLINE. -/
def State.pairUp (s : State) (p : Nat) : State :=
  if s.get (F.LK_PAIR_STATUS_STATE p) = 2 && s.linkUp (2 * p) && s.linkUp (2 * p + 1) then
    (s.put (F.LK_PAIR_STATUS_STATE p) 3).bypassChange p 1 0
  else s

/-- A link reaches UP at the rate in use. -/
def State.linkComesUp (s : State) (n : Nat) : State :=
  match s.chooseRate n with
  | none => s
  | some (code, mask) =>
    let s1 := ((s.put (F.LK_STATUS_STATE n) 4).put (F.LK_STATUS_RATE_NOW n) code).put (F.LK_LANE_IN_USE n) mask
    let s2 := s1.modLink n fun l => { l with use := mask, been := true, going := none }
    let s3 := s2.raise 0x0601 (payload 16 [(0, 1, n), (1, 1, s.get (F.LK_CTRL_PERS n)), (2, 1, code)])
    if n < 24 then s3.pairUp (n / 2) else s3

/-- The frame a transmitter sends when its link goes ends with an error, and its space is released. -/
def State.cutTx (s : State) (n : Nat) : State :=
  match s.tx n with
  | none => s
  | some t =>
    let bs := match t.entry.own with
      | some b => b
      | none => match s.frame? t.entry.src t.entry.frame with
        | some f => f.bytes
        | none => []
    (s.errorEnd n bs).releaseEntry t.entry

/-- What waits on the links when link `n` is lost: of messages that came in on it the unfinished ones are dropped, the others go on
without a buffer to free (log 19). -/
def State.orphanStreams (s : State) (n : Nat) : State :=
  { s with luapo := s.luapo.map fun (k, l) =>
      (k, { l with out := l.out.foldl (fun acc (v, ss) => sset [] acc v ((ss.filter fun x => x.ended || x.src == 0 || (x.src - 1) / 4 != n).map
        fun x => if x.src != 0 && (x.src - 1) / 4 = n then { x with src := 0 } else x)) [] }) }

/-- The buffers of other links' flits that wait to go out on a lost link are freed (log 19). -/
def State.freeWaiting (s : State) (n : Nat) : State :=
  let waiting := ((sget {} s.luapo n).out.map fun e => (e.2.map fun x => (x.src, x.flits.length))).flatten
  waiting.foldl (fun (t : State) (src, k) =>
    if src = 0 then t
    else { t with luapo := smod {} t.luapo ((src - 1) / 4) fun l => { l with freed := smod 0 l.freed ((src - 1) % 4) (· + k) } }) s

/-- A Luapo link loses its sequence numbers, its replay buffer, its credit and its messages under way (log 19). -/
def State.clearLuapo (s : State) (n : Nat) : State :=
  let s1 := s.freeWaiting n
  { s1 with luapo := sset {} s1.luapo n {} }.orphanStreams n

/-- A link that is UP leaves UP: its state, its frames, its event, its lost Luapo traffic (log 19). -/
def State.linkDown (s : State) (n reason : Nat) : State :=
  if s.get (F.LK_STATUS_STATE n) != 4 then s.evalLink n
  else
    let s1 := ((s.put (F.LK_STATUS_STATE n) 0).put (F.LK_STATUS_RATE_NOW n) 7).put (F.LK_LANE_IN_USE n) 0
    let s2 := (s1.modLink n fun l => { l with downAt := s.clk.cycle, going := none }).evalLink n
    let s3 := s2.clearLuapo n
    let s4 := s3.raise 0x0602 (payload 16 [(0, 1, n), (1, 1, reason)])
    if 24 ≤ n then s4
    else
      let s5 := ((s4.dropLink n).cutTx n).rxCut n
      { s5 with
        intake := { s5.intake with verdictQ := sset [] s5.intake.verdictQ n [] }
        egress := { s5.egress with aside := sset [] s5.egress.aside n [] } }

/-- A link on its way down goes down now. -/
def State.settleGoing (s : State) (n : Nat) : State :=
  match (s.link n).going with
  | some r => s.linkDown n r
  | none => s

/-- LINK_UP of an Ethernet link: its partner transmits a matching PCS on the wavelengths and at the rate in use (R472). A Luapo
link comes up through INIT. -/
def execLinkUp (link : Fin 40) (s : State) : Res :=
  whenLive s fun s =>
    if s.on (F.LK_CTRL_PERS link) || s.get (F.LK_STATUS_STATE link) != 1 || !s.trainable link then s else s.linkComesUp link

/-- LINK_DOWN: a link that its pair's move or an earlier step sends down, or that has lost lock (reason 2). -/
def execLinkDown (link : Fin 40) (s : State) : Res :=
  whenLive s fun s =>
    if s.get (F.LK_STATUS_STATE link) != 4 then s
    else s.linkDown link ((s.link link).going.getD 2)

/-! ## Enable, park, LINK_ALLOW (R341, R405) -/

/-- A link parks: DOWN with a reason if it was up; its dark set clears (R355). -/
def State.parkLink (s : State) (n : Nat) : State :=
  let s1 := s.putB (F.LK_CTRL_ENABLE n) false
  let s2 := s1.linkDown n 3
  ((s2.put (F.LK_LANE_DARK n) 0).modLink n fun l =>
    { l with been := false, dead := false, settleFrom := none, use := 0 }).evalLink n

/-- A link that is enabled while it is not allowed trips valve 7. -/
def State.barLink (s : State) (n : Nat) : State := (s.linkDown n 3).trip 7 n 0

/-- ENABLE set. -/
def State.enableLink (s : State) (n : Nat) : State :=
  if s.on (F.LK_CTRL_ENABLE n) then s
  else
    let s1 := (s.putB (F.LK_CTRL_ENABLE n) true).modLink n fun l => { l with been := false }
    if s1.allowed n then s1.evalLink n else s1.barLink n

/-- ENABLE cleared. -/
def State.disableLink (s : State) (n : Nat) : State := if s.on (F.LK_CTRL_ENABLE n) then s.parkLink n else s

def execLinkEnable (link : Fin 40) (s : State) : Res := whenHost s (R.LK_CTRL link) fun s => s.enableLink link
def execLinkDisable (link : Fin 40) (s : State) : Res := whenHost s (R.LK_CTRL link) fun s => s.disableLink link
def execPark (link : Fin 40) (s : State) : Res := whenWritable s (R.LK_CTRL link) fun s => s.disableLink link

/-- RV_LINK_ALLOW written: links no longer allowed park with VALVE_TRIP; links allowed again come up. -/
def State.setAllow (s : State) (v : Nat) : State :=
  if s.on F.RV_LOCK_LOCK then s
  else
    let s1 := s.put64 R.RV_LINK_ALLOW_LO (v % 2 ^ 40)
    (List.range 40).foldl (fun t n =>
      if s.allowed n == s1.allowed n then t
      else if s1.allowed n then t.evalLink n
      else if s.on (F.LK_CTRL_ENABLE n) then State.barLink t n else t) s1

/-! ## Light and inlets (R344, R347, R348) -/

/-- LOSS_OF_LIGHT: LOS asserts, an APR-enabled link drives its inlet's APR_N, an UP link goes down. -/
def State.loseLight (s : State) (n power : Nat) : State :=
  let i := inletOf n
  let s1 := (s.putB (F.LK_STATUS_LOS n) true).put (F.LK_TOTAL_RX n) power
  let s2 := s1.linkDown n 1
  if s.on (F.LK_CTRL_APR_EN n) && !s.on (F.LK_INLET_APR i) then
    (s2.putB (F.LK_INLET_APR i) true).raise 0x0606 (payload 16 [(0, 1, i), (1, 1, n)])
  else s2

def execLossOfLight (link : Fin 40) (power : BitVec 16) (s : State) : Res :=
  whenLive s fun s => if s.on (F.LK_STATUS_LOS link) then s else s.loseLight link power.toNat

/-- LOS_CLEAR: light is back. A link whose pair is in bypass receives none (R360). -/
def execLosClear (link : Fin 40) (power : BitVec 16) (s : State) : Res :=
  whenLive s fun s =>
    if !s.on (F.LK_STATUS_LOS link) || (link < 24 && !s.joined link) then s
    else
      let s1 := (s.putB (F.LK_STATUS_LOS link) false).put (F.LK_TOTAL_RX link) power.toNat
      (if s.on (F.LK_CTRL_APR_EN link) then { s1 with losClear := sset 0 s1.losClear (inletOf link) s.clk.cycle } else s1).evalLink link

/-- APR_RELEASE: 10 ms after every APR-enabled link of the inlet has cleared LOS. -/
def State.releaseApr (s : State) (i : Nat) : State :=
  if !s.on (F.LK_INLET_APR i)
    || (List.range 4).any fun k => s.on (F.LK_CTRL_APR_EN (4 * i + k)) && s.on (F.LK_STATUS_LOS (4 * i + k)) then s
  else match s.reach (sget 0 s.losClear i + 25000000) with
    | none => s
    | some s1 => s1.putB (F.LK_INLET_APR i) false

def execAprRelease (inlet : Fin 10) (s : State) : Res := whenLive s fun s => s.releaseApr inlet

/-- The power of an inlet as measured; LOW below +19.0 dBm, shown by each link it feeds. -/
def State.setInlet (s : State) (i power : Nat) : State :=
  let low := sInt 16 power < 1900
  (List.range 4).foldl (fun t k => State.putB t (F.LK_STATUS_INLET_LOW (4 * i + k)) low)
    ((s.put (F.LK_INLET_POWER i) power).putB (F.LK_INLET_LOW i) low)

def execInletLow (inlet : Fin 10) (power : BitVec 16) (s : State) : Res :=
  whenLive s fun s =>
    if 1900 ≤ sInt 16 power.toNat then s
    else (List.range 4).foldl (fun t k => State.linkDown t (4 * inlet + k) 2) (s.setInlet inlet power.toNat)

def execInletPowerRestored (inlet : Fin 10) (power : BitVec 16) (s : State) : Res :=
  whenLive s fun s =>
    if sInt 16 power.toNat < 1900 then s
    else (List.range 4).foldl (fun t k => State.evalLink t (4 * inlet + k)) (s.setInlet inlet power.toNat)

/-! ## Rings (R351, R352) -/

/-- RING_CAL_FAIL and its mask (R352). -/
def State.ringFails (s : State) (n w : Nat) (receive : Bool) : State :=
  (s.putB ⟨R.LK_LANE n, 8 + w, 1⟩ true).raise 0x0604 (payload 16 [(0, 1, n), (1, 1, w), (2, 1, b2n receive)])

/-- LANE_LOST (R90). -/
def State.laneLost (s : State) (n w code : Nat) : State :=
  s.raise 0x0603 (payload 16 [(0, 1, n), (1, 1, w), (2, 1, code)])

/-- A wavelength goes dark: the link settles, or a Luapo link goes on with 7 lanes (R355, R356). -/
def State.darken (s : State) (n w : Nat) : State :=
  let inUse := bit (s.link n).use w
  let s1 := (s.putB ⟨R.LK_LANE n, w, 1⟩ true).modLink n fun l => { l with last := w }
  if !inUse then s1
  else if s.linkUp n && s.on (F.LK_CTRL_PERS n) then
    match s1.chooseRate n with
    | some (code, mask) =>
      (((s1.put (F.LK_STATUS_RATE_NOW n) code).put (F.LK_LANE_IN_USE n) mask).modLink n fun l => { l with use := mask }).laneLost n w code
    | none => (s1.modLink n fun l => { l with dead := true }).linkDown n 2
  else (s1.modLink n fun l => { l with settleFrom := some s.clk.cycle }).linkDown n 2

/-- A wavelength fails: by its signal, its codewords, or a ring (R352, R355, R472). -/
def State.laneFail (s : State) (n w : Nat) (f : LaneFault) : State :=
  let l := s.link n
  let isDark := bit (s.dark n) w
  let inUse := bit l.use w
  match f with
  | .ring rx =>
    let s1 := s.ringFails n w rx
    if isDark then s1 else s1.darken n w
  | .codeword => if l.been && inUse && !isDark then s.darken n w else s
  | .signal =>
    if !inUse || s.on (F.LK_STATUS_LOS n) then s
    else if isDark then
      (if l.settleFrom.isSome then s.modLink n fun l => { l with settleFrom := some s.clk.cycle } else s)
    else s.darken n w

def execLaneFail (link : Fin 40) (wavelength : Fin 8) (fault : LaneFault) (s : State) : Res :=
  whenLive s fun s => s.laneFail link wavelength fault

/-- LANE_SETTLE_EXPIRY: 2 ms without change; the link retrains at the rate its wavelengths carry, or stays down (R356). -/
def State.settleLink (s : State) (n : Nat) : State :=
  match (s.link n).settleFrom with
  | none => s
  | some c0 => match s.reach (c0 + 5000000) with
    | none => s
    | some s1 =>
      let s2 := s1.modLink n fun l => { l with settleFrom := none }
      match s2.chooseRate n with
      | none => (s2.modLink n fun l => { l with dead := true }).evalLink n
      | some (code, _) => (s2.laneLost n (s.link n).last code).evalLink n

def execLaneSettleExpiry (link : Fin 40) (s : State) : Res := whenLive s fun s => s.settleLink link

/-- The heater code of a ring, and its hops. -/
def ringCode (n w : Nat) (receive : Bool) : Fld := if receive then F.LK_RING_RX_CODE n w else F.LK_RING_TX_CODE n w
def ringHops (n w : Nat) (receive : Bool) : Fld := if receive then F.LK_RING_HOPS n w else F.LK_RING_TX_HOPS n w

/-- RING_HOP: the ring finds its line in the next order at a lower code, or the lane fails (R351). -/
def execRingHop (link : Fin 40) (wavelength : Fin 8) (receive : Bool) (found : Option (Fin 4096)) (s : State) : Res :=
  whenLive s fun s =>
    let s1 := s.bumpSat (ringHops link wavelength receive)
    match found with
    | some c => s1.put (ringCode link wavelength receive) c
    | none => s1.laneFail link wavelength (.ring receive)

/-- RECAL: the link goes down with reason 3 and its rings are calibrated anew (R352). -/
def State.recalLink (s : State) (n : Nat) : State :=
  (s.modLink n fun l => { l with recalFrom := some s.clk.cycle, settleFrom := none, been := false }).linkDown n 3

def execRecal (link : Fin 40) (s : State) : Res := whenWritable s (R.LK_CTRL link) fun s => s.recalLink link

/-- The heater codes of a link's rings: transmit side, then receive side. -/
def State.setCodes (s : State) (n : Nat) (codes : List Nat) : State :=
  (List.range 8).foldl (fun t w =>
    (State.put t (ringCode n w false) (codes.getD w 0)).put (ringCode n w true) (codes.getD (8 + w) 0)) s

/-- RECAL_DONE: the masks clear, rings that failed are reported, the link comes up again if it is enabled. -/
def State.recalDone (s : State) (n : Nat) (codes : List Nat) (fails : List (Fin 8 × Bool)) : State :=
  match (s.link n).recalFrom with
  | none => s
  | some _ =>
    let s1 := (((s.put (F.LK_LANE_DARK n) 0).put (F.LK_LANE_CAL_FAIL n) 0).setCodes n codes).modLink n fun l =>
      { l with recalFrom := none, dead := false, use := 0 }
    (fails.foldl (fun t x => State.laneFail t n x.1 (.ring x.2)) s1).evalLink n

def execRecalDone (link : Fin 40) (codes : List Nat) (fails : List (Fin 8 × Bool)) (s : State) : Res :=
  whenLive s fun s => s.recalDone link codes fails

/-! ## The output clamp (R353, R354) -/

/-- OPTICAL_CLAMP_TRIP: a link that transmits is shuttered. -/
def State.clampTrip (s : State) (n power : Nat) : State :=
  if s.restState n = 5 then s
  else
    let s1 := (s.putB (F.LK_STATUS_CLAMPED n) true).modLink n fun l => { l with relight := none }
    let s2 := s1.raise 0x0605 (payload 16 [(0, 1, n), (4, 4, uInt 32 (sInt 16 power))])
    (s2.trip 0 n 0).linkDown n 2

def execOpticalClampTrip (link : Fin 40) (power : BitVec 16) (s : State) : Res :=
  whenLive s fun s => s.clampTrip link power.toNat

/-- CLAMP_CLR: the first feed ring is re-enabled, the others follow 1 ms apart. -/
def State.clearClamp (s : State) (n : Nat) : State :=
  if s.on (F.LK_STATUS_CLAMPED n) then
    (s.putB (F.LK_STATUS_CLAMPED n) false).modLink n fun l => { l with relight := some (1, s.clk.cycle) }
  else s

def execClampClr (link : Fin 40) (s : State) : Res := whenHost s (R.LK_CTRL link) fun s => s.clearClamp link

/-- CLAMP_RELIGHT_STEP: the next feed ring, 1 ms after the one before it. -/
def State.relightStep (s : State) (n : Nat) : State :=
  match (s.link n).relight with
  | none => s
  | some (w, c0) => match s.reach (c0 + 2500000) with
    | none => s
    | some s1 => (s1.modLink n fun l => { l with relight := if w < 7 then some (w + 1, s1.clk.cycle) else none }).evalLink n

def execClampRelightStep (link : Fin 40) (s : State) : Res := whenLive s fun s => s.relightStep link

/-! ## In-line pairs (R360-R364, R471) -/

/-- What ENGAGE asks of a pair: in-line operation (TO_INLINE), direct attachment (TO_DIRECT), or nothing. -/
def State.engageTarget (s : State) (p : Nat) : Option Nat :=
  let a := 2 * p
  let b := 2 * p + 1
  let m1 (n : Nat) : Bool := s.ethernet n && s.mode n == 1
  let ok (n : Nat) : Bool := s.on (F.LK_CTRL_ENABLE n) && s.allowed n && s.get (F.LK_STATUS_STATE n) != 6
  if s.phase != .ready || s.frozen || s.get (F.LK_PAIR_STATUS_STATE p) != 0 || s.on (F.LK_PAIR_STATUS_STUCK p) then none
  else if m1 a && m1 b then
    (if ok a && ok b && s.get (F.LK_CTRL_RATE a) = s.get (F.LK_CTRL_RATE b) then some 1 else none)
  else if m1 a || m1 b then none else some 6

/-- ENGAGE: the switches start their move, or REFUSED. -/
def State.engage (s : State) (p : Nat) : State :=
  match s.engageTarget p with
  | some st => (s.put (F.LK_PAIR_STATUS_STATE p) st).modPair p fun x =>
      { x with moveFrom := s.clk.cycle, repeated := false, reverse := none }
  | none => s.putB (F.LK_PAIR_STATUS_REFUSED p) true

/-- The links of a pair that were sent down go down. -/
def State.settlePair (s : State) (p : Nat) : State := (s.settleGoing (2 * p)).settleGoing (2 * p + 1)

/-- RELEASE: toward bypass, cause 0. -/
def State.releasePair (s : State) (p : Nat) : State := (s.leavePair p 0 3).settlePair p

def execEngage (pair : Fin 12) (s : State) : Res := whenHost s (R.LK_PAIR_CTRL pair) fun s => s.engage pair
def execRelease (pair : Fin 12) (s : State) : Res := whenHost s (R.LK_PAIR_CTRL pair) fun s => s.releasePair pair

/-- BYPASS_MOVE_DONE: SENSE shows the new position. -/
def State.moveDone (s : State) (p : Nat) : State :=
  let st := s.get (F.LK_PAIR_STATUS_STATE p)
  if st = 4 then
    ((((s.settlePair p).putB (F.LK_PAIR_STATUS_SENSE p) false).put (F.LK_PAIR_STATUS_STATE p) 0).bypassChange p 0
      (s.get (F.LK_PAIR_STATUS_CAUSE p)))
  else if st = 1 || st = 6 then
    let s1 := s.putB (F.LK_PAIR_STATUS_SENSE p) true
    match (s.pair p).reverse with
    | some (cause, reason) => (s1.toBypass p cause reason).settlePair p
    | none =>
      let s2 := if st = 1 then (s1.put (F.LK_PAIR_STATUS_STATE p) 2).modPair p fun x => { x with trainFrom := s.clk.cycle }
        else (s1.put (F.LK_PAIR_STATUS_STATE p) 5).bypassChange p 2 0
      (s2.evalLink (2 * p)).evalLink (2 * p + 1)
  else s

def execBypassMoveDone (pair : Fin 12) (s : State) : Res :=
  .next (if s.frozen || s.phase == .reset then s else s.moveDone pair)

/-- PAIR_TRAINING_TIMEOUT: TIMEOUT ms in TRAINING. -/
def State.trainTimeout (s : State) (p : Nat) : State :=
  if s.get (F.LK_PAIR_STATUS_STATE p) != 2 then s
  else match s.reach ((s.pair p).trainFrom + 2500000 * s.get (F.LK_PAIR_CTRL_TIMEOUT p)) with
    | none => s
    | some s1 => (s1.leavePair p 0 1).settlePair p

def execPairTrainingTimeout (pair : Fin 12) (s : State) : Res := whenLive s fun s => s.trainTimeout pair

/-- AUTO_REVERT: a link of an INLINE pair has been down for 1 ms. -/
def State.autoRevert (s : State) (p : Nat) : State :=
  let down := [2 * p, 2 * p + 1].filter fun n => !s.linkUp n
  if s.get (F.LK_PAIR_STATUS_STATE p) != 3 || !s.on (F.LK_PAIR_CTRL_AUTO_REVERT p) then s
  else match down.map fun n => (s.link n).downAt with
    | [] => s
    | c :: cs => match s.reach (cs.foldl min c + 2500000) with
      | none => s
      | some s1 => (s1.leavePair p 0 1).settlePair p

def execAutoRevert (pair : Fin 12) (s : State) : Res := whenLive s fun s => s.autoRevert pair

/-- BYPASS_SENSE_TIMEOUT: 200 µs without confirmation; the pulse is repeated once, then the pair is STUCK (R364). A pair stuck
on its way in-line goes on to bypass with its valve's trip. -/
def State.senseTimeout (s : State) (p : Nat) : State :=
  let st := s.get (F.LK_PAIR_STATUS_STATE p)
  if !(st = 1 || st = 4 || st = 6) || s.on (F.LK_PAIR_STATUS_STUCK p) then s
  else match s.reach ((s.pair p).moveFrom + 500000) with
    | none => s
    | some s1 =>
      if !(s.pair p).repeated then s1.modPair p fun x => { x with moveFrom := s1.clk.cycle, repeated := true }
      else
        let s2 := (s1.putB (F.LK_PAIR_STATUS_STUCK p) true).trip 1 (2 * p) (if st = 4 then 0 else 1)
        match (s2.pair p).reverse with
        | some (cause, reason) => s2.toBypass p cause reason
        | none => s2

def execBypassSenseTimeout (pair : Fin 12) (s : State) : Res :=
  .next (if s.frozen || s.phase == .reset then s else s.senseTimeout pair)

/-- The lanes of a link are deskewed at a moment: their codeword counts, run on since they locked, are at most 64 apart (R366). -/
def Link.deskewed (l : Link) (now : Nat) : Bool :=
  skewOk ((lanesOf l.use).map fun w =>
    let x := sget {} l.lanesIn w
    (x.count + (now - x.locked) / 64) % 2 ^ 16)

/-- LANE_LOCK: the last 3 codewords of a lane of a training Luapo link; if they decode with consistent headers the lane locks, and
with all lanes locked and deskewed the link goes to INIT (R366, R375). -/
def State.laneLock (s : State) (n w levels : Nat) : State :=
  let st := s.get (F.LK_STATUS_STATE n)
  let l := s.link n
  if !s.on (F.LK_CTRL_PERS n) || !(st = 1 || st = 2) || !bit l.use w || !s.trainable n then s
  else
    let (ws, last) := wordsIn (s.on (F.LK_CTRL_PRECODE n)) 3 (sget {} l.lanesIn w).level levels
    let ds := ws.map laneDecode
    let data := ds.filterMap fun d => d.map (·.1)
    let s0 := s.countWords n ((ds.map fun d => match d with
      | none => [false]
      | some (_, c) => if c then [true] else []).flatten)
    if data.length != 3 || !headersAgree w (l.use != 255) data then s0
    else
      let d := data.getD 2 0
      let x : LaneIn := { scramble := d / 2 ^ 5082, level := last, count := bits d 3 16, locked := s.clk.cycle }
      let l1 := { l with locked := l.locked ||| 2 ^ w, lanesIn := sset {} l.lanesIn w x }
      let s1 := s0.modLink n fun _ => l1
      if l1.locked != l.use then s1
      else s1.put (F.LK_STATUS_STATE n) (if l1.deskewed s.clk.cycle then 3 else 2)

end Sys2Proof.Machine
end

