-- ==== Sys2Proof/Machine/Servo.lean ====
section
/-! DEFINITION. The timebase servo and the stroke registers (R17-R26). -/

namespace Sys2Proof.Machine

def State.servo (s : State) : Nat := s.get F.STK_STATUS_STATE
def State.source (s : State) : Nat := s.get F.STK_CTRL_SOURCE

/-- The last offset as events carry it: signed ns, 64 bits. -/
def State.offsetField (s : State) : Nat := uInt 64 s.clk.lastOffset

/-- TIMEBASE_LOCKED. -/
def State.lockEvent (s : State) : State := s.raise 0x0102 (payload 16 [(8, 8, s.offsetField)])

/-- Engaged pairs latch bypass with cause 2, and TIMEBASE_LOST is raised (R22, R26). -/
def State.timebaseLost (s : State) (reason : Nat) : State :=
  (s.latchAll 2).raise 0x0101 (payload 16 [(0, 1, reason), (8, 8, s.offsetField)])

/-- The capture bank of the stroke is flagged: the timebase is not LOCKED. -/
def State.unlockBank (s : State) : State := s.flagBank fun b => { b with unlocked := true }

/-- The servo enters LOST; strokes go on, undisciplined (R22). -/
def State.loseServo (s : State) (reason : Nat) : State :=
  let s1 := (s.put F.STK_STATUS_STATE 3).unlockBank
  { s1 with clk := { s1.clk with slew := 0 } }.timebaseLost reason

/-- The expected interval of the source in ticks: for markers the active period as it stands, else what the last measurement
gave (R21). -/
def State.expected (s : State) : Nat := if s.source = 2 then s.period else s.clk.interval

/-- A measurement: the count should be `target` now, and the source's expected interval is `interval` ticks. While ACQUIRING the
count steps to it; later it is slewed, or the servo is lost (R20-R22). DESIGN CHOICE (log 33): R21 judges measurements against
STK_STEP_LIMIT once strokes run; one beyond it that comes to a LOCKED or HOLDOVER servo before strokes run is no valid
measurement and changes nothing but the last offset. -/
def State.measure (s : State) (target interval : Nat) : State :=
  let st := s.servo
  let off : Int := (s.clk.time : Int) - target
  let s0 := { s with clk := { s.clk with lastOffset := off * 2 / 5, interval := interval } }
  let good (t : State) : State := { t with clk := { t.clk with lastValid := some t.clk.real } }
  if !s.on F.STK_CTRL_ENABLE || st = 4 then s
  else if st = 0 then
    ((good { s0 with clk := { s0.clk with time := target, slew := 0, armed := true } }).put F.STK_STATUS_STATE 1).lockEvent
  else if 5 * s.get F.STK_STEP_LIMIT_NS < 2 * off.natAbs then
    (if st = 3 then { s0 with clk := { s0.clk with stepLost := true } }
     else if s.clk.strokes then s0.loseServo 2 else s0)
  else if st = 3 && s.clk.stepLost then s0
  else
    let s1 := (good { s0 with clk := { s0.clk with slew := -off } }).put F.STK_STATUS_STATE 1
    if st = 3 then s1.lockEvent else s1

/-- A Sync interval of 2^log seconds in ticks. -/
def syncInterval (log : Int) : Nat :=
  if 0 ≤ log then 2500000000 * 2 ^ log.toNat else 2500000000 / 2 ^ (-log).toNat

/-- PTP_MEASUREMENT: PTP time `ptpNs` at this cycle, as the Sync and the delay measurement give it (R18, R21), over a link that
receives: none comes from a pair in bypass (R3). -/
def execPtpMeasurement (ptpNs : Nat) (logInterval : Int) (s : State) : Res :=
  whenLive s fun s =>
    if s.source = 0 && s.lit (s.get F.STK_CTRL_PTP_LINK) then s.measure (ptpNs * 5 / 2) (syncInterval logInterval) else s

/-- PPS_EDGE: a rising edge of PPS_IN (R18, R464). -/
def execPpsEdge (s : State) : Res :=
  whenClocked s fun s =>
    if s.source = 1 then s.measure (2500000000 * s.get F.STK_TOD_SEC_SEC) 2500000000 else s

/-- When STK_HOLDOVER ms have passed since the last valid measurement, in running time (R21). -/
def State.holdoverEnd (s : State) (c0 : Nat) : Nat := c0 + 2500000 * s.get F.STK_HOLDOVER_MS

/-- HOLDOVER_ENTRY: 1.5 expected intervals without a valid measurement, STK_HOLDOVER not yet over; where it ends first, the servo
goes from LOCKED to LOST (R21). -/
def State.enterHoldover (s : State) : State :=
  match s.clk.lastValid with
  | none => s
  | some c0 =>
    let due := c0 + 3 * s.expected / 2
    if s.servo != 1 || s.holdoverEnd c0 ≤ max due s.clk.real then s
    else match s.reachReal due with
      | none => s
      | some s1 => (s1.put F.STK_STATUS_STATE 2).unlockBank

def execHoldoverEntry (s : State) : Res := whenClocked s State.enterHoldover

/-- HOLDOVER_EXPIRY: STK_HOLDOVER ms since the last valid measurement (R21, R22). -/
def State.expireHoldover (s : State) : State :=
  match s.clk.lastValid with
  | none => s
  | some c0 =>
    if s.servo != 1 && s.servo != 2 then s
    else match s.reachReal (s.holdoverEnd c0) with
      | none => s
      | some s1 => s1.loseServo 1

def execHoldoverExpiry (s : State) : Res := whenClocked s State.expireHoldover

/-- STK_CTRL.ENABLE set: a new acquisition, or under FREE the start of strokes at count 0 (R18, R21, R469). -/
def State.enableStrokes (s : State) : State :=
  if s.on F.STK_CTRL_ENABLE then s
  else
    let s1 := s.putB F.STK_CTRL_ENABLE true
    let free := s.source = 3
    let s2 := { s1 with clk := { s1.clk with
      strokes := false, armed := free, time := if free then 0 else s1.clk.time, slew := 0, lastValid := none, stepLost := false
      marker := none, cleared := false, frac := 0 } }
    s2.put F.STK_STATUS_STATE (if free then 4 else 0)

def execStkEnableSet (s : State) : Res := whenHost s R.STK_CTRL State.enableStrokes

/-- STK_STATUS.STATE while ENABLE is 0: FREE when SOURCE is FREE, else LOST after a clearing that stopped strokes, else ACQUIRING
(R21, R26). -/
def State.showIdle (s : State) : State :=
  if s.on F.STK_CTRL_ENABLE then s
  else s.put F.STK_STATUS_STATE (if s.source = 3 then 4 else if s.clk.cleared then 3 else 0)

/-- STK_CTRL.ENABLE cleared: strokes stop at once, pairs latch bypass, TIMEBASE_LOST with reason 3 (R26). -/
def State.disableStrokes (s : State) : State :=
  if !s.on F.STK_CTRL_ENABLE then s
  else
    let ran := s.clk.strokes
    let s1 := s.putB F.STK_CTRL_ENABLE false
    let s2 := { s1 with
      clk := { s1.clk with strokes := false, armed := false, slew := 0, lastValid := none, cleared := ran }
      intake := { s1.intake with windowFrom := s1.clk.cycle } }.showIdle
    if ran then s2.stopCapture.timebaseLost 3 else s2

def execStkEnableClear (s : State) : Res := whenHost s R.STK_CTRL State.disableStrokes

/-- A write of STK_PERIOD: 5,000 to 2,500,000,000, or discarded with PERIOD_REJECT (R24). -/
def State.writePeriod (s : State) (v : Nat) : State :=
  if v < 5000 || 2500000000 < v then s.putB F.STK_STATUS_PERIOD_REJECT true
  else (s.put F.STK_PERIOD_PERIOD v).putB F.STK_STATUS_PERIOD_PENDING true

def execStkPeriodWrite (period : Word) (s : State) : Res :=
  whenWritable s R.STK_PERIOD fun s => s.writePeriod period.toNat

end Sys2Proof.Machine
end

