-- ==== Sys2Proof/Machine/Slh.lean ====
section
/-! DEFINITION. SLH-DSA of FIPS 205 over SHAKE256, pure mode with an empty context string: the signatures of firmware modules,
life-cycle tokens and attestation reports (R382, R397, R400, R401). The algorithms are the standard's (PRESUMED, log 21). -/

namespace Sys2Proof.Machine

/-- A parameter set: n, total height h, layers d, FORS height a and trees k, bytes m of the message digest; lg_w is 4. -/
structure SlhPar where
  n : Nat
  h : Nat
  d : Nat
  a : Nat
  k : Nat
  m : Nat
  deriving DecidableEq, Repr

/-- SLH-DSA-SHAKE-256s and SLH-DSA-SHAKE-128s. -/
def slh256s : SlhPar := ⟨32, 64, 8, 14, 22, 47⟩
def slh128s : SlhPar := ⟨16, 63, 7, 12, 14, 30⟩

/-- Height of one layer's trees, chains of one key, bytes of a signature. -/
def SlhPar.hp (p : SlhPar) : Nat := p.h / p.d
def SlhPar.len (p : SlhPar) : Nat := 2 * p.n + 3
def SlhPar.sigBytes (p : SlhPar) : Nat := (1 + p.k * (1 + p.a) + p.h + p.d * p.len) * p.n

/-- A number as `n` bytes, most significant first, and back. -/
def msbBytes (n v : Nat) : List Byte := (natBytes n v).reverse
def msbNat (bs : List Byte) : Nat := bytesNat bs.reverse

/-- An address: layer, tree, type, and its three last words. -/
structure Adrs where
  layer : Nat := 0
  tree : Nat := 0
  type : Nat := 0
  w1 : Nat := 0
  w2 : Nat := 0
  w3 : Nat := 0
  deriving DecidableEq, Repr

def Adrs.bytes (x : Adrs) : List Byte :=
  msbBytes 4 x.layer ++ msbBytes 12 x.tree ++ msbBytes 4 x.type ++ msbBytes 4 x.w1 ++ msbBytes 4 x.w2 ++ msbBytes 4 x.w3

/-- A new type clears the last words; the key pair's word is set again where it is kept. -/
def Adrs.retype (x : Adrs) (t kp : Nat) : Adrs := { x with type := t, w1 := kp, w2 := 0, w3 := 0 }

/-- F, H, T and PRF: one hash over seed, address and message. -/
def slhHash (p : SlhPar) (pkSeed : List Byte) (x : Adrs) (m : List Byte) : List Byte :=
  shake256 p.n (pkSeed ++ x.bytes ++ m)

/-- Digits of `b` bits each from the front of a string. -/
def baseDigits (b cnt : Nat) (bs : List Byte) : List Nat :=
  (List.range cnt).map fun i => msbNat bs / 2 ^ (8 * bs.length - b * (i + 1)) % 2 ^ b

/-- Part `i` of a run of `n`-byte values. -/
def part (n i : Nat) (bs : List Byte) : List Byte := (bs.drop (n * i)).take n

/-- A chain of `s` hashes from step `i`. -/
def wotsChain (p : SlhPar) (pkSeed : List Byte) (x : Adrs) : Nat → Nat → List Byte → List Byte
  | 0, _, v => v
  | s + 1, i, v => wotsChain p pkSeed x s (i + 1) (slhHash p pkSeed { x with w3 := i } v)

/-- The digits a one-time key signs: those of the message, then those of its checksum. -/
def wotsDigits (p : SlhPar) (m : List Byte) : List Nat :=
  let ds := baseDigits 4 (2 * p.n) m
  let sum := (ds.map (15 - ·)).sum
  ds ++ baseDigits 4 3 (msbBytes 2 (16 * sum))

/-- The one-time public key that a signature leads to. -/
def wotsPkFromSig (p : SlhPar) (pkSeed : List Byte) (x : Adrs) (sig m : List Byte) : List Byte :=
  let tops := (List.range p.len).map fun i =>
    let d := (wotsDigits p m).getD i 0
    wotsChain p pkSeed { x with w2 := i } (15 - d) d (part p.n i sig)
  slhHash p pkSeed (x.retype 1 x.w1) tops.flatten

/-- A root from a leaf and its authentication path; `x` is of a tree type. -/
def climb (p : SlhPar) (pkSeed : List Byte) (x : Adrs) : Nat → Nat → List Byte → List (List Byte) → List Byte
  | _, _, node, [] => node
  | ht, idx, node, a :: as =>
    let y := { x with w2 := ht + 1, w3 := idx / 2 }
    climb p pkSeed x (ht + 1) (idx / 2) (slhHash p pkSeed y (if idx % 2 = 0 then node ++ a else a ++ node)) as

/-- The `cnt` values of `n` bytes at the front of a string. -/
def parts (n cnt : Nat) (bs : List Byte) : List (List Byte) := (List.range cnt).map fun i => part n i bs

/-- The root that one layer's signature leads to. -/
def xmssPkFromSig (p : SlhPar) (pkSeed : List Byte) (x : Adrs) (idx : Nat) (sig m : List Byte) : List Byte :=
  let node := wotsPkFromSig p pkSeed (x.retype 0 idx) sig m
  climb p pkSeed (x.retype 2 0) 0 idx node (parts p.n p.hp (sig.drop (p.len * p.n)))

/-- The root that a hypertree signature leads to, layer by layer. -/
def hyperRoot (p : SlhPar) (pkSeed : List Byte) : Nat → Nat → Nat → Nat → List Byte → List Byte → List Byte
  | 0, _, _, _, _, m => m
  | n + 1, layer, tree, leaf, sig, m =>
    let root := xmssPkFromSig p pkSeed { layer := layer, tree := tree } leaf sig m
    hyperRoot p pkSeed n (layer + 1) (tree / 2 ^ p.hp) (tree % 2 ^ p.hp) (sig.drop ((p.len + p.hp) * p.n)) root

/-- The FORS public key that a signature leads to. -/
def forsPkFromSig (p : SlhPar) (pkSeed : List Byte) (x : Adrs) (sig md : List Byte) : List Byte :=
  let roots := (List.range p.k).map fun i =>
    let idx := (baseDigits p.a p.k md).getD i 0
    let s := sig.drop (i * (p.a + 1) * p.n)
    let leaf := slhHash p pkSeed { x with w2 := 0, w3 := i * 2 ^ p.a + idx } (part p.n 0 s)
    climb p pkSeed x 0 (i * 2 ^ p.a + idx) leaf (parts p.n p.a (s.drop p.n))
  slhHash p pkSeed (x.retype 4 x.w1) roots.flatten

/-- Message digest, tree and leaf of a message under a randomiser. -/
def slhDigest (p : SlhPar) (r pk m : List Byte) : List Byte × Nat × Nat :=
  let d := shake256 p.m (r ++ pk ++ m)
  let ka := ceilDiv (p.k * p.a) 8
  let tb := ceilDiv (p.h - p.hp) 8
  (d.take ka, msbNat ((d.drop ka).take tb) % 2 ^ (p.h - p.hp), msbNat ((d.drop (ka + tb)).take (ceilDiv p.hp 8)) % 2 ^ p.hp)

/-- The message of the pure mode with an empty context string. -/
def pureMessage (m : List Byte) : List Byte := zeros 2 ++ m

/-- Whether a signature verifies under a public key (seed, then root). -/
def slhVerify (p : SlhPar) (pk m sig : List Byte) : Bool :=
  let r := sig.take p.n
  let pkSeed := pk.take p.n
  let (md, tree, leaf) := slhDigest p r pk (pureMessage m)
  let x : Adrs := { tree := tree, type := 3, w1 := leaf }
  let fors := forsPkFromSig p pkSeed x (sig.drop p.n) md
  sig.length == p.sigBytes && pk.length == 2 * p.n
    && hyperRoot p pkSeed p.d 0 tree leaf (sig.drop ((1 + p.k * (1 + p.a)) * p.n)) fors == pk.drop p.n

/-! ## Key pairs and signing -/

/-- The one-time public key of a leaf. -/
def wotsPk (p : SlhPar) (skSeed pkSeed : List Byte) (x : Adrs) : List Byte :=
  let tops := (List.range p.len).map fun i =>
    wotsChain p pkSeed { x with w2 := i } 15 0 (slhHash p pkSeed { x.retype 5 x.w1 with w2 := i } skSeed)
  slhHash p pkSeed (x.retype 1 x.w1) tops.flatten

/-- A node of a layer's tree at a height. -/
def xmssNode (p : SlhPar) (skSeed pkSeed : List Byte) (x : Adrs) : Nat → Nat → List Byte
  | 0, i => wotsPk p skSeed pkSeed (x.retype 0 i)
  | z + 1, i =>
    slhHash p pkSeed { x.retype 2 0 with w2 := z + 1, w3 := i }
      (xmssNode p skSeed pkSeed x z (2 * i) ++ xmssNode p skSeed pkSeed x z (2 * i + 1))

/-- The public key of a private seed (key seed, PRF seed, public seed). -/
def slhPublic (p : SlhPar) (seed : List Byte) : List Byte :=
  let pkSeed := part p.n 2 seed
  pkSeed ++ xmssNode p (part p.n 0 seed) pkSeed { layer := p.d - 1 } p.hp 0

/-- One layer's signature of a message: chains, then the authentication path. -/
def xmssSign (p : SlhPar) (skSeed pkSeed : List Byte) (x : Adrs) (idx : Nat) (m : List Byte) : List Byte :=
  let y := x.retype 0 idx
  let chains := (List.range p.len).map fun i =>
    wotsChain p pkSeed { y with w2 := i } ((wotsDigits p m).getD i 0) 0 (slhHash p pkSeed { x.retype 5 idx with w2 := i } skSeed)
  let auth := (List.range p.hp).map fun j => xmssNode p skSeed pkSeed x j ((idx / 2 ^ j) ^^^ 1)
  chains.flatten ++ auth.flatten

/-- The hypertree signature, layer by layer. -/
def hyperSign (p : SlhPar) (skSeed pkSeed : List Byte) : Nat → Nat → Nat → Nat → List Byte → List Byte
  | 0, _, _, _, _ => []
  | n + 1, layer, tree, leaf, m =>
    let x : Adrs := { layer := layer, tree := tree }
    let sig := xmssSign p skSeed pkSeed x leaf m
    sig ++ hyperSign p skSeed pkSeed n (layer + 1) (tree / 2 ^ p.hp) (tree % 2 ^ p.hp) (xmssPkFromSig p pkSeed x leaf sig m)

/-- A FORS leaf's secret. -/
def forsSecret (p : SlhPar) (skSeed pkSeed : List Byte) (x : Adrs) (i : Nat) : List Byte :=
  slhHash p pkSeed { x.retype 6 x.w1 with w3 := i } skSeed

/-- A node of a FORS tree. -/
def forsNode (p : SlhPar) (skSeed pkSeed : List Byte) (x : Adrs) : Nat → Nat → List Byte
  | 0, i => slhHash p pkSeed { x with w2 := 0, w3 := i } (forsSecret p skSeed pkSeed x i)
  | z + 1, i =>
    slhHash p pkSeed { x with w2 := z + 1, w3 := i }
      (forsNode p skSeed pkSeed x z (2 * i) ++ forsNode p skSeed pkSeed x z (2 * i + 1))

def forsSign (p : SlhPar) (skSeed pkSeed : List Byte) (x : Adrs) (md : List Byte) : List Byte :=
  ((List.range p.k).map fun i =>
    let idx := (baseDigits p.a p.k md).getD i 0
    forsSecret p skSeed pkSeed x (i * 2 ^ p.a + idx)
      ++ ((List.range p.a).map fun j =>
        forsNode p skSeed pkSeed x j (i * 2 ^ (p.a - j) + ((idx / 2 ^ j) ^^^ 1))).flatten).flatten

/-- A signature under a private seed, with the given randomness. -/
def slhSign (p : SlhPar) (seed rnd m : List Byte) : List Byte :=
  let skSeed := part p.n 0 seed
  let pkSeed := part p.n 2 seed
  let pk := slhPublic p seed
  let msg := pureMessage m
  let r := shake256 p.n (part p.n 1 seed ++ rnd ++ msg)
  let (md, tree, leaf) := slhDigest p r pk msg
  let x : Adrs := { tree := tree, type := 3, w1 := leaf }
  let fors := forsSign p skSeed pkSeed x md
  r ++ fors ++ hyperSign p skSeed pkSeed p.d 0 tree leaf (forsPkFromSig p pkSeed x fors md)

end Sys2Proof.Machine
end

