-- ==== Sys2Proof/Machine/Firmware.lean ====
section
/-! DEFINITION. Control cores, firmware, life cycle, attestation, relief-valve locks (R379-R407). -/

namespace Sys2Proof.Machine

/-! ## Modules (R382, R383) -/

def modRole (m : List Byte) : Nat := byteAt m 6
def modOwnerSig (m : List Byte) : Bool := bit (byteAt m 7) 0
def modVersion (m : List Byte) : Nat := fieldAt m 8 4
def modCode (m : List Byte) : Nat := fieldAt m 12 4
def modState (m : List Byte) : Nat := fieldAt m 16 2

/-- Header and code of a module: what a core runs and what a measurement covers (R401). -/
def modBody (m : List Byte) : List Byte := m.take (256 + modCode m)

/-- A measurement (R401). -/
def measurement (m : List Byte) : List Byte := shake256 64 (modBody m)

/-- Bytes of one SLH-DSA-SHAKE-256s signature. -/
abbrev sigLen : Nat := 29792

/-- Checks 1 and 2 of R383: fields, lengths, reserved fields, digest. -/
def moduleSound (m : List Byte) : Bool :=
  let code := modCode m
  m.length == 256 + code + sigLen * (if modOwnerSig m then 2 else 1)
    && fieldAt m 0 4 == 0x46570880 && fieldAt m 4 2 == 1 && modRole m ≤ 8 && byteAt m 7 ≤ 1
    && code % 16 == 0 && 16 ≤ code && code ≤ 786432
    && fieldAt m 24 4 % 4 == 0 && fieldAt m 24 4 < code
    && allZero ((m.drop 22).take 2) && allZero ((m.drop 28).take 36) && allZero ((m.drop 192).take 64)
    && (modOwnerSig m || allZero ((m.drop 64).take 64))
    && shake256 64 ((m.drop 256).take code) == (m.drop 128).take 64

/-- The key that must have signed a module for its owner: none where no owner signature is needed (R383, R395). -/
def State.ownerRule (s : State) : Option (List Byte) :=
  if s.get F.GLB_STATUS_LIFECYCLE = 3 || !s.on F.SEC_OWNER_STATUS_ENROLLED then none else s.nv.owner

/-- A module through R383: 0 accepted; else the reason of SEC_BOOT_STATUS: 2 not sound, 3 a signature, 4 no owner signature. -/
def State.moduleCheck (s : State) (m : List Byte) : Nat :=
  let hdr := m.take 256
  let sigs := m.drop (256 + modCode m)
  if !moduleSound m then 2
  else if !slhVerify slh256s s.nv.gorpor hdr (sigs.take sigLen) then 3
  else match s.ownerRule with
    | none => 0
    | some d =>
      if !modOwnerSig m then 4
      else
        let pub := (m.drop 64).take 64
        if shake256 64 pub == d && slhVerify slh256s pub hdr (sigs.drop sigLen) then 0 else 3

/-- The status code of a failed check (R383, R89). -/
def checkCode (reason : Nat) : Nat := if reason = 2 then Status.imageInvalid else Status.signatureInvalid

/-! ## Cores -/

def State.core (s : State) (c : Nat) : Core := sget {} s.sec.cores c
def State.modCore (s : State) (c : Nat) (f : Core → Core) : State :=
  { s with sec := { s.sec with cores := smod {} s.sec.cores c f } }
def State.coreState (s : State) (c : Nat) : Nat := s.get (F.SEC_CORE_STATUS_STATE c)
def State.setCore (s : State) (c st : Nat) : State :=
  (s.put (F.SEC_CORE_STATUS_STATE c) st).putB ⟨R.SEC_BOOT_STATUS, 12 + c, 1⟩ (st == 1)
def State.modFw (s : State) (f : FwJob → FwJob) : State := { s with sec := { s.sec with fw := f s.sec.fw } }
def State.fwStage (s : State) (st : FwStage) : State := s.modFw fun j => { j with stage := st, since := s.clk.cycle }

/-- A state block (R390). -/
def stateBlock (ver role cold writer stroke : Nat) (body : List Byte) : List Byte :=
  let b := body.take 65472
  padTo 65536 (natBytes 4 0x53420880 ++ natBytes 2 ver ++ natBytes 1 role ++ natBytes 1 cold ++ natBytes 4 writer
    ++ natBytes 4 b.length ++ natBytes 8 stroke ++ zeros 40 ++ b)

/-- The block that CC0 writes before a cold start of module `m` (R390). -/
def State.coldBlock (s : State) (m : List Byte) : List Byte :=
  stateBlock (modState m) (modRole m) 1 (modVersion m) s.strokeOr0 []

/-- A core starts its module. -/
def State.runCore (s : State) (c : Nat) (m block : List Byte) : State :=
  ((s.modCore c fun k => { k with mod := modBody m, block := block, startedAt := s.clk.cycle }).setCore c 1).put
    (F.SEC_MODVER_MODULE_VERSION c) (modVersion m)

/-- A core starts cold from its store slot. -/
def State.coldStart (s : State) (c : Nat) : State :=
  let m := sget [] s.nv.slots c
  s.runCore c m (s.coldBlock m)

/-- FW_HANDOVER and WATCHDOG events (R90). -/
def State.fwEvent (s : State) (core result version : Nat) : State :=
  s.raise 0x0803 (payload 16 [(0, 1, core), (1, 1, result), (4, 4, version)])
def State.watchdogEvent (s : State) (core action : Nat) : State :=
  s.raise 0x0802 (payload 16 [(0, 1, core), (1, 1, action)])

/-! ## Recovery (R386) -/

/-- The first store slot that is empty or fails, loader first, with its reason. -/
def State.badSlot (s : State) : Option (Nat × Nat) :=
  firstSome (fun r => match sget [] s.nv.slots r with
    | [] => some (r, 1)
    | m => if s.moduleCheck m = 0 then none else some (r, s.moduleCheck m)) [8, 0, 1, 2, 3, 4, 5, 6, 7]

/-- Start-up stops at a step (R417). -/
def State.holdAt (s : State) (stage : Nat) : State :=
  { ((s.put F.GLB_STATUS_STAGE stage).putB F.GLB_STATUS_FAULT_HOLD true) with phase := .hold }

/-- Step 1 waits in the recovery mailbox for the first bad slot. -/
def State.enterRecovery (s : State) (role reason : Nat) : State :=
  let s1 := (((s.holdAt 1).putB F.SEC_BOOT_STATUS_RECOVERY true).put F.SEC_BOOT_STATUS_ROLE role).put F.SEC_BOOT_STATUS_REASON reason
  { s1.put F.SEC_BOOT_STATUS_STAGE (if role = 8 then 1 else 2) with phase := .recovery }

def execRecStart (s : State) : Res :=
  whenHost s R.SEC_REC_CTRL fun s => { s with sec := { s.sec with recovery := [] } }

def execRecData (value : Word) (s : State) : Res :=
  whenHost s R.SEC_REC_DATA fun s =>
    if 1048576 ≤ s.sec.recovery.length then s
    else { s with sec := { s.sec with recovery := s.sec.recovery ++ natBytes 4 value.toNat } }

/-- The ROM checks the module in the recovery buffer and writes it to its slot; with every slot valid, step 1 goes on. -/
def State.recoveryLoad (s : State) : State :=
  let m := s.sec.recovery
  let reason := s.moduleCheck m
  let s1 := s.putB F.SEC_FW_CTRL_SOURCE true
  if s.on F.SEC_FW_STATUS_BUSY then s
  else if s.phase != .recovery then s1
  else if reason != 0 then
    ((s1.put F.SEC_FW_STATUS_RESULT 3).put F.SEC_FW_STATUS_CODE (checkCode reason)).put F.SEC_FW_STATUS_ROLE (modRole m)
  else
    let s2 := ((s1.put F.SEC_FW_STATUS_RESULT 2).put F.SEC_FW_STATUS_CODE 0).put F.SEC_FW_STATUS_ROLE (modRole m)
    let s3 := { s2 with nv := { s2.nv with slots := sset [] s2.nv.slots (modRole m) m } }
    match s3.badSlot with
    | some (role, why) => s3.enterRecovery role why
    | none =>
      let s4 := (s3.putB F.GLB_STATUS_FAULT_HOLD false).putB F.SEC_BOOT_STATUS_RECOVERY false
      { (s4.put F.SEC_BOOT_STATUS_ROLE 0).put F.SEC_BOOT_STATUS_REASON 0 with phase := .startup }

def execFwRecoveryLoad (s : State) : Res := whenHost s R.SEC_FW_CTRL State.recoveryLoad

/-! ## Live replacement (R387-R392) -/

/-- FW_REPLACE: the module is copied into the staging memory. -/
def State.stageModule (s : State) (cold : Bool) : State :=
  if s.on F.SEC_FW_STATUS_BUSY then s
  else
    let addr := s.get64 R.SEC_FW_ADDR_LO
    let len := s.get F.SEC_FW_LEN
    let fits := addr % 16 == 0 && addr + len ≤ 2 ^ 32 && len ≤ 1048576
    let s1 := ((((s.putB F.SEC_FW_CTRL_COLD cold).putB F.SEC_FW_CTRL_SOURCE false).putB F.SEC_FW_STATUS_BUSY true).put
      F.SEC_FW_STATUS_RESULT 0).put F.SEC_FW_STATUS_CODE 0
    let (s2, bs, marks) := s1.rdRange .cis addr (if fits then len else 0)
    s2.modFw fun _ => { stage := .staged, mod := bs, poisoned := marks.contains true, cold := cold, since := s.clk.cycle }

def execFwReplace (cold : Bool) (s : State) : Res :=
  whenHost s R.SEC_FW_CTRL fun s => if s.live then s.stageModule cold else s

/-- A module is refused. -/
def State.refuseModule (s : State) (code : Nat) : State :=
  let m := s.sec.fw.mod
  let s1 := ((s.put F.SEC_FW_STATUS_RESULT 3).put F.SEC_FW_STATUS_CODE code).put F.SEC_FW_STATUS_ROLE (modRole m)
  ((s1.putB F.SEC_FW_STATUS_BUSY false).modFw fun _ => {}).fwEvent (modRole m) 1 (modVersion m)

/-- The running module's state block is one that the new module reads, or need not be. -/
def State.compatible (s : State) (m : List Byte) : Bool :=
  let st := s.coreState (modRole m)
  let v := modState (s.core (modRole m)).mod
  s.sec.fw.cold || st == 0 || st == 4 || (fieldAt m 18 2 ≤ v && v ≤ fieldAt m 20 2)

/-- The store write begins. -/
def State.startStore (s : State) : State := (s.fwStage .storing).putB F.SEC_FW_STATUS_STORING true

/-- The handover begins: the core is told to quiesce, its watchdog is suspended (R389). -/
def State.beginHandover (s : State) : State :=
  let c := modRole s.sec.fw.mod
  let st := s.coreState c
  ((s.fwStage .begun).modFw fun j => { j with wasDown := st == 0 || st == 4 }).setCore c 2

/-- A pending handover whose stroke has come begins at the boundary into stroke `k` (R389). -/
def State.handoverDue (s : State) (k : Nat) : State :=
  if s.sec.fw.stage == .pending && s.get64 R.SEC_FW_AT_LO ≤ k then s.beginHandover else s

/-- FW_CHECK_DONE: the staged module is accepted or refused. -/
def State.checkDone (s : State) : State :=
  let m := s.sec.fw.mod
  let reason := s.moduleCheck m
  if s.sec.fw.stage != .staged then s
  else if s.sec.fw.poisoned then s.refuseModule Status.poison
  else if reason != 0 then s.refuseModule (checkCode reason)
  else if modRole m = 8 then
    ((s.put F.SEC_FW_STATUS_RESULT 2).put F.SEC_FW_STATUS_ROLE 8).startStore
  else if !s.compatible m then s.refuseModule Status.imageInvalid
  else
    let s1 := ((s.put F.SEC_FW_STATUS_RESULT 1).put F.SEC_FW_STATUS_ROLE (modRole m)).fwStage .pending
    if s.on F.STK_CTRL_ENABLE then s1 else s1.beginHandover

def execFwCheckDone (s : State) : Res := whenLive s State.checkDone

/-- FW_HANDOVER: the core has written its state block (`body`) and halted, and the new code is loaded, within 50 µs. -/
def State.handover (s0 : State) (body : List Byte) : State :=
  let s := if s0.sec.fw.stage == .pending && !s0.on F.STK_CTRL_ENABLE then s0.beginHandover else s0
  let j := s.sec.fw
  let c := modRole j.mod
  let old := (s.core c).mod
  if j.stage != .begun || j.since + 125000 < s.clk.cycle then s
  else
    let block := if j.cold || j.wasDown then s.coldBlock j.mod
      else stateBlock (modState old) c 0 (modVersion old) s.strokeOr0 body
    ((s.modCore c fun k => { k with mod := modBody j.mod, block := block }).modFw fun j => { j with stage := .loaded })

def execFwHandover (body : List Byte) (s : State) : Res := whenLive s fun s => s.handover body

/-- A firmware replacement may bring new function tables: whether it does is left open (R262, R269). -/
def State.newTables (s : State) : State :=
  let (keep, s1) := s.free
  if keep % 2 = 0 then s1
  else
    let (v, s2) := s1.free
    s2.put F.MX_VEC_FNVER_VERSION (v % 65535 + 1)

/-- FW_START: the new module signals START within 190 µs of the boundary. -/
def State.fwStarted (s : State) : State :=
  let j := s.sec.fw
  let c := modRole j.mod
  if j.stage != .loaded || j.since + 475000 < s.clk.cycle then s
  else
    let s1 := (s.runCore c j.mod (s.core c).block).newTables
    ((s1.modCore c fun k => { k with expired := none }).startStore.put F.SEC_FW_STATUS_RESULT 2).fwEvent c 0 (modVersion j.mod)

def execFwStart (s : State) : Res := whenLive s State.fwStarted

/-- The replacement ends without its module in place. -/
def State.fwTimedOut (s : State) (c version : Nat) : State :=
  (((s.putB F.SEC_FW_STATUS_BUSY false).put F.SEC_FW_STATUS_RESULT 4).modFw fun _ => {}).fwEvent c 2 version

/-- FW_QUIESCE_TIMEOUT: the old module goes on (R391). -/
def State.quiesceTimeout (s : State) : State :=
  let j := s.sec.fw
  let c := modRole j.mod
  if j.stage != .begun || j.wasDown then s
  else match s.reach (j.since + 125000) with
    | none => s
    | some s1 => (s1.setCore c 1).fwTimedOut c (modVersion j.mod)

def execFwQuiesceTimeout (s : State) : Res := whenLive s State.quiesceTimeout

/-- FW_START_TIMEOUT: the old module starts cold from its slot (R391). -/
def State.startTimeout (s : State) : State :=
  let j := s.sec.fw
  let c := modRole j.mod
  if j.stage != .loaded then s
  else match s.reach (j.since + 475000) with
    | none => s
    | some s1 => ((s1.coldStart c).fwTimedOut c (modVersion j.mod)).watchdogEvent c 1

def execFwStartTimeout (s : State) : Res := whenLive s State.startTimeout

/-- FW_STORE_WRITE_DONE: the slot holds the new module (R392). -/
def State.storeDone (s : State) : State :=
  let m := s.sec.fw.mod
  if s.sec.fw.stage != .storing then s
  else
    let s1 := { s with nv := { s.nv with slots := sset [] s.nv.slots (modRole m) m } }
    ((s1.putB F.SEC_FW_STATUS_BUSY false).putB F.SEC_FW_STATUS_STORING false).modFw fun _ => {}

def execFwStoreWriteDone (s : State) : Res := whenLive s State.storeDone

/-! ## Watchdogs (R393, R394) -/

/-- A pair is privileged: either link has PRIV set (R94, R393). -/
def State.privPair (s : State) (p : Nat) : Bool := s.onF (F.WH_LINK_CTRL_PRIV (2 * p)) || s.onF (F.WH_LINK_CTRL_PRIV (2 * p + 1))

/-- A core's watchdog expires: bypass for CC0 and CC1, a cold restart, or with a second expiry within 1,000 ms the core fails. -/
def State.watchdog (s : State) (c : Nat) : State :=
  if s.coreState c != 1 && s.coreState c != 3 then s
  else match s.reach ((s.core c).startedAt + 2500 * s.get (F.RV_WDT c)) with
    | none => s
    | some s1 =>
      let now := s1.clk.cycle
      let again : Bool := match (s1.core c).expired with
        | some t => decide (now ≤ t + 2500000000)
        | none => false
      let s2 := (s1.bumpSat (F.SEC_CORE_STATUS_EXPIRIES c)).modCore c fun k => { k with expired := some now, startedAt := now }
      let s3 := if c ≤ 1 then (List.range 12).foldl (fun t p => if s.privPair p then State.latchBypass t p 1 else t) s2 else s2
      let s4 := (s3.setCore c (if again then 4 else 3)).watchdogEvent c (if c ≤ 1 then 2 else 1)
      if again then s4.unitFailed 6 c 2 0 else s4

def execWatchdog (core : Fin 8) (s : State) : Res := whenLive s fun s => s.watchdog core

/-- CORE_RESTARTED: a restarting core runs again, cold from its slot. -/
def execCoreRestarted (core : Fin 8) (s : State) : Res :=
  whenLive s fun s => if s.coreState core = 3 then s.coldStart core else s

/-! ## Life cycle (R395-R398) -/

/-- SEC_LC_CONSENT. -/
def execLcConsent (value : Word) (s : State) : Res :=
  whenHost s R.SEC_LC_CONSENT fun s =>
    if value = 0xC05E0880#32 then { s with sec := { s.sec with consent := true } } else s

/-- 32 fresh bytes of SEC_LC_NONCE: the entropy source's, left open (R397). -/
def State.newNonce (s : State) : State :=
  let (bs, s1) := s.freeBytes 32
  (List.range 8).foldl (fun t i => State.put t (F.SEC_LC_NONCE i) (fieldAt bs (4 * i) 4)) s1

/-- Words of consecutive registers as bytes. -/
def State.regBytes (s : State) (off n : Nat) : List Byte :=
  ((List.range n).map fun i => natBytes 4 (s.word (off + 4 * i)).toNat).flatten

/-- The transitions (R396): a Gorpor signature is needed, an owner's consent is needed; none where there is no transition. -/
def transition (old new : Nat) : Option (Bool × Bool) :=
  match old, new with
  | 0, 1 => some (true, false)
  | 1, 2 => some (true, false)
  | 2, 3 => some (true, true)
  | 0, 4 => some (true, false)
  | 1, 4 => some (true, false)
  | 3, 4 => some (true, false)
  | 2, 4 => some (false, true)
  | _, _ => none

/-- Why a token is refused, 0 where it is accepted (R396-R398). The state it starts from is the fuses': no transition can be
undone, nor be left out of account until the next reset. The owner's key is the one in SEC_OWNER_PUB whose digest is
enrolled. -/
def State.tokenReason (s : State) (target : Nat) (tok : List Byte) (marked : Bool) : Nat :=
  let enrolled := s.on F.SEC_OWNER_STATUS_ENROLLED
  let pub := s.regBytes (R.SEC_OWNER_PUB 0) 16
  match transition s.nv.lifecycle target with
  | none => 1
  | some (gorpor, owner) =>
    let len := 64 + (if gorpor then sigLen else 0) + (if enrolled then sigLen else 0)
    let body := tok.take 64
    let sigs := tok.drop 64
    let osig := if gorpor then sigs.drop sigLen else sigs
    if marked || tok.length != len || fieldAt tok 0 4 != 0x4C430880 || byteAt tok 4 != target
      || !allZero ((tok.drop 5).take 3) || !allZero ((tok.drop 48).take 16) then 2
    else if fieldAt tok 8 8 != s.get64 R.GLB_SERIAL_LO || (tok.drop 16).take 32 != s.regBytes (R.SEC_LC_NONCE 0) 8 then 5
    else if gorpor && !slhVerify slh256s s.nv.gorpor body (sigs.take sigLen) then 2
    else if owner && enrolled && !(s.nv.owner == some (shake256 64 pub) && slhVerify slh256s pub body osig) then 2
    else if owner && !enrolled && !s.sec.consent then 3
    else 0

/-- LC_GO: the token is checked; a consent is used up and the nonce drawn anew whatever the outcome. -/
def State.lcGo (s : State) (target : Nat) : State :=
  let s0 := s.put F.SEC_LC_CTRL_TARGET target
  let addr := s.get64 R.SEC_LC_ADDR_LO
  let len := s.get F.SEC_LC_LEN
  let fits := addr % 16 == 0 && addr + len ≤ 2 ^ 32 && len ≤ 64 + 2 * sigLen
  let done (t : State) : State := ({ t with sec := { t.sec with consent := false } }).newNonce
  let refuse (t : State) (why : Nat) : State := done ((t.put F.SEC_LC_STATUS_RESULT 2).put F.SEC_LC_STATUS_REASON why)
  if s.on F.SEC_LC_STATUS_BUSY || s.on F.SEC_FW_STATUS_BUSY then refuse s0 4
  else
    let (s1, tok, marks) := s0.rdRange .cis addr (if fits then len else 0)
    let why := s1.tokenReason target tok (marks.contains true)
    if why != 0 then refuse s1 why
    else
      let s2 := ((s1.putB F.SEC_LC_STATUS_BUSY true).put F.SEC_LC_STATUS_RESULT 0).put F.SEC_LC_STATUS_REASON 0
      done { s2 with sec := { s2.sec with burning := some target } }

def execLcGo (target : Fin 8) (s : State) : Res :=
  whenHost s R.SEC_LC_CTRL fun s => if s.live then s.lcGo target else s.put F.SEC_LC_CTRL_TARGET target

/-- The identity generated at personalisation: its seed is the entropy source's, left open (R400). -/
def State.personalise (s : State) : State :=
  let (seed, s1) := s.freeBytes 48
  { s1 with nv := { s1.nv with seed := some seed, idPub := slhPublic slh128s seed } }

/-- LIFECYCLE_CHANGE: the fuses are burnt; the new state governs from the next reset. `healthy` is the health test of the entropy
source (R400). -/
def State.lifecycleChange (s : State) (healthy : Bool) : State :=
  match s.sec.burning with
  | none => s
  | some target =>
    let old := s.nv.lifecycle
    let s1 := { s.putB F.SEC_LC_STATUS_BUSY false with sec := { s.sec with burning := none } }
    if old = 0 && target = 1 && !healthy then (s1.put F.SEC_LC_STATUS_RESULT 2).put F.SEC_LC_STATUS_REASON 6
    else
      let s2 := if old = 0 && target = 1 then s1.personalise else s1
      let s3 := { s2 with nv := { s2.nv with lifecycle := target, seed := if target = 4 then none else s2.nv.seed } }
      (s3.put F.SEC_LC_STATUS_RESULT 1).raise 0x0804 (payload 16 [(0, 1, old), (1, 1, target)])

def execLifecycleChange (healthy : Bool) (s : State) : Res := whenLive s fun s => s.lifecycleChange healthy

/-! ## Owner key (R399) -/

/-- OWNER_ENROL: the burn of the key's digest starts, or REFUSED. -/
def State.enrol (s : State) (value : Nat) : State :=
  let lc := s.get F.GLB_STATUS_LIFECYCLE
  if value = 0x0E200880 && (lc == 1 || lc == 2) && !s.on F.SEC_OWNER_STATUS_ENROLLED && s.sec.enrolling.isNone
      && !s.on F.SEC_FW_STATUS_BUSY then
    { s with sec := { s.sec with enrolling := some (shake256 64 (s.regBytes (R.SEC_OWNER_PUB 0) 16)) } }
  else s.putB F.SEC_OWNER_STATUS_REFUSED true

def execOwnerEnrol (value : Word) (s : State) : Res := whenHost s R.SEC_OWNER_CTRL fun s => s.enrol value.toNat

/-- OWNER_KEY_BURNT. -/
def State.ownerBurnt (s : State) : State :=
  match s.sec.enrolling with
  | none => s
  | some d => { s.putB F.SEC_OWNER_STATUS_ENROLLED true with
      sec := { s.sec with enrolling := none }, nv := { s.nv with owner := some d } }

def execOwnerKeyBurnt (s : State) : Res := whenLive s State.ownerBurnt

/-! ## Attestation (R401) -/

/-- A core's entry of the report. -/
def State.coreEntry (s : State) (c : Nat) : List Byte :=
  natBytes 1 c ++ natBytes 1 (s.coreState c) ++ zeros 2 ++ natBytes 4 (s.get (F.SEC_MODVER_MODULE_VERSION c))
    ++ (if (s.core c).mod.isEmpty then zeros 64 else measurement (s.core c).mod)

/-- A model bank's entry of the report. -/
def State.modelEntry (s : State) (b : Nat) : List Byte :=
  let k := s.model b
  let held := 2 ≤ k.st.code
  natBytes 1 b ++ natBytes 1 k.st.code ++ zeros 6 ++ natBytes 4 (if held then k.img.id else 0) ++ zeros 4
    ++ padTo 64 (if held then k.img.digest else [])

/-- Bytes 0-2,111 of the report: every value of one cycle. -/
def State.attestation (s : State) : List Byte :=
  let flags := b2n (s.on F.SEC_OWNER_STATUS_ENROLLED) + 2 * b2n (s.on F.HIF_LOCK_LOCK) + 4 * b2n (s.on F.HIF_BAR4_CTRL_ENABLE)
    + 8 * b2n (s.on F.RV_LOCK_LOCK)
  natBytes 4 0x41540880 ++ natBytes 2 1 ++ natBytes 1 (s.get F.GLB_STATUS_LIFECYCLE) ++ natBytes 1 flags
    ++ natBytes 8 (s.get64 R.GLB_SERIAL_LO) ++ natBytes 8 s.nowReg ++ natBytes 8 s.clk.time
    ++ s.regBytes (R.SEC_ATT_NONCE 0) 8 ++ padTo 64 s.nv.rom ++ measurement s.sec.loader
    ++ ((List.range 8).map s.coreEntry).flatten ++ padTo 64 (s.nv.owner.getD []) ++ s.regBytes 0x1900000 256
    ++ shake256 64 (s.regBytes 0x28000 1024) ++ natBytes 4 (s.get F.PWR_LIMIT_WATTS) ++ zeros 28
    ++ s.modelEntry 0 ++ s.modelEntry 1

/-- The snapshot of a requested report is taken. -/
def State.snapshot (s : State) : State :=
  if s.on F.SEC_ATT_STATUS_BUSY && s.sec.report.isNone then
    { s with sec := { s.sec with report := some s.attestation } }
  else s

/-- ATTESTATION_GO: refused in BLANK and RETIRED or with a bad address; the snapshot is the next boundary's, or taken at once. -/
def State.attGo (s : State) : State :=
  let lc := s.get F.GLB_STATUS_LIFECYCLE
  let addr := s.get64 R.SEC_ATT_ADDR_LO
  if s.on F.SEC_ATT_STATUS_BUSY then s
  else if lc = 0 || lc = 4 || addr % 16 != 0 || 0xA0000000 < addr + 9968 then s.putB F.SEC_ATT_STATUS_ERR true
  else
    let s1 := { s.putB F.SEC_ATT_STATUS_BUSY true with sec := { s.sec with attAddr := addr, report := none } }
    if s1.clk.strokes then s1 else s1.snapshot

def execAttestationGo (s : State) : Res := whenHost s R.SEC_ATT_CTRL fun s => if s.live then s.attGo else s

/-- ATTESTATION_DONE: the signed report is written. -/
def State.attDone (s : State) : State :=
  match s.sec.report with
  | none => s
  | some r =>
    if !s.on F.SEC_ATT_STATUS_BUSY then s
    else
      let (rnd, s1) := s.freeBytes 16
      let sig := slhSign slh128s (s.nv.seed.getD []) rnd r
      let s2 := s1.wrRange .cis s.sec.attAddr (r ++ sig)
      (({ s2 with sec := { s2.sec with report := none } }).putB F.SEC_ATT_STATUS_BUSY false).putB F.SEC_ATT_STATUS_DONE true

def execAttestationDone (s : State) : Res := whenLive s State.attDone

/-! ## Relief valves (R405, R406) -/

def execRvLock (s : State) : Res := whenHost s R.RV_LOCK fun s => s.putB F.RV_LOCK_LOCK true

/-- LINK_ALLOW_WRITE: the low half waits for its high half (R10). -/
def execLinkAllowWrite (high : Bool) (value : Word) (s : State) : Res :=
  whenHost s R.RV_LINK_ALLOW_LO fun s =>
    let hold (t : State) (v : Nat) : State :=
      { t with host := { t.host with writeHold := sset 0 t.host.writeHold R.RV_LINK_ALLOW_LO v } }
    if !high then (if s.on F.RV_LOCK_LOCK then s else hold s (2 ^ 32 + value.toNat))
    else
      let h := sget 0 s.host.writeHold R.RV_LINK_ALLOW_LO
      let lo := if h = 0 then s.get F.RV_LINK_ALLOW_LO else h % 2 ^ 32
      (hold s 0).setAllow (lo + 2 ^ 32 * (value.toNat % 256))

end Sys2Proof.Machine
end

