-- ==== Sys2Proof/Machine/Resets.lean ====
section
/-! DEFINITION. Internal reset: what causes it, what survives it, what holds it (R54-R56, R363, R384, R414, R423, R449, R456-R458,
R463). -/

namespace Sys2Proof.Machine

/-- The VDD_CORE set point in force: 0 before start-up loads it, then the fused one is driven (R409, R458). -/
def State.coreSet (s : State) : Nat :=
  if s.get F.PWR_VDDC_SET_SET_MV = 0 then s.nv.coreMv else s.get F.PWR_VDDC_SET_SET_MV

/-- The VID code of a set point (R458). -/
def vidCode (mv : Nat) : Nat := (mv - 600) / 5

/-- The firmware store after a reset: a slot whose rewriting a power loss cuts off is invalid; whether another reset cuts it off is
left open (R384, log 22). -/
def State.cutStore (s : State) (powerLost : Bool) : State :=
  if s.sec.fw.stage != .storing then s
  else
    let m := s.sec.fw.mod
    let (k, s1) := if powerLost then (2, s) else s.free
    let slots := s1.nv.slots
    { s1 with nv := { s1.nv with slots :=
      if k % 3 = 0 then slots else sset [] slots (modRole m) (if k % 3 = 1 then m else []) } }

/-- The registers that survive a reset: PWR_RESET_CAUSE, and the BIST's status and log (R427, R449). -/
def State.keptRegs (s : State) : SMap Word :=
  s.regs.filter fun e => e.1 == R.PWR_RESET_CAUSE || e.1 == R.PWR_BIST_STATUS
    || (R.PWR_BIST_LOG 0 ≤ e.1 && e.1 < R.PWR_BIST_LOG 16)

/-- ALERT_N and APR_N as they are driven (R462). -/
def State.alertPin (s : State) : Bool := s.pins.alertHeld || s.on F.PWR_STATUS_ALERT
def State.aprPins (s : State) : Nat :=
  ((List.range 10).map fun i => if bit s.pins.aprHeld i || s.on (F.LK_INLET_APR i) then 2 ^ i else 0).sum

/-- An internal reset begins with a cause: every pair in bypass, every register and store at its reset value but for what survives.
From the safe state the cause is 5, and heat holds the reset (R414, R432). Damaged cells stay damaged. -/
def State.resetWith (s0 : State) (cause : Nat) (phase : Phase) : State :=
  let s := s0.cutStore false
  let safe := s.phase == .safe
  let r : State := {
    phase := if safe then .reset else phase
    clk := { real := s.clk.real }
    regs := s.keptRegs
    host := { mem := s.host.mem, config := { refClock := s.host.config.refClock } }
    mems := { cis := { stuck := s.mems.cis.stuck }, aq := { stuck := s.mems.aq.stuck } }
    nv := s.nv
    power := { lowRails := s.power.lowRails, roseAt := s.power.roseAt, clkRef := s.power.clkRef, clkAt := s.power.clkAt
               tj := s.power.tj, holdHot := safe
               moved := if s.coreSet = s.nv.coreMv then none else some (s.coreSet, s.clk.real) }
    pins := { s.pins with alertHeld := s.alertPin, aprHeld := s.aprPins, vid := some (vidCode s.nv.coreMv), driven := none }
    dbg := { instr := s.dbg.instr, boundary := s.dbg.boundary }
    mgmt := s.mgmt
    dbgClock := s.dbgClock
    out := s.out
    fresh := s.fresh
    pending := s.pending }
  ((r.putB F.PWR_BIST_STATUS_RUNNING false).put F.PWR_RESET_CAUSE_CAUSE (if safe then 5 else cause)).put
    F.PWR_RESET_CAUSE_RAIL 0 |>.put F.PWR_RESET_CAUSE_DEPTH 0

/-- When a held internal reset is released, in running time; none while what holds it lasts (R423, R432, R463). -/
def State.releaseAt (s : State) : Option Nat :=
  let p := s.power
  if (p.holdRails && !p.lowRails.isEmpty) || (p.holdClock && !p.clkRef) || (p.holdHot && decide (1000 ≤ sInt 16 p.tj)) then none
  else some (max (if p.holdRails then p.roseAt + 25000000 else 0) (if p.holdClock then p.clkAt + 25000000 else 0))

/-- Internal reset is released, once time has passed to that point. -/
def State.release (s : State) : Option State :=
  match s.phase with
  | .startup => some s
  | .reset => match s.releaseAt with
    | none => none
    | some t => some { s with
        phase := .startup
        clk := { s.clk with real := max t s.clk.real }
        pins := { s.pins with driven := none, vid := some (vidCode s.nv.coreMv) }
        power := { s.power with holdRails := false, holdClock := false, holdHot := false } }
  | _ => none

/-! ## Resets by command -/

/-- POWER_ON: the rails have come up, VID drives the fused code with VID_OK, internal reset is held by RESET_N until start-up. -/
def execPowerOn (s0 : State) : Res :=
  let s := s0.cutStore true
  .next { State.reset with
    phase := .reset
    host := { mem := s.host.mem }
    mems := { cis := { stuck := s.mems.cis.stuck }, aq := { stuck := s.mems.aq.stuck } }
    nv := s.nv
    power := { tj := s.power.tj }
    pins := { vid := some (vidCode s.nv.coreMv) }
    out := s.out
    fresh := s.fresh
    pending := s.pending }

/-- RESET_N low for `low` ns: 1 µs or longer resets; a shorter pulse may be ignored (R457). -/
def execResetN (low : Nat) (s : State) : Res :=
  let (k, s1) := if low < 1000 then s.free else (1, s)
  if k % 2 = 0 then .next s1
  else
    let r := s1.resetWith 1 .startup
    .next { r with host := { r.host with config := {} } }

/-- GLB_RESET: the key resets the 880 as its RESET_N pin does (R55). -/
def execGlbReset (key : Word) (s : State) : Res :=
  whenHost s R.GLB_RESET fun s => if key = 0xC0DE0880#32 then s.resetWith 3 .startup else s

/-- FUNCTION_LEVEL_RESET (R55). -/
def execFunctionLevelReset (s : State) : Res :=
  .next (if s.phase != .reset && s.pcieUp then s.resetWith 2 .startup else s)

/-- DBG_RELEASE: the key resets a frozen 880 as GLB_RESET does (R449). -/
def execDbgRelease (key : Word) (s : State) : Res :=
  whenHost s R.DBG_RELEASE fun s => if key = 0xF12E0880#32 && s.frozen then s.resetWith 3 .startup else s

/-- Vectors with their pending bit set that nothing masks any more fire (R84); no interrupt comes from a frozen 880 (R441). -/
def State.firePending (s : State) : State :=
  if s.frozen then s
  else (List.range 256).foldl (fun t v => if s.on (F.MSIX_CTRL_MASK v) then t else State.unmask t v) s

/-- What never changes in configuration space: Vendor ID, Device ID, class code (R54). -/
def pciIdentity : Nat × Nat × Nat := (Config.vendorId % 2 ^ 16, 0x0880, 0x120000)

/-- Size in bytes and read-only low bits of BAR0, BAR2 and BAR4: 64-bit memory, BAR4 prefetchable (R57). -/
def barShape : Nat → Nat × Nat
  | 0 => (0x4000000, 4)
  | 1 => (0x400000, 4)
  | _ => (0x40000000, 12)

/-- An address register with its word `w` written: the address bits below the size stay 0 (R57). -/
def barWritten (k old : Nat) (high : Bool) (v : Nat) : Nat :=
  let new := if high then old % 2 ^ 32 + 2 ^ 32 * (v % 2 ^ 32) else old / 2 ^ 32 * 2 ^ 32 + v % 2 ^ 32
  new / (barShape k).1 * (barShape k).1

/-- What BARs 2k and 2k + 1 read: the address, and in the low bits the kind of BAR (R57). -/
def barRead (k addr : Nat) : Nat := addr + (barShape k).2

/-- A write of word `i` of the base address registers. -/
def PciConfig.writeBar (c : PciConfig) (i v : Nat) : PciConfig :=
  let high := i % 2 == 1
  match i / 2 with
  | 0 => { c with bar0 := barWritten 0 c.bar0 high v }
  | 1 => { c with bar2 := barWritten 1 c.bar2 high v }
  | _ => { c with bar4 := barWritten 2 c.bar4 high v }

/-- What a write to configuration space changes: the controls that govern later requests, the base addresses, the error status,
and a Function Level Reset (R55-R57, R62, R77, R84, R86). -/
def State.configWrite (s : State) (field : ConfigField) (v : Nat) : State :=
  let set (f : PciConfig → PciConfig) : State := { s with host := { s.host with config := f s.host.config } }
  match field with
  | .maxPayload => set fun c => { c with maxPayload := min 512 (128 * 2 ^ (v % 8)) }
  | .maxReadRequest => set fun c => { c with maxRead := min 4096 (128 * 2 ^ (v % 8)) }
  | .tag14 => set fun c => { c with tag14 := v % 2 == 1 }
  | .bar i => set fun c => c.writeBar i v
  | .aerStatus => set fun c => { c with aer := c.aer - (c.aer &&& v) }
  | .relaxedOrdering => set fun c => { c with relaxed := v % 2 == 1 }
  | .completionTimeout => set fun c => { c with timeout := v % 16 }
  | .msixEnable => (set fun c => { c with msixEnable := v % 2 == 1 }).firePending
  | .msixMask => (set fun c => { c with msixMask := v % 2 == 1 }).firePending
  | .initiateFlr => if v % 2 = 1 then s.resetWith 2 .startup else s

/-- CONFIG_SPACE_WRITE. -/
def execConfigSpaceWrite (field : ConfigField) (value : Nat) (s : State) : Res :=
  .next (if s.phase != .reset && s.pcieUp then s.configWrite field value else s)

end Sys2Proof.Machine
end

