-- ==== Sys2Proof/Machine/Power.lean ====
section
/-! DEFINITION. Rails, brownout windows, the power clamp, heat, clocks (R45, R46, R408, R409, R418-R423, R431, R432, R463, R468). -/

namespace Sys2Proof.Machine

/-! ## Rails (R408, R409) -/

/-- Set points of rails 1-8 in mV (R408). -/
def fixedMv : List Nat := [0, 750, 900, 3300, 1050, 500, 1200, 1800, 900]

/-- A rail's set point as its levels follow it: for 1 ms after a move of VDD_CORE the lower of the two (R409, R458). -/
def State.setPoint (s : State) (r : Nat) : Nat :=
  if r != 0 then fixedMv.getD r 0
  else match s.power.moved with
    | some (old, t) => if s.clk.real ≤ t + 2500000 then min old s.coreSet else s.coreSet
    | none => s.coreSet

/-- Below the warning level; at or below the reset level (R408). -/
def State.belowWarn (s : State) (r mv : Nat) : Bool := 100 * mv < 94 * s.setPoint r
def State.atReset (s : State) (r mv : Nat) : Bool := 100 * mv ≤ 90 * s.setPoint r

/-- Depth below a set point in 0.5 % steps (R422). -/
def depthOf (set mv : Nat) : Nat := 200 * (set - mv) / set

def State.dip (s : State) (r : Nat) : Option Dip := sget none s.power.dips r
def State.setDip (s : State) (r : Nat) (d : Option Dip) : State :=
  { s with power := { s.power with dips := sset none s.power.dips r d } }

/-- Core clock fraction under the depth a window holds: 1 − 2.5d, never below 0.75 (R419). -/
def stretchOf (set low : Nat) : Nat × Nat :=
  let num := 5 * low - 3 * set
  if 4 * num < 3 * (2 * set) then (3, 4) else (num, 2 * set)

/-- The clocks under the open windows of VDD_CORE and VDD_SRAM: the lowest fraction, and the halving (R419, R420). -/
def State.setClocks (s : State) : State :=
  let fs := [0, 1].filterMap fun r => (s.dip r).map fun d => stretchOf (s.setPoint r) d.low
  let (num, den) := fs.foldl (fun a b => if b.1 * a.2 < a.1 * b.2 then b else a) (1, 1)
  let half := [0, 1].any fun r => (s.dip r).any (·.halved)
  let s1 := (s.putB F.PWR_STATUS_HALVED half).putB F.PWR_STATUS_WINDOW
    ((List.range 9).any fun r => (s.dip r).isSome)
  { s1 with clk := { s1.clk with num := num, den := den, frac := if num = s.clk.num then s.clk.frac else 0 } }

/-- A stroke is flagged as overlapping a window (R422). -/
def State.flagStroke (s : State) : State :=
  { s with power := { s.power with flagged := true } }.flagBank fun b => { b with brownout := true }

/-! ## Range for tests (R425) -/

/-- Core clock in MHz, rounded down. -/
def State.coreMHz (s : State) : Nat := 2500 * s.clk.num / s.clk.den

/-- What is out of range for a BIST: quantity and value, as BIST_RANGE gives them. -/
def State.outOfRange (s : State) (coreMv : Nat) : Option (Nat × Nat) :=
  if s.coreMHz < 2200 || 2600 < s.coreMHz then some (1, s.coreMHz)
  else if 100 * coreMv < 97 * s.coreSet || 103 * s.coreSet < 100 * coreMv then some (2, coreMv) else none

/-- BIST_RANGE (R90). -/
def State.rangeEvent (s : State) (q v : Nat) : State := s.raise 0x0902 (payload 16 [(0, 1, q), (4, 4, v)])

/-- BIST_RANGE of an in-service step: at most one per second (R425). -/
def State.istRange (s : State) (q v : Nat) : State :=
  let due : Bool := match s.power.rangeAt with
    | some t => decide (t + 2500000000 ≤ s.clk.real)
    | none => true
  if due then { s with power := { s.power with rangeAt := some s.clk.real } }.rangeEvent q v else s

/-! ## Units of the in-service test (R428) -/

/-- The class of a unit, by the bit that shows it in PWR_IST_STATUS. -/
def istBit : IstUnit → Nat
  | .tile _ => 17
  | .group _ => 18
  | .bank _ => 19
  | .linkLane _ _ => 20
  | .headerLane _ => 21
  | .slice _ => 22

def State.istTest (s : State) (u : IstUnit) : Option IstRun := s.power.tests.find? fun t => istBit t.unit == istBit u

/-- The test of a unit is over. -/
def State.istEnd (s : State) (u : IstUnit) : State :=
  { s with power := { s.power with tests := s.power.tests.filter fun t => istBit t.unit != istBit u } }.putB
    ⟨R.PWR_IST_STATUS, istBit u, 1⟩ false

/-- A tile whose mirror is discarded stays in its place. -/
def State.unmirror (s : State) (t : Nat) : State :=
  if s.get (F.MX_TILE_STATE t) = 3 then
    { s with matrix := { s.matrix with mirror := none } }.put (F.MX_TILE_STATE t) 0
  else s

/-- The spare group serves the lane of the group that was tested; that group is the spare from now on. -/
def State.groupBack (s : State) (g : Nat) : State :=
  if s.on F.WH_TG_SPARE_NONE then (s.put F.WH_TG_SPARE_GROUP g).putB F.WH_TG_SPARE_NONE false
  else match s.banks.spareFor with
    | some l => -- the spare was still being loaded: the group takes its lane back
      (({ s with banks := { s.banks with spareFor := none } }).putB ⟨R.WH_TG_STATUS, g, 1⟩ true).setLane l true
    | none => s

/-- The wavelengths of a link set anew after a lane comes or goes for its test (R357). -/
def State.laneBack (s : State) (n : Nat) : State :=
  if s.linkUp n && s.on (F.LK_CTRL_PERS n) then
    match s.chooseRate n with
    | some (code, mask) =>
      ((s.put (F.LK_STATUS_RATE_NOW n) code).put (F.LK_LANE_IN_USE n) mask).modLink n fun l => { l with use := mask }
    | none => s
  else s

/-- A unit returns to service without a finding: at the end of its test, or where the test is aborted (R428, R429). -/
def State.istReturn (s : State) (u : IstUnit) : State :=
  let s1 := match u with
    | .tile t => s.unmirror t
    | .group g => s.groupBack g
    | .bank _ => s
    | .headerLane l => s.setLane l true
    | .linkLane n _ => s.laneBack n
    | .slice _ => s
  s1.istEnd u

/-- Every in-service step is aborted: clock or VDD_CORE is out of range (R425). -/
def State.istAbortAll (s : State) (q v : Nat) : State :=
  if s.power.tests.isEmpty then s
  else (s.power.tests.foldl (fun t x => State.istReturn t x.unit) s).istRange q v

/-! ## Brownout (R418-R422) -/

/-- A rail's monitor sees it below its warning level: it runs in every phase, frozen too, and shows what it sees wherever registers
are not held in reset (R440). -/
def State.noteLow (s : State) (r mv : Nat) : State :=
  let s1 := if s.phase == .reset then s else (s.put (F.PWR_RAIL_MV r) mv).putB (F.PWR_RAIL_BELOW_WARN r) true
  { s1 with power := { s1.power with lowRails := if s.power.lowRails.contains r then s.power.lowRails else r :: s.power.lowRails } }

/-- RAIL_WARN_CROSS: a window opens or goes on, the clocks stretch; a further fall inside a dip deepens it. -/
def State.railFalls (s : State) (r mv : Nat) : State :=
  let now := s.clk.real
  let s2 := s.noteLow r mv
  let s3 := match s.dip r with
    | none => (s2.setDip r (some { low := mv, below := true, since := now, first := s.nowReg })).bumpSat (F.PWR_RAIL_WINDOWS r)
    | some d => s2.setDip r (some { d with low := min d.low mv, below := true, since := if d.below then d.since else now })
  let s4 := s3.setClocks.flagStroke
  if s4.clk.num < s4.clk.den then
    let s5 := s4.istAbortAll 1 s4.coreMHz
    if s.phase == .bist && !s.on F.PWR_BIST_STATUS_REFUSED_RANGE then
      (s5.putB F.PWR_BIST_STATUS_REFUSED_RANGE true).rangeEvent 1 s4.coreMHz
    else s5
  else s4

/-- The core clocks run: not in reset, in the safe state or frozen (R432, R439, R450). -/
def State.clocksRun (s : State) : Bool := s.phase != .reset && s.phase != .safe && !s.frozen

def execRailWarnCross (rail : Fin 9) (mv : Nat) (s : State) : Res :=
  .next (if !s.belowWarn rail mv || s.atReset rail mv then s
    else if s.clocksRun then s.railFalls rail mv else s.noteLow rail mv)

/-- RAIL_ABOVE_WARNING. -/
def State.railRises (s : State) (r mv : Nat) : State :=
  let s1 := if s.phase == .reset then s else (s.put (F.PWR_RAIL_MV r) mv).putB (F.PWR_RAIL_BELOW_WARN r) false
  let now := s.clk.real
  let s2 := { s1 with power := { s1.power with
    lowRails := s.power.lowRails.filter (· != r), roseAt := if s.power.lowRails.contains r then now else s.power.roseAt } }
  match s.dip r with
  | some d => if d.below then s2.setDip r (some { d with below := false, since := now, total := d.total + (now - d.since) }) else s2
  | none => s2

def execRailAboveWarning (rail : Fin 9) (mv : Nat) (s : State) : Res :=
  .next (if s.belowWarn rail mv then s else s.railRises rail mv)

/-- BROWNOUT_HALVING: VDD_CORE or VDD_SRAM is still below its warning level 2 µs after it crossed (R420). -/
def State.halve (s : State) (r : Nat) : State :=
  match s.dip r with
  | none => s
  | some d =>
    if 2 ≤ r || !d.below || d.halved then s
    else match s.reachReal (d.since + 5000) with
      | none => s
      | some s1 => (s1.setDip r (some { d with halved := true })).setClocks

def execBrownoutHalving (rail : Fin 9) (s : State) : Res := .next (if s.clocksRun then s.halve rail else s)

/-- BROWNOUT: 50 µs above the warning level the window closes, full rate returns, and the event is raised (R421, R422). -/
def State.closeWindow (s : State) (r : Nat) : State :=
  match s.dip r with
  | none => s
  | some d =>
    if d.below then s
    else match s.reachReal (d.since + 125000) with
      | none => s
      | some s1 =>
        let s2 := (s1.setDip r none).setClocks
        s2.raise 0x0901 (payload 16 [(0, 1, r), (1, 1, depthOf (s1.setPoint r) d.low), (4, 4, sat32 (d.total * 2 / 5)), (8, 8, d.first)])
          [payload 32 [(0, 8, s1.nowReg)]]

def execBrownout (rail : Fin 9) (s : State) : Res := .next (if s.clocksRun then s.closeWindow rail else s)

/-- The lands without VDD_IO 1.8 V, rail 7: open-drain outputs are released, VID and VID_OK are low (R458, R462, R468). -/
def State.padsOff (s : State) (r : Nat) : State :=
  if r = 7 then { s with pins := { s.pins with alertHeld := false, aprHeld := 0, vid := none } } else s

/-- RAIL_RESET_LEVEL: every pair to bypass, internal reset with cause 4, held until every rail has been above its warning level for
10 ms (R423). -/
def State.railReset (s : State) (r mv : Nat) : State :=
  let low := match s.dip r with
    | some d => min d.low mv
    | none => mv
  let rails := if s.power.lowRails.contains r then s.power.lowRails else r :: s.power.lowRails
  if s.phase == .reset then { s with power := { s.power with lowRails := rails, holdRails := true } }.padsOff r
  else
    let s1 := ((s.resetWith 4 .reset).put F.PWR_RESET_CAUSE_RAIL r).put F.PWR_RESET_CAUSE_DEPTH (depthOf (s.setPoint r) low)
    { s1 with power := { s1.power with lowRails := rails, holdRails := true } }.padsOff r

def execRailResetLevel (rail : Fin 9) (mv : Nat) (s : State) : Res :=
  .next (if s.atReset rail mv then s.railReset rail mv else s)

/-- VDDC_SET_MOVE: health firmware moves the VDD_CORE set point by at most 5 mV per 10 ms, within ±20 mV of the fused one and within
0.60-0.80 V; VID follows (R409, R458). -/
def State.moveSet (s : State) (mv : Nat) : State :=
  let old := s.coreSet
  let due : Bool := match s.power.moved with
    | some (_, t) => decide (t + 25000000 ≤ s.clk.real)
    | none => true
  if !due || mv < 600 || 800 < mv || mv % 5 != 0 || mv + 20 < s.nv.coreMv || s.nv.coreMv + 20 < mv || mv + 5 < old || old + 5 < mv then s
  else
    let s1 := s.put F.PWR_VDDC_SET_SET_MV mv
    { s1 with power := { s1.power with moved := some (old, s.clk.real) }, pins := { s1.pins with vid := some (vidCode mv) } }

def execVddcSetMove (mv : Nat) (s : State) : Res :=
  whenLive s fun s => if s.coreState 7 = 1 then s.moveSet mv else s

/-! ## The power clamp (R45, R46) -/

/-- One measurement of package power: the clamp's step, ALERT_N with valve 5, and the rails as measured (R45, R46, R402); in-service
steps end with VDD_CORE out of their range (R425). DESIGN CHOICE (log 33): a power above 1,023 W is clamped on as measured and
shows as 1,023 in PWR_NOW. -/
def State.measurePower (s : State) (w : Nat) (rails : List Nat) : State :=
  let p := s.power
  let limit := s.get F.PWR_LIMIT_WATTS
  let f := s.get F.PWR_STATUS_ARRAY_FRACTION
  let above := limit < w
  let low := 100 * w < 97 * limit
  let n97 := if low then p.below97 + 1 else 0
  let under := if w < limit then p.underLimit + 1 else 0
  let f1 := if above then max 1 (f - 1) else if n97 % 10 = 0 && low then min 8 (f + 1) else f
  let eighth := if f1 = 1 && above then some (p.eighthFrom.getD s.clk.cycle) else none
  let s1 := { s with
    power := { p with measured := s.clk.cycle, below97 := n97, underLimit := under, eighthFrom := eighth }
    clk := { s.clk with lowest := min s.clk.lowest f1 } }
  let shown := min 1023 w
  let s2 := ((s1.put F.PWR_STATUS_ARRAY_FRACTION f1).put F.PWR_NOW_WATTS shown).put F.PWR_NOW_PEAK (max shown (s.get F.PWR_NOW_PEAK))
  let s3 := (List.range 9).foldl (fun t r => match rails[r]? with
    | some v => State.put t (F.PWR_RAIL_MV r) v
    | none => t) s2
  let long : Bool := match eighth with
    | some t => decide (t + 50000 ≤ s.clk.cycle)
    | none => false
  let s4 := if above && long && !s.on F.PWR_STATUS_ALERT then (s3.putB F.PWR_STATUS_ALERT true).trip 5 0 w
    else if 1000 ≤ under then s3.putB F.PWR_STATUS_ALERT false else s3
  match rails[0]?.bind s4.outOfRange with
  | some (q, v) => s4.istAbortAll q v
  | none => s4

/-- POWER_MEASUREMENT: at the next multiple of 2,500 core cycles after the last one (R45). -/
def State.nextMeasurement (s : State) : Nat := max (s.power.measured + 2500) (2500 * ceilDiv s.clk.cycle 2500)

def execPowerMeasurement (watts : Nat) (rails : List Nat) (s : State) : Res :=
  whenLive s fun s => match s.reach s.nextMeasurement with
    | none => s
    | some s1 => s1.measurePower watts rails

/-! ## Heat (R431, R432) -/

/-- JUNCTION_SAMPLE: PWR_TJ, and THERMAL_WARN as the temperature rises through PWR_TWARN; it rearms 5 °C below (R431). The sensors
run while the 880 is frozen, and raise no event then (R440). A temperature below 0 °C is two's complement (PRESUMED, log 29). -/
def State.sample (s : State) (tj : Nat) : State :=
  let level := s.get F.PWR_TWARN_LEVEL
  let t := sInt 16 tj
  let above : Bool := decide ((level : Int) < t)
  let warned := above || (s.power.warned && decide ((level : Int) < t + 50))
  let s1 := { s with power := { s.power with tj := tj, warned := warned } }
  if s.phase == .reset then s1
  else
    let s2 := ((s1.put F.PWR_TJ_NOW tj).put F.PWR_TJ_MAX (if sInt 16 (s.get F.PWR_TJ_MAX) < t then tj else s.get F.PWR_TJ_MAX)).putB F.PWR_STATUS_TWARN above
    if above && !s.power.warned && !s.frozen && s.phase != .safe then s2.raise 0x0904 (payload 16 [(0, 2, tj)]) else s2

def execJunctionSample (tenths : BitVec 16) (s : State) : Res := .next (s.sample tenths.toNat)

/-- Every pair not in bypass is driven there, for a cause. -/
def State.allToBypass (s : State) (cause reason : Nat) : State :=
  (List.range 12).foldl (fun t p => State.leavePair t p cause reason) s

/-- THERMAL_TRIP: the safe state (R48, R432): pairs to bypass with cause 3, VALVE_TRIP if the ring can take it, clocks stopped, READY
dropped, ALERT_N asserted. Frozen, the pairs still move, and no event is written (R450). -/
def State.thermalTrip (s : State) (tj : Nat) : State :=
  let s1 := (s.sample tj).allToBypass 3 1
  let s2 := if s.frozen then s1 else s1.raise 0x0801 (tripPayload 6 0 0)
  { ((s2.putB F.GLB_STATUS_READY false).putB F.PWR_STATUS_ALERT true) with phase := .safe }

def execThermalTrip (tenths : BitVec 16) (s : State) : Res :=
  .next (if s.phase == .reset || s.phase == .safe || sInt 16 tenths.toNat < 1150 then s else s.thermalTrip tenths.toNat)

/-! ## Clocks (R463, R468) -/

/-- A fault reset: cause 7, bypass latched (R414). -/
def State.faultReset (s : State) : State := s.resetWith 7 .startup

/-- CLK_REF_LOSS: a fault reset, held until the clock has been within tolerance for 10 ms. -/
def State.clockLost (s : State) : State :=
  let s1 := if s.phase == .reset then s else { s.faultReset with phase := .reset }
  { s1 with power := { s1.power with clkRef := false, holdClock := true } }

def execClkRefLoss (s : State) : Res := .next s.clockLost

def execClkRefRestored (s : State) : Res :=
  .next (if s.power.clkRef then s else { s with power := { s.power with clkRef := true, clkAt := s.clk.real } })

/-- PE_REFCLK_LOSS: the PCI Express link goes down; the rest carries on (R468). -/
def execPeRefclkLoss (s : State) : Res :=
  let s1 := ((s.put F.GLB_CAP_PCIE_RATE 0).put F.GLB_CAP_PCIE_WIDTH 0).put F.GLB_CAP_FLIT 0
  .next { s1 with host := { s1.host with config := { s1.host.config with refClock := false } } }

/-- DBG_CLK_LOSS: the DBG block, the capture port and the management endpoint stop answering (R468). -/
def execDbgClkLoss (s : State) : Res := .next { s with dbgClock := false }

end Sys2Proof.Machine
end

