-- ==== Sys2Proof/Machine/SelfTest.lean ====
section
/-! DEFINITION. Start-up, power-up and full BIST, the in-service test (R384-R386, R415-R417, R424-R430). -/

namespace Sys2Proof.Machine

/-! ## BIST results (R425-R427) -/

/-- Status and log cleared at the start of a BIST (R427). -/
def State.bistClear (s : State) : State :=
  (List.range 16).foldl (fun t i => State.setWord t (R.PWR_BIST_LOG i) 0) (s.setWord R.PWR_BIST_STATUS 0)

/-- A failure entered in the log. -/
def State.bistLog (s : State) (kind unit : Nat) (absorbed : Bool) : State :=
  let n := s.get F.PWR_BIST_STATUS_ENTRIES
  if 16 ≤ n then s.putB F.PWR_BIST_STATUS_OVERFLOW true
  else
    ((((s.put (F.PWR_BIST_LOG_KIND n) kind).put (F.PWR_BIST_LOG_INSTANCE n) unit).putB (F.PWR_BIST_LOG_ABSORBED n) absorbed).putB
      (F.PWR_BIST_LOG_VALID n) true).put F.PWR_BIST_STATUS_ENTRIES (n + 1)

/-- A unit that the power-up BIST finds faulty is absorbed, or answers false (R426). -/
def State.absorb (s : State) (kind unit : Nat) : State × Bool :=
  match kind with
  | 1 =>
    let st := s.get (F.MX_TILE_STATE unit)
    let s1 := s.put (F.MX_TILE_STATE unit) 2
    (if 68 ≤ unit || st = 4 then s
     else if st = 0 then s1.applySwap ⟨s.get (F.MX_TILE_LOGICAL unit), s1.freeSpares.head?, 0, true⟩ else s1, true)
  | 2 =>
    let out := s.putB ⟨R.WH_TG_STATUS, unit % 25, 1⟩ false
    (match s.groupLane unit with
     | some l =>
       if s.on F.WH_TG_SPARE_NONE then out.setLane l false
       else
         let g := s.get F.WH_TG_SPARE_GROUP
         (({ out with banks := { out.banks with laneGroup := sset l out.banks.laneGroup l g } }).putB
           ⟨R.WH_TG_STATUS, g, 1⟩ true).putB F.WH_TG_SPARE_NONE true
     | none => if unit = s.get F.WH_TG_SPARE_GROUP then out.putB F.WH_TG_SPARE_NONE true else s, true)
  | 3 => ((s.putB (F.MX_VEC_STATUS_FAILED (unit % 16)) true).putB (F.MX_PART_STATUS_FAILED (unit % 16)) true, true)
  | 4 =>
    let s1 := s.setLane (unit % 24) false
    (s1, 20 ≤ countIf (fun l => bit (s1.raw R.WH_LANES) l) (List.range 24))
  | 5 =>
    let left := s.get (spareFld (unit % 2048 / 128))
    if left = 0 then (s, false)
    else ((s.modBank (unit % 2048) fun k => { k with spare := true }).put (spareFld (unit % 2048 / 128)) (left - 1), true)
  | 6 => if unit = 0 || 8 ≤ unit then (s, false) else (s.setCore unit 4, true)
  | _ => (s, false)

/-- Every finding of the power-up BIST, and whether all were absorbed. -/
def State.absorbAll (s : State) (fs : List (Nat × Nat)) : State × Bool :=
  fs.foldl (fun (acc : State × Bool) (kind, unit) =>
    let (t, ok) := acc
    let (t1, good) := t.absorb kind unit
    (t1.bistLog kind unit good, ok && good)) (s, true)

/-! ## Start-up (R415-R417) -/

/-- Step 1: what fuses, straps and calibration give the registers (R12, R395, R456), and lines that are released (R462). -/
def State.loadFuses (s : State) (f : Findings) : State :=
  let lc := s.nv.lifecycle
  let s1 := { s with pins := { s.pins with alertHeld := false, aprHeld := 0, smbAddr := f.smbAddr } }
  let s2 := (((((s1.put F.GLB_STATUS_STAGE 1).put F.GLB_STATUS_LIFECYCLE lc).put F.GLB_ID_STEPPING s.nv.stepping).put64
    R.GLB_SERIAL_LO s.nv.serial).putB F.HIF_BAR4_CTRL_ENABLE (lc != 2 && lc != 4)).putB F.DBG_CTRL_CAPTURE_EN (lc != 2)
  let s3 := ((s2.put F.RV_STRAPS f.laGroups).put F.PWR_VDDC_SET_SET_MV s.nv.coreMv).put F.PWR_VDDC_SET_FUSED_MV s.nv.coreMv
  let s4 := (s3.putB F.SEC_OWNER_STATUS_ENROLLED s.nv.owner.isSome).newNonce
  let s5 := (List.range 8).foldl (fun t i => State.put t (F.SEC_ID_PUB i) (fieldAt s.nv.idPub (4 * i) 4)) s4
  let s6 := (List.range 40).foldl (fun t n => State.put64 t (R.LK_MAC_LO n) (sget 0 s.nv.macs n % 2 ^ 48)) s5
  let s7 := (List.range 9).foldl (fun t r => State.put t (F.PWR_RAIL_MV r) (f.rails.getD r 0)) s6
  ((s7.put F.GLB_CAP_PCIE_RATE f.pcie.rate).put F.GLB_CAP_PCIE_WIDTH f.pcie.width).putB F.GLB_CAP_FLIT f.pcie.flit

/-- Calibrated seeds, whose values are left open (R126, R144). -/
def State.loadSeeds (s : State) : State :=
  let (a, s1) := s.free
  let (b, s2) := s1.free
  let (c, s3) := s2.free
  ((s3.put F.WH_FT_SEEDB a).put F.WH_FT_SEEDF b).put F.WH_SND_SEED c

/-- Tiles, tree groups, header lanes and spare banks as manufactured: logical tile l on the l-th good physical tile. -/
def State.loadUnits (s : State) : State :=
  let good := (List.range 68).filter fun t => !s.nv.fusedOut.contains t
  let s1 := (s.nv.fusedOut.filter (· < 68)).foldl (fun t i => State.put t (F.MX_TILE_STATE i) 4) s
  let s2 := (good.drop 64).foldl (fun t i => State.put t (F.MX_TILE_STATE i) 1) s1
  let s3 := (List.range 64).foldl (fun (t : State) l => match good[l]? with
    | some p => (t.put (F.MX_REMAP_PHYS l) p).put (F.MX_TILE_LOGICAL p) l
    | none => (t.putB (F.MX_REMAP_VACANT l) true).putB ⟨R.MX_PART_STATUS (l / 4), 8 + l % 4, 1⟩ true) s2
  let s4 := (List.range 16).foldl (fun t p =>
    State.put t (F.MX_PART_STATUS_TILES p) (countIf (fun i => decide (4 * p + i < good.length)) (List.range 4))) s3
  let s5 := ((s4.put F.WH_LANES_IN_SERVICE 0xFFFFFF).put F.WH_TG_STATUS_IN_SERVICE 0xFFFFFF).put F.WH_TG_SPARE_GROUP 24
  (List.range 16).foldl (fun t b => State.put t (spareFld b) 4) s5

/-- Step 1's end: every core runs its module, cold, and the function tables are installed (R385, R262). -/
def State.startCores (s : State) : State :=
  let s1 := { s with sec := { s.sec with loader := modBody (sget [] s.nv.slots 8) } }
  let s2 := (List.range 8).foldl (fun t c => State.runCore t c (sget [] s.nv.slots c) (zeros 65536)) s1
  let (v, s3) := s2.free
  (s3.put F.SEC_BOOT_STATUS_STAGE 3).put F.MX_VEC_FNVER_VERSION (v % 65535 + 1)

/-- Step 3: every Cistern word, code row and spare word zero with correct codes, but for damaged cells (R335). -/
def State.zeroCistern (s : State) : State :=
  let k := s.mems.cis.stuck
  { s with mems := { s.mems with cis := { errs := k, stuck := k }, bufs := [] } }

/-- A channel's training: whether it succeeded, and its attempts, from 1 to 3; one that fails has made three (R333). -/
def State.trainChannel (s : State) (f : Findings) (c : Fin 48) : State :=
  let ok := !f.channels.contains c
  (s.putB (F.AQ_CHAN_TRAINED c) ok).put (F.AQ_CHAN_ATTEMPTS c) (if ok then 1 + f.attempts.getD c 0 % 3 else 3)

/-- Step 4: channels that do not train are retired, the others zero with correct codes (R333, R334). -/
def State.trainAquifer (s : State) (f : Findings) : State :=
  let k := s.mems.aq.stuck
  let s1 := (List.finRange 48).foldl (fun t c => State.trainChannel t f c)
    { s with mems := { s.mems with aq := { errs := k, stuck := k } } }
  (f.channels.map (·.val)).foldl (fun t c => State.retireChannel t c) s1

/-- Step 5: the rings of every link whose inlet is not LOW (R349, R352). -/
def State.calibrate (s : State) (f : Findings) : State :=
  let s1 := (List.range 10).foldl (fun t i => State.setInlet t i (f.inlets.getD i 0)) s
  let lit (n : Nat) : Bool := !s1.on (F.LK_INLET_LOW (inletOf n))
  let s2 := (List.range 40).foldl (fun t n => if lit n then State.setCodes t n (f.codes.getD n []) else t) s1
  f.rings.foldl (fun t (n, w, rx) => if lit n then State.laneFail t n w (.ring rx) else t) s2

/-- Step 6: a link that fails its self-check has every wavelength marked. -/
def State.selfCheck (s : State) (fails : List (Fin 40)) : State :=
  (fails.map (·.val)).foldl (fun t n => if s.on (F.LK_INLET_LOW (inletOf n)) then t
    else (State.put t (F.LK_LANE_CAL_FAIL n) 255).put (F.LK_LANE_DARK n) 255) s

/-- Steps 3 to 7. -/
def State.finishStartup (s : State) (f : Findings) : State :=
  let s3 := (s.put F.GLB_STATUS_STAGE 3).zeroCistern
  let s4 := (s3.put F.GLB_STATUS_STAGE 4).trainAquifer f
  let s5 := (s4.put F.GLB_STATUS_STAGE 5).calibrate f
  let s6 := (s5.put F.GLB_STATUS_STAGE 6).selfCheck f.links
  { ((s6.put F.GLB_STATUS_STAGE 7).putB F.GLB_STATUS_READY true).showTiles with phase := .ready }

/-- Step 2: the power-up BIST (R425, R426). -/
def State.powerUpBist (s : State) (f : Findings) : State :=
  let s1 := (s.put F.GLB_STATUS_STAGE 2).bistClear
  if !f.inRange then ((s1.putB F.PWR_BIST_STATUS_RANGE true).put F.PWR_BIST_STATUS_RESULT 3).holdAt 2
  else
    let (s2, ok) := s1.absorbAll f.failed
    if ok then (s2.put F.PWR_BIST_STATUS_RESULT (if f.failed.isEmpty then 1 else 2)).finishStartup f
    else (s2.put F.PWR_BIST_STATUS_RESULT 3).holdAt 2

/-- Start-up from the release of internal reset. -/
def State.startup (s : State) (f : Findings) : State :=
  let s1 := ((s.loadFuses f).loadSeeds).loadUnits
  if s1.nv.lifecycle = 4 then s1.holdAt 1
  else match s1.badSlot with
    | some (role, reason) => s1.enterRecovery role reason
    | none => s1.startCores.powerUpBist f

/-- STARTUP: the start-up steps, once internal reset is released; 2.49 s at most. -/
def execStartup (found : Findings) (s : State) : Res :=
  .next (match s.release with
  | none => s
  | some s1 =>
    let n := min found.cycles 6225000000
    if s.frozen || !s1.canElapse n then s else (s1.elapse n).startup found)

/-! ## Full BIST (R424, R425, R427) -/

/-- Every queue's running command and the rest of its list end ABORTED. -/
def State.abortQueue (s : State) (q : Nat) : State :=
  match (s.q q).cur with
  | some r => (s.modQ q fun Q => { Q with stopping := true }).complete q Status.aborted r.charged
  | none => (s.restOfList q Status.aborted).haltCheck q

/-- A full BIST starts: pairs to bypass with cause 4, links dark, queues ended. -/
def State.startBist (s : State) : State :=
  let s1 := (s.allToBypass 4 3)
  let s2 := (List.range 40).foldl (fun t n => State.linkDown t n 3) s1
  let s3 := (List.range 80).foldl (fun t q => if (State.q t q).active then State.abortQueue t q else t) s2
  let s4 := (s3.bistClear.putB F.PWR_BIST_STATUS_RUNNING true).putB F.PWR_BIST_STATUS_FULL true
  { s4 with phase := .bist }

def State.requestBist (s : State) (coreMv : Nat) : State :=
  let lc := s.get F.GLB_STATUS_LIFECYCLE
  if s.phase == .bist then s
  else if lc = 2 || lc = 4 then s.putB F.PWR_BIST_STATUS_REFUSED_LC true
  else match s.outOfRange coreMv with
    | some (q, v) => (s.putB F.PWR_BIST_STATUS_REFUSED_RANGE true).rangeEvent q v
    | none => s.startBist

/-- FULL_BIST_REQUEST. -/
def execFullBistRequest (key : Word) (coreMv : Nat) (s : State) : Res :=
  whenHost s R.PWR_BIST_CTRL fun s =>
    if key = 0xB1570880#32 && s.phase != .safe then s.requestBist coreMv else s

/-- Whether a failure is one that can be absorbed (R426). -/
def absorbable (kind unit : Nat) : Bool := kind ≤ 5 || (kind == 6 && unit != 0)

/-- FULL_BIST_END: the results, then an internal reset with cause 6, which they survive. -/
def State.endBist (s : State) (failed : List (Nat × Nat)) (coreMv : Nat) : State :=
  if s.phase != .bist || s.frozen then s
  else
    let s1 := match s.outOfRange coreMv with
      | some (q, v) =>
        if s.on F.PWR_BIST_STATUS_REFUSED_RANGE then s
        else (s.putB F.PWR_BIST_STATUS_REFUSED_RANGE true).rangeEvent q v
      | none => s
    let s2 := if s1.on F.PWR_BIST_STATUS_REFUSED_RANGE then s1
      else
        let t := failed.foldl (fun t (k, u) => State.bistLog t k u (absorbable k u)) s1
        t.put F.PWR_BIST_STATUS_RESULT
          (if failed.isEmpty then 1 else if failed.all fun (k, u) => absorbable k u then 2 else 3)
    s2.resetWith 6 .startup

def execFullBistEnd (failed : List (Nat × Nat)) (coreMv : Nat) (s : State) : Res := .next (s.endBist failed coreMv)

/-! ## In-service test (R357, R428-R430) -/

/-- Core cycles of a unit's test at least (R428); a slice has at most 50 µs and no least length. -/
def istCycles : IstUnit → Nat
  | .tile _ => 50000000
  | .group _ => 12500000
  | .bank _ => 125000000
  | .headerLane _ => 2500000
  | .linkLane _ _ => 25000000
  | .slice _ => 0

/-- A unit may leave service for its test now (R357, R428, R429), while CC7, which schedules the tests, has not been stopped (R379,
R394). -/
def State.istReady (s : State) (u : IstUnit) : Bool :=
  s.tended 7 && match u with
  | .tile t =>
    let st := s.get (F.MX_TILE_STATE t)
    (st == 1 && s.freeSpares.contains t.val) || (st == 0 && s.matrix.mirror.isNone && !s.freeSpares.isEmpty)
  | .group g => !s.on F.WH_TG_SPARE_NONE && s.banks.spareFor.isNone
      && ((s.groupLane g).isSome || s.get F.WH_TG_SPARE_GROUP == g.val)
  | .bank b => (s.bank b).retireFrom.isNone && 0 < s.sparesFree (b / 128)
  | .headerLane l => s.raw R.WH_LANES % 2 ^ 24 == 0xFFFFFF && !(s.intake.passes.any fun p => p.lane == l.val)
  | .linkLane n w => s.linkUp n && !bit (s.dark n) w
      && (if s.on (F.LK_CTRL_PERS n) then s.get (F.LK_STATUS_RATE_NOW n) == 3 else !bit (s.link n).use w)
  | .slice b => match sget (0, 0) s.power.aborts b with
    | (n, at_) => n == 0 || at_ + 2500000 ≤ s.clk.cycle

/-- A unit leaves service. -/
def State.istTake (s : State) (u : IstUnit) : State :=
  let run : IstRun := { unit := u, since := s.clk.cycle }
  let s1 := { s with power := { s.power with tests := run :: s.power.tests } }.putB ⟨R.PWR_IST_STATUS, istBit u, 1⟩ true
  match u with
  | .tile t =>
    if s.get (F.MX_TILE_STATE t) = 0 then
      let m : TileMirror := { logical := s.get (F.MX_TILE_LOGICAL t), spare := s.freeSpares.headD 0, since := s.clk.cycle }
      { s1 with matrix := { s1.matrix with mirror := some m } }.put (F.MX_TILE_STATE t) 3
    else s1
  | .group g => match s.groupLane g with
    | some l =>
      let s2 := (s1.putB ⟨R.WH_TG_STATUS, g, 1⟩ false).setLane l false
      { s2 with banks := { s2.banks with spareFor := some l } }.failPasses l
    | none => s1
  | .bank _ => s1
  | .headerLane l => s1.setLane l false
  | .linkLane n w =>
    if s.on (F.LK_CTRL_PERS n) then
      let mask := (s.link n).use - 2 ^ w.val
      ((s1.put (F.LK_STATUS_RATE_NOW n) 4).put (F.LK_LANE_IN_USE n) mask).modLink n fun l => { l with use := mask }
    else s1
  | .slice _ => s1

/-- A unit's test can end: its length has passed, and a mirrored tile has been replaced by its spare. -/
def State.istOver (s : State) (u : IstUnit) : Bool :=
  match u with
  | .tile t => s.get (F.MX_TILE_STATE t) != 3
  | .group _ => s.banks.spareFor.isNone
  | _ => true

/-- The tested bank's place is taken by its mirror; the tested bank is a spare, or is lost (R428, R430). -/
def State.bankSwap (s : State) (b : Nat) : State :=
  (s.bankCopy b).modBank b fun _ => { spare := true }

/-- BIST_FAIL, then the unit's own rule (R430). -/
def State.istFail (s : State) (u : IstUnit) : State :=
  let ev (kind unit : Nat) : State := (s.raise 0x0903 (payload 16 [(0, 1, kind), (1, 2, unit)])).istEnd u
  match u with
  | .tile t => (ev 1 t).tileDies t
  | .group g =>
    let s1 := ev 2 g
    if s1.get F.WH_TG_SPARE_GROUP = g && !s1.on F.WH_TG_SPARE_NONE then s1.groupFail g else s1.unitFailed 2 g 2 0
  | .bank b =>
    let s1 := (ev 5 b).bankSwap b
    let left := s1.get (spareFld (b / 128)) - 1
    (s1.put (spareFld (b / 128)) left).unitFailed 5 b 1 left
  | .headerLane l => (ev 4 l).unitFailed 4 l 2 0
  | .linkLane n w =>
    -- UNIT_FAILED has no kind for a lane: the kind is left open
    let (k, s1) := s.free
    (((s1.raise 0x0903 (payload 16 [(0, 1, k), (1, 2, n)])).istEnd u).laneBack n).darken n w
  | .slice b =>
    if 3 ≤ b.val then (ev 3 (b - 3)).vectorFail (b - 3)
    else (ev (7 + b) 0).faultReset

/-- Every unit of the rotation. -/
def istUnits : List IstUnit :=
  (List.finRange 68).map .tile ++ (List.finRange 25).map .group ++ (List.finRange 2048).map .bank
    ++ (List.finRange 24).map .headerLane ++ ((List.finRange 40).flatMap fun n => (List.finRange 8).map fun w => .linkLane n w)
    ++ (List.finRange 19).map .slice

/-- A unit counts as tested; with every unit that can be tested covered, a rotation is complete (R428). -/
def State.istCover (s : State) (u : IstUnit) : State :=
  let cs := u :: s.power.covered
  if istUnits.all fun v => cs.contains v || !s.istReady v then
    { s with power := { s.power with covered := [] } }.bump F.PWR_IST_STATUS_ROTATIONS
  else { s with power := { s.power with covered := cs } }

/-- IST_STEP: a unit whose class is free leaves service for its test; one that is under test ends it, and returns or fails. -/
def State.istStep (s : State) (u : IstUnit) (fault : Bool) (coreMv : Nat) : State :=
  if !s.on F.PWR_IST_CTRL_EN then s
  else match s.outOfRange coreMv with
    | some (q, v) =>
      if s.power.tests.isEmpty then s.istRange q v else s.istAbortAll q v
    | none => match s.istTest u with
      | none => if s.istReady u then s.istTake u else s
      | some t =>
        if t.unit != u || !s.istOver u then s
        else match s.reach (t.since + istCycles u) with
          | none => s
          | some s1 =>
            if fault then s1.istFail u
            else
              let s2 := match u with
                | .bank b => s1.bankSwap b
                | .slice b => { s1 with power := { s1.power with aborts := sset (0, 0) s1.power.aborts b (0, 0) } }
                | _ => s1
              (s2.istReturn u).istCover u

def execIstStep (unit : IstUnit) (fault : Bool) (coreMv : Nat) (s : State) : Res :=
  whenLive s fun s => s.istStep unit fault coreMv

/-- IST_SLICE_ABORT: the request is served; a block aborted 1,000 times in a row is skipped for the rotation (R429). -/
def State.sliceAbort (s : State) (b : Fin 19) : State :=
  match s.istTest (.slice b) with
  | none => s
  | some t =>
    if t.unit != .slice b then s
    else
      let n := (sget (0, 0) s.power.aborts b).1 + 1
      let s1 := s.istReturn t.unit
      let set (v : Nat × Nat) : State := { s1 with power := { s1.power with aborts := sset (0, 0) s1.power.aborts b v } }
      if 1000 ≤ n then ((set (0, 0)).putB F.PWR_IST_STATUS_STARVED true).istCover t.unit else set (n, s.clk.cycle)

def execIstSliceAbort (block : Fin 19) (s : State) : Res := whenLive s fun s => s.sliceAbort block

end Sys2Proof.Machine
end

