-- ==== Sys2Proof/Machine/Freeze.lean ====
section
/-! DEFINITION. Freezing (R437-R442, R450). -/

namespace Sys2Proof.Machine

/-- A freeze is accepted: from step 1 of start-up on, not in RETIRED, and only the first (R437, R438). -/
def State.freezable (s : State) : Bool :=
  s.phase != .reset && !s.retiredHold && !s.frozen && s.dbg.preFrom.isNone

/-- The clocks stop: 8 core cycles after the source, or after the pre-freeze step (R439). -/
def State.stopClocks (s : State) : State :=
  let s1 := if s.phase == .safe then s else s.elapse 8
  let s2 := ((((s1.putB F.GLB_STATUS_FROZEN true).putB F.DBG_STATUS_FROZEN true).putB F.DBG_STATUS_PRE false).putB
    F.GLB_STATUS_READY false).putB F.PWR_BIST_STATUS_RUNNING false
  let s3 := (s2.put64 R.DBG_FREEZE_TIME_LO s2.clk.time).put64 R.DBG_FREEZE_STROKE_LO s2.nowReg
  { s3 with trigger := false, dbg := { s3.dbg with preFrom := none, frozenRegs := s3.regs, seq := 0 } }

/-- A source acts: the clocks stop, or the pre-freeze step starts (R439, R442). -/
def State.freeze (s : State) (source : Nat) : State :=
  if !s.freezable then { s with trigger := false }
  else
    let s1 := s.put F.DBG_STATUS_SOURCE source
    if s.on F.DBG_CTRL_PREBYPASS && s.phase != .safe then
      let s2 := (List.range 12).foldl (fun t p =>
        if 1 ≤ t.get (F.LK_PAIR_STATUS_STATE p) && t.get (F.LK_PAIR_STATUS_STATE p) ≤ 3 then State.leavePair t p 5 4 else t) s1
      { s2.putB F.DBG_STATUS_PRE true with trigger := false, dbg := { s2.dbg with preFrom := some s.clk.cycle } }
    else s1.stopClocks

def execFreezePin (s : State) : Res := .next (if s.on F.DBG_CTRL_PIN_EN then s.freeze 1 else s)
def execFreeze (s : State) : Res := whenWritable s R.DBG_CTRL fun s => s.freeze 2
def execFreezeEventTrigger (s : State) : Res := .next (if s.trigger then s.freeze 3 else s)

/-- PREFREEZE_END: 100 µs after the source the links still up go down with reason 4, and the clocks stop (R442). -/
def State.endPrefreeze (s : State) : State :=
  match s.dbg.preFrom with
  | none => s
  | some c0 => match (if s.phase == .safe then some s else s.reach (c0 + 250000)) with
    | none => s
    | some s1 => ((List.range 40).foldl (fun t n => State.linkDown t n 4) s1).stopClocks

def execPrefreezeEnd (s : State) : Res := .next (if s.frozen || s.phase == .reset then s else s.endPrefreeze)

end Sys2Proof.Machine
end

