-- ==== Sys2Proof/Machine/Luapo.lean ====
section
/-! DEFINITION. The Luapo fabric: flits, credit, retry, messages, routes, delay and stroke markers (R365-R377), and the Pump's COPY
and TRANSPOSE (R75-R77, R286, R287). -/

namespace Sys2Proof.Machine

def State.lua (s : State) (n : Nat) : Luapo := sget {} s.luapo n

def State.modLua (s : State) (n : Nat) (f : Luapo → Luapo) : State := { s with luapo := smod {} s.luapo n f }

/-- A link that carries flits: Luapo, its pair joined to it, in INIT or UP. -/
def State.flitLink (s : State) (n : Nat) : Bool :=
  s.on (F.LK_CTRL_PERS n) && (24 ≤ n || s.joined n) && (s.linkUp n || s.get (F.LK_STATUS_STATE n) == 3)

def State.luaUp (s : State) (n : Nat) : Bool := s.flitLink n && s.linkUp n

/-! ## Sending (R367, R370, R371) -/

/-- The 256 bytes of a flit. -/
def flitBytes (type vc seq ack crvc credits poison : Nat) (first last : Bool) (body : List Byte) : List Byte :=
  let h := type + 2 ^ 4 * vc + 2 ^ 6 * seq + 2 ^ 18 * ack + 2 ^ 30 * crvc + 2 ^ 32 * credits + 2 ^ 40 * poison
    + 2 ^ 55 * b2n first + 2 ^ 56 * b2n last
  let bs := natBytes 8 h ++ padTo 240 body
  bs ++ natBytes 8 (crc64 bs)

/-- A flit as it goes out: with the last SEQ received in order and the next credit count. -/
def Luapo.flit (l : Luapo) (type vc seq poison : Nat) (first last : Bool) (body : List Byte) : List Byte :=
  flitBytes type vc seq ((l.rxSeq + 4095) % 4096) l.crvc (sget 0 l.freed l.crvc % 256) poison first last body

/-- A flit enters the lane coder; codewords that it fills leave (R365). -/
def State.codeFlit (s : State) (n : Nat) (bs : List Byte) : State :=
  let (out, c) := (s.link n).coder.push (s.on (F.LK_CTRL_PRECODE n)) bs
  let s1 := (s.modLink n fun l => { l with coder := c }).modLua n fun l => { l with crvc := (l.crvc + 1) % 4 }
  out.foldl (fun t x => t.emit (.codeword n x.1 x.2)) s1

/-- `k` IDLE flits go out. -/
def State.sendIdle (s : State) (n : Nat) : Nat → State
  | 0 => s
  | k + 1 => (s.codeFlit n ((s.lua n).flit 0 0 0 0 false false [])).sendIdle n k

/-- The coder works on the lanes in use: it starts at a codeword's beginning, with open scrambler histories. -/
def State.startCoder (s : State) (n : Nat) : State :=
  let l := s.link n
  if l.coder.lanes = l.use then s
  else
    let (seed, s1) := s.free
    s1.modLink n fun l => { l with coder := { ({ l.coder with lanes := l.use }).skip 0 seed with
      since := s.clk.cycle, slots := 0, flits := [] } }

/-- The flit slots that have passed carry IDLE flits. Where more than a period has passed, those of whole periods are not put out one by
one (DESIGN CHOICE, log 39). -/
def State.catchUp (s : State) (n : Nat) : State :=
  let c := (s.link n).coder
  let behind := c.due s.clk.cycle - c.slots
  let per := flitPeriod (lanesOf c.lanes).length
  if behind ≤ per then s.sendIdle n behind
  else
    let first := if c.flits.isEmpty then 0 else per - c.flits.length
    let s1 := s.sendIdle n first
    let (seed, s2) := s1.free
    (s2.modLink n fun l => { l with coder := l.coder.skip ((behind - first) / per) seed }).sendIdle n ((behind - first) % per)

/-- A flit other than IDLE leaves, in the next slot. -/
def State.sendFlit (s : State) (n type vc seq poison : Nat) (first last : Bool) (body : List Byte) : State :=
  let s1 := (s.startCoder n).catchUp n
  let bs := (s1.lua n).flit type vc seq poison first last body
  (s1.codeFlit n bs).emit (.flit n bs)

/-- A control flit: not sequenced, not replayed. -/
def State.sendControl (s : State) (n type : Nat) (body : List Byte) : State := s.sendFlit n type 0 0 0 false false body

/-- A DATA flit with its sequence number. -/
def State.sendData (s : State) (n : Nat) (e : Nat × Flit) : State :=
  s.sendFlit n 1 e.2.vc e.1 e.2.poison e.2.first e.2.last e.2.payload

/-- One more receive buffer freed, on the VC that a stream's flits came in on. -/
def State.freeBuffer (s : State) (src : Nat) : State :=
  if src = 0 then s
  else s.modLua ((src - 1) / 4) fun l => { l with freed := smod 0 l.freed ((src - 1) % 4) (· + 1) }

/-- The next VC, after the last one served, that has a flit and credit. -/
def Luapo.nextVc (l : Luapo) : Option Nat :=
  ([1, 2, 3, 4].map fun k => (l.lastVc + k) % 4).find? fun v =>
    0 < sget 0 l.credit v && match sget [] l.out v with
      | x :: _ => !x.flits.isEmpty
      | [] => false

/-- One DATA flit goes out, if the link, the replay buffer and a VC's credit allow it. -/
def State.sendOne (s : State) (n : Nat) : Option State :=
  let l := s.lua n
  if !s.luaUp n || 1024 ≤ l.replay.length then none
  else match l.nextVc with
    | none => none
    | some v => match sget [] l.out v with
      | [] => none
      | x :: rest => match x.flits with
        | [] => none
        | f :: fs =>
          let left := if fs.isEmpty && x.ended then rest else { x with flits := fs } :: rest
          let e := (l.txSeq, { f with vc := v })
          let s1 := s.modLua n fun l => { l with
            out := sset [] l.out v left, credit := smod 0 l.credit v (· - 1), txSeq := (l.txSeq + 1) % 4096, lastVc := v
            replay := l.replay ++ [e], ackAt := if l.replay.isEmpty then s.clk.cycle else l.ackAt }
          some ((s1.sendData n e).freeBuffer x.src)

/-- DATA flits go out as far as credit allows. -/
def State.pumpFrom (s : State) (n : Nat) : Nat → State
  | 0 => s
  | k + 1 => match s.sendOne n with
    | none => s
    | some s1 => s1.pumpFrom n k

/-- Every DATA flit that can go out on a link goes out. -/
def State.pump (s : State) (n : Nat) : State :=
  s.pumpFrom n (((s.lua n).out.map fun e => (e.2.map fun x => x.flits.length).sum).sum)

/-- Flits kept from sequence number `seq` on go out again. -/
def State.resend (s : State) (n seq : Nat) : State :=
  let rest := (s.lua n).replay.dropWhile fun e => e.1 != seq
  if rest.isEmpty then s
  else
    let s1 := (s.bump (F.LK_LUAPO_REPLAY n)).modLua n fun l => { l with ackAt := s.clk.cycle, replayAt := some s.clk.cycle }
    rest.foldl (fun t e => State.sendData t n e) s1

/-- REPLAY_TIMEOUT: no ACK advance for 2,000 ns. -/
def State.replayTimeout (s : State) (n : Nat) : State :=
  match (s.lua n).replay with
  | [] => s
  | e :: _ =>
    if !s.luaUp n then s
    else match s.reach ((s.lua n).ackAt + 5000) with
      | none => s
      | some s1 => s1.resend n e.1

def execReplayTimeout (link : Fin 40) (s : State) : Res := whenLive s fun s => s.replayTimeout link

/-! ## Bring-up (R375) -/

/-- The INIT flit's payload: DEVID, VERSION 1, the wavelength mask, 256 credits for each VC. -/
def State.initPayload (s : State) (n : Nat) : List Byte :=
  natBytes 2 (s.get F.LK_LUAPO_DEVID_DEVID) ++ [1] ++ natBytes 1 (s.link n).use
    ++ natBytes 2 256 ++ natBytes 2 256 ++ natBytes 2 256 ++ natBytes 2 256

/-- INIT goes out. -/
def State.sendInit (s : State) (n : Nat) : State :=
  (s.modLua n fun l => { l with initAt := s.clk.cycle }).sendControl n 4 (s.initPayload n)

/-- LANE_LOCK: the link that enters INIT starts afresh and sends its INIT. -/
def execLaneLock (link : Fin 40) (wavelength : Fin 8) (levels : Nat) (s : State) : Res :=
  whenLive s fun s =>
    let s1 := s.laneLock link wavelength levels
    if s1.get (F.LK_STATUS_STATE link) = 3 && s.get (F.LK_STATUS_STATE link) != 3 then (s1.clearLuapo link).sendInit link
    else s1

/-- One tick of a Luapo link's transmitter: in INIT an INIT flit every 100 ns until one has been received, else IDLE in a slot that
nothing else took (R367, R375). -/
def State.tickLink (s : State) (n : Nat) : State :=
  let st := s.get (F.LK_STATUS_STATE n)
  let l := s.lua n
  if !s.on (F.LK_CTRL_PERS n) || !(1 ≤ st && st ≤ 4) || (s.link n).use = 0 then s
  else if st = 3 && !l.init && l.initAt + 250 ≤ s.clk.cycle then s.sendInit n
  else (s.startCoder n).catchUp n

/-- The tick of every link. -/
def State.tickLinks (s : State) : State := s.links.foldl (fun t e => State.tickLink t e.1) s

/-! ## Receiving (R366, R367, R370, R371) -/

/-- The header's fields. -/
def fhType (h : Nat) : Nat := bits h 0 4
def fhVc (h : Nat) : Nat := bits h 4 2
def fhSeq (h : Nat) : Nat := bits h 6 12
def fhAck (h : Nat) : Nat := bits h 18 12
def fhCrvc (h : Nat) : Nat := bits h 30 2
def fhCredits (h : Nat) : Nat := bits h 32 8
def fhPoison (h : Nat) : Nat := bits h 40 15

/-- A flit that is kept: 256 bytes, a good CRC, a TYPE that is not reserved. -/
def flitOk (f : List Byte) : Bool :=
  f.length == 256 && fieldAt f 248 8 == crc64 (f.take 248) && fhType (fieldAt f 0 8) ≤ 6

/-- A NAK that names the expected SEQ, at most one in 256 ns. -/
def State.nakNow (s : State) (n : Nat) : State :=
  let l := s.lua n
  let due := match l.nakAt with
    | none => true
    | some c => decide (c + 640 ≤ s.clk.cycle)
  if due then (s.modLua n fun l => { l with nakAt := some s.clk.cycle }).sendControl n 2 (natBytes 2 l.rxSeq) else s

/-- ACK and CREDITS of a flit taken in. -/
def Luapo.header (l : Luapo) (h now : Nat) : Luapo :=
  let rest := l.replay.dropWhile fun e => e.1 != fhAck h
  let l1 := match rest with
    | [] => l
    | _ :: r => { l with replay := r, ackAt := now }
  let v := fhCrvc h
  let got := (fhCredits h + 256 - sget 0 l1.seen v) % 256
  { l1 with credit := smod 0 l1.credit v (· + got), seen := sset 0 l1.seen v (fhCredits h) }

/-- The route of a message by its first flit: kept here, forwarded, or discarded (R373). -/
def State.routeOf (s : State) (n vc : Nat) (body : List Byte) : State × Route :=
  let dst := fieldAt body 0 2
  if dst = s.get F.LK_LUAPO_DEVID_DEVID then (s, .keep)
  else
    let e := sget 0 s.routes dst
    let out := bits e 0 6
    if !bit e 15 || 40 ≤ out || !s.luaUp out || byteAt body 4 = 255 then (s.bump (F.LK_LUAPO_NOROUTE n), .drop)
    else (s, .forward out (if bit e 14 then 2 * (vc / 2) + 1 else vc))

/-- A flit joins the messages that go out on a VC: a first flit opens a message, another one joins the open one of its source. -/
def Luapo.join (l : Luapo) (vc src : Nat) (f : Flit) : Option Luapo :=
  let q := sget [] l.out vc
  if f.first then some { l with out := sset [] l.out vc (q ++ [⟨src, [f], f.last⟩]) }
  else if q.any fun x => x.src == src && !x.ended then
    some { l with out := sset [] l.out vc (q.map fun x =>
      if x.src == src && !x.ended then { x with flits := x.flits ++ [f], ended := f.last } else x) }
  else none

/-- A DATA flit taken in order. -/
def State.takeData (s0 : State) (n : Nat) (f : Flit) : State :=
  let src := 4 * n + f.vc + 1
  let cur := sget {} (s0.lua n).rx f.vc
  let (s, route) := if f.first then s0.routeOf n f.vc f.payload else (s0, cur.route)
  let setRx (t : State) (r : RxVc) : State := t.modLua n fun l => { l with rx := sset {} l.rx f.vc r }
  let next := if f.last then Route.idle else route
  match route with
  | .keep =>
    let parts := (if f.first then [] else cur.parts) ++ [f]
    if f.last then (setRx s {}).modLua n fun l => { l with inbox := l.inbox ++ [(f.vc, parts)] }
    else setRx s ⟨.keep, parts⟩
  | .forward out vc =>
    let g := if f.first then { f with payload := putField f.payload 4 1 (byteAt f.payload 4 + 1) } else f
    let s1 := setRx s ⟨next, []⟩
    match (s1.lua out).join vc src g with
    | some l => (s1.modLua out fun _ => l).pump out
    | none => s1.freeBuffer src
  | .drop | .idle => (setRx s ⟨next, []⟩).freeBuffer src

/-- The mean of the last 16 delays, shown in LK_DELAYn (R376). -/
def State.addDelay (s : State) (n : Nat) (d : Int) : State :=
  let ds := (d :: (s.lua n).delays).take 16
  (s.modLua n fun l => { l with delays := ds }).put (F.LK_DELAY n) (uInt 32 (ds.sum / ds.length))

/-- The timebase count in 1/256 tick; its fraction is left open (log 10). -/
def State.fineTime (s : State) : Nat × State :=
  let (f, s1) := s.free
  (256 * s.clk.time + f % 256, s1)

/-- A DELAY_RESP carries t1, t2, t3; d follows at its arrival t4. -/
def State.delayResp (s : State) (n : Nat) (body : List Byte) : State :=
  let (t4, s1) := s.fineTime
  let d := ((t4 : Int) - fieldAt body 0 8 - ((fieldAt body 16 8 : Int) - fieldAt body 8 8)) / 2 + sInt 32 (s.get (F.LK_PTP_ASYM_ASYM n))
  s1.addDelay n d

/-- A DELAY_REQ is answered with its t1, the time of its arrival and that of the answer. -/
def State.delayAnswer (s : State) (n : Nat) (body : List Byte) : State :=
  let (t2, s1) := s.fineTime
  let (r, s2) := s1.free
  s2.sendControl n 6 (natBytes 8 (fieldAt body 0 8) ++ natBytes 8 t2 ++ natBytes 8 (t2 + r % 65536))

/-- A valid INIT: the partner's identifier and its credit. Another VERSION keeps the link in INIT. -/
def State.takeInit (s : State) (n : Nat) (body : List Byte) : State :=
  if s.get (F.LK_STATUS_STATE n) != 3 || byteAt body 2 != 1 then s
  else
    let s1 := (s.put (F.LK_PEER_DEVID n) (fieldAt body 0 2)).putB (F.LK_PEER_VALID n) true
    s1.modLua n fun l => { l with
      init := true
      credit := (List.range 4).foldl (fun m v => sset 0 m v (fieldAt body (4 + 2 * v) 2)) [] }

/-! ## Stroke markers (R377, R49-R52) -/

/-- A marker flit's payload. -/
def markerPayload (stroke count acc hops root : Nat) : List Byte :=
  natBytes 8 stroke ++ natBytes 8 count ++ natBytes 8 acc ++ natBytes 1 hops ++ natBytes 2 root

/-- The marker links that carry flits: bit n of STK_MARKER_LINKS names link n + 8. -/
def State.markerLinks (s : State) : List Nat :=
  ((List.range 32).map (· + 8)).filter fun n => bit (s.get F.STK_MARKER_LINKS_LINKS) (n - 8) && s.luaUp n

/-- A ROOT's marker at a boundary: ACC is the time to the flit's departure, left open (log 10). -/
def State.sendMarkers (s : State) : State :=
  if s.get F.STK_CTRL_ROLE != 1 then s
  else s.markerLinks.foldl (fun t n =>
    let (a, t1) := State.free t
    t1.sendControl n 3 (markerPayload s.clk.now s.clk.openTime (a % 65536) 0 (s.get F.LK_LUAPO_DEVID_DEVID))) s

/-- A marker that a follower takes goes on, with one more hop, its path and this device's residence time, which is left open. -/
def State.forwardMarker (s : State) (from_ : Nat) (body : List Byte) (acc : Nat) : State :=
  if byteAt body 24 = 255 then s
  else (s.markerLinks.filter (· != from_)).foldl (fun t n =>
    let (r, t1) := State.free t
    t1.sendControl n 3 (markerPayload (fieldAt body 0 8) (fieldAt body 8 8) (acc + r % 65536) (byteAt body 24 + 1)
      (fieldAt body 25 2))) s

/-- A marker is better than the one taken last: another stroke, fewer hops, a lower link. -/
def State.markerBetter (s : State) (stroke hops n : Nat) : Bool :=
  match s.clk.marker with
  | none => true
  | some (k, h, m) => k != stroke || hops < h || (hops == h && n < m)

/-- A follower's marker: skew, discipline, forwarding. A marker whose path is a stroke period or more is no measurement (R51). -/
def State.takeMarker (s : State) (n : Nat) (body : List Byte) : State :=
  let stroke := fieldAt body 0 8
  let hops := byteAt body 24
  let acc := ((fieldAt body 16 8 : Int) + sInt 32 (s.get (F.LK_DELAY n))).toNat
  if s.get F.STK_CTRL_ROLE != 2 || s.source != 2 || 256 * s.period ≤ acc then s
  else
    let s1 := if s.servo = 1 && s.clk.strokes && stroke != s.clk.now then
      s.raise 0x0104 (payload 16 [(0, 8, stroke), (8, 1, n)]) else s
    if !s.markerBetter stroke hops n then s1
    else
      let s2 := { s1 with clk := { s1.clk with marker := some (stroke, hops, n) } }
      (s2.measure (fieldAt body 8 8 + acc / 256) s.period).forwardMarker n body acc

/-! ## A flit taken in -/

/-- A received NAK: everything from the named SEQ goes out again, unless the replay timer has just started that (R378). -/
def State.takeNak (s : State) (n : Nat) (body : List Byte) : State :=
  if (s.lua n).replayAt = some s.clk.cycle then s else s.resend n (fieldAt body 0 2 % 4096)

/-- A flit that has passed its checks, by its TYPE. -/
def State.takeFlit (s : State) (n : Nat) (flit : List Byte) : State :=
  let h := fieldAt flit 0 8
  let body := (flit.drop 8).take 240
  match fhType h with
  | 1 =>
    if fhSeq h = (s.lua n).rxSeq then
      let s1 := s.modLua n fun l => { l with rxSeq := (l.rxSeq + 1) % 4096, nakAt := none }
      s1.takeData n ⟨fhVc h, fhPoison h, bit h 55, bit h 56, body⟩
    else s.nakNow n
  | 2 => s.takeNak n body
  | 3 => s.takeMarker n body
  | 4 => s.takeInit n body
  | 5 => s.delayAnswer n body
  | 6 => s.delayResp n body
  | _ => s

/-- A flit arrives: it is checked, brings its link up where its INIT has come, and its ACK and credit count (R367, R375). -/
def State.rxFlit (s : State) (n : Nat) (flit : List Byte) : State :=
  if !s.flitLink n then s
  else if !flitOk flit then
    let s1 := s.bump (F.LK_LUAPO_CRC n)
    if s.linkUp n then s1.nakNow n else s1
  else
    let h := fieldAt flit 0 8
    let init := fhType h = 4
    let s1 := if !init && s.get (F.LK_STATUS_STATE n) = 3 && (s.lua n).init then s.linkComesUp n else s
    if init then s1.takeFlit n flit
    else if !s1.linkUp n then s1
    else ((s1.modLua n fun l => l.header h s.clk.cycle).takeFlit n flit).pump n

/-- A flit of the given TYPE. -/
def flitIs (t : Nat) (flit : List Byte) : Bool := flitOk flit && fhType (fieldAt flit 0 8) == t

/-- The codewords of one lane in a period: its chunks, what the decoder found, and the lane after them. -/
def LaneIn.take (x : LaneIn) (precode : Bool) (k levels : Nat) : List (Option Nat) × List Bool × LaneIn :=
  let (ws, last) := wordsIn precode k x.level levels
  let (cs, fec, h) := ws.foldl (fun (acc : List (Option Nat) × List Bool × Nat) w =>
    let d := laneDecode w
    let (c, h) := wordChunks acc.2.2 w d
    (acc.1 ++ c, acc.2.1 ++ (match d with
      | none => [false]
      | some (_, fixed) => if fixed then [true] else []), h)) ([], [], x.scramble)
  (cs, fec, { x with scramble := h, level := last })

/-- A period of codewords received on all lanes: corrected and undecodable ones count, and the flits they carry arrive in order; one
that an undecodable codeword touches fails its CRC (R365, R366). -/
def State.rxWords (s : State) (n : Nat) (levels : List Nat) : State :=
  if !s.flitLink n then s
  else
    let l := s.link n
    let ws := lanesOf l.use
    let k := wordPeriod ws.length
    let lanes := ws.zipIdx.map fun (w, i) => (w, match levels[i]? with
      | some x => (sget ({} : LaneIn) l.lanesIn w).take (s.on (F.LK_CTRL_PRECODE n)) k x
      | none => (List.replicate (20 * k) none, List.replicate k false, sget ({} : LaneIn) l.lanesIn w))
    let s1 := (s.countWords n ((lanes.map fun x => x.2.2.1).flatten)).modLink n fun l => { l with
      lanesIn := lanes.foldl (fun m x => sset {} m x.1 x.2.2.2) l.lanesIn }
    (flitsOf (lanes.map fun x => x.2.1)).foldl (fun t f => State.rxFlit t n f) s1

/-- FLIT_RECEIVE: a flit, or a period of codewords. -/
def execFlitReceive (link : Fin 40) (input : FlitIn) (s : State) : Res :=
  whenLive s fun s => match input with
    | .flit bytes => s.rxFlit link bytes
    | .words levels => s.rxWords link levels
def execNak (link : Fin 40) (flit : List Byte) (s : State) : Res :=
  whenLive s fun s => if flitIs 2 flit then s.rxFlit link flit else s
def execStrokeMarkerReceive (link : Fin 40) (flit : List Byte) (s : State) : Res :=
  whenLive s fun s => if flitIs 3 flit then s.rxFlit link flit else s
def execInit (link : Fin 40) (flit : List Byte) (s : State) : Res :=
  whenLive s fun s => if flitIs 4 flit then s.rxFlit link flit else s
def execDelayResp (link : Fin 40) (flit : List Byte) (s : State) : Res :=
  whenLive s fun s => if flitIs 6 flit then s.rxFlit link flit else s

/-- DELAY_REQ: every 1 ms an UP link sends its departure time. -/
def State.delayReq (s : State) (n : Nat) : State :=
  if !s.luaUp n then s
  else match s.reach ((s.lua n).reqAt + 2500000) with
    | none => s
    | some s1 =>
      let (t1, s2) := s1.fineTime
      (s2.modLua n fun l => { l with reqAt := s1.clk.cycle }).sendControl n 5 (natBytes 8 t1)

def execDelayReq (link : Fin 40) (s : State) : Res := whenLive s fun s => s.delayReq link

/-! ## Messages (R368, R369) -/

/-- The words of a payload from word `k` on, with their marks. -/
def flitWords (f : Flit) (k : Nat) : List (List Byte × Bool) :=
  (List.range (15 - k)).map fun i => (((f.payload.drop (16 * (k + i))).take 16), bit f.poison (k + i))

/-- A complete message's data words. -/
def messageWords : List Flit → List (List Byte × Bool)
  | [] => []
  | f :: fs => flitWords f 2 ++ (fs.map fun g => flitWords g 0).flatten

/-- A message is written here, in arrival order, then its signal takes effect; one with a bad SPACE or range is discarded. -/
def State.writeMessage (s : State) (n : Nat) (parts : List Flit) : State :=
  let h := match parts with
    | f :: _ => f.payload
    | [] => []
  let sp := byteAt h 6
  let addr := fieldAt h 8 8
  let len := fieldAt h 16 2
  let ws := messageWords parts
  if byteAt h 5 != 1 || !(sp == 1 || sp == 2) || addr % 16 != 0 || len == 0 || 4096 < len || len % 16 != 0
      || spaceEnd sp < addr + len || ws.length < len / 16 then s.bump (F.LK_LUAPO_BADADDR n)
  else
    let s1 := s.wrMarked (spaceMem sp) addr (ws.take (len / 16))
    if bit (byteAt h 7) 0 then s1.addFloat (fieldAt h 20 4 % 2 ^ 17) (fieldAt h 18 2) else s1

/-- MESSAGE_WRITE: the oldest complete message of a link; its buffers are freed. -/
def State.messageWrite (s : State) (n : Nat) : State :=
  match (s.lua n).inbox with
  | [] => s
  | (v, parts) :: rest =>
    let s1 := s.modLua n fun l => { l with inbox := rest, freed := smod 0 l.freed v (· + parts.length) }
    s1.writeMessage n parts

def execMessageWrite (link : Fin 40) (s : State) : Res := whenLive s fun s => s.messageWrite link

/-- The flits of a message: its header and 13 words in the first, 15 words in each later one. -/
def laterFlits : Nat → List (List Byte × Bool) → List Flit
  | 0, _ => []
  | n + 1, ws =>
    if ws.isEmpty then []
    else
      let w := ws.take 15
      ⟨0, ((List.range w.length).map fun i => b2n (w.getD i ([], false)).2 * 2 ^ i).sum, false, (ws.drop 15).isEmpty,
        padTo 240 (wordBytesOf w)⟩ :: laterFlits n (ws.drop 15)

def messageFlits (head : List Byte) (ws : List (List Byte × Bool)) : List Flit :=
  let w := ws.take 13
  ⟨0, ((List.range w.length).map fun i => b2n (w.getD i ([], false)).2 * 2 ^ (i + 2)).sum, true, (ws.drop 13).isEmpty,
    padTo 240 (head ++ wordBytesOf w)⟩ :: laterFlits (ws.length / 15 + 1) (ws.drop 13)

/-! ## COPY (R75-R77, R368, R373) -/

/-- A copy's destination as its status and its overlap see it: the space and whether it is this device's own. -/
def State.copyLocal (s : State) (c : List Byte) : Nat :=
  if byteAt c 37 != 3 then byteAt c 37
  else if fieldAt c 38 2 = s.get F.LK_LUAPO_DEVID_DEVID then byteAt c 40 else 3

/-- The messages of a copy to another device, as streams: 4,096 bytes each, the signal in the last. -/
def State.copyStreams (s : State) (c : List Byte) : Nat → Nat → List (List Byte × Bool) → List Stream
  | 0, _, _ => []
  | k + 1, addr, ws =>
    if ws.isEmpty then []
    else
      let part := ws.take 256
      let last := (ws.drop 256).isEmpty
      let sig := last && bit (fieldAt c 44 4) 31
      let head := natBytes 2 (fieldAt c 38 2) ++ natBytes 2 (s.get F.LK_LUAPO_DEVID_DEVID) ++ [0, 1]
        ++ natBytes 1 (byteAt c 40) ++ natBytes 1 (b2n sig) ++ natBytes 8 addr ++ natBytes 2 (16 * part.length)
        ++ natBytes 2 (if sig then fieldAt c 42 2 else 0) ++ natBytes 4 (if sig then fieldAt c 44 4 % 2 ^ 17 else 0) ++ zeros 8
      ⟨0, messageFlits head part, true⟩ :: s.copyStreams c k (addr + 4096) (ws.drop 256)

/-- The link and the VC of a copy to another device; none where its entry is not VALID. -/
def State.copyRoute (s : State) (c : List Byte) : Option (Nat × Nat) :=
  let e := sget 0 s.routes (fieldAt c 38 2)
  let vc := byteAt c 41 % 4
  if bit e 15 then some (bits e 0 6, if bit e 14 then 2 * (vc / 2) + 1 else vc) else none

/-- A copy whose route is valid waits while its link is not up in the Luapo personality (R373). -/
def State.copyWaits (s : State) (c : List Byte) : Bool :=
  s.copyLocal c == 3 && match s.copyRoute c with
    | some (n, _) => !s.luaUp n
    | none => false

/-- A channel of an Aquifer range has been retired since the Pump's running command started (R340). -/
def State.lostUnder (s : State) (a n : Nat) : Bool :=
  match s.unitHolder 3 with
  | none => false
  | some q => match (s.q q).cur with
    | none => false
    | some r => ((wordsOf .aq a n).map channelOf).any fun c => match sget none s.mems.retiredAt c with
      | some t => r.start ≤ t
      | none => false

/-- COPY's effect and status. -/
def State.copy (c : List Byte) (s : State) : State × Nat :=
  let src := fieldAt c 16 8
  let dst := fieldAt c 24 8
  let len := fieldAt c 32 4
  let ssp := byteAt c 36
  let dsp := s.copyLocal c
  match s.grant ((if ssp = 0 then [(false, src, len)] else []) ++ if dsp = 0 then [(true, dst, len)] else []) with
  | some t => (t, Status.dmaFault)
  | none =>
    if dsp = 3 then
      match s.copyRoute c with
      | none => (s, Status.unreachable)
      | some (n, vc) =>
        let (s1, ws) := s.readSpace ssp src len
        let ss := s.copyStreams c (len / 4096 + 1) dst ws
        ((s1.modLua n fun l => { l with out := smod [] l.out vc (· ++ ss) }).pump n,
          if ssp = 2 && s.lostUnder src len then Status.poison else Status.ok)
    else
      let (s1, ws) := s.readSpace ssp src len
      let (s2, ep) := if ssp = dsp && src < dst + len && dst < src + len then (s1.scrambleSpace dsp dst len, false)
        else s1.writeSpace dsp dst ws
      let s3 := if byteAt c 37 = 3 && bit (fieldAt c 44 4) 31 then s2.addFloat (fieldAt c 44 4 % 2 ^ 17) (fieldAt c 42 2) else s2
      (s3, if ep || (ssp = 2 && s.lostUnder src len) then Status.poison else Status.ok)

/-- COPY: `stores` are host software's own stores to its memory before it (log 4). -/
def execCopy (q : Fin 80) (stores : List (Nat × List Byte)) (s : State) : Res :=
  whenLive (s.hostStores stores) fun s =>
    match s.running q 0x10 with
    | some (c, _) => if q / 16 = 3 && !s.copyWaits c then s.runOp q 0x10 openTime State.copy else s
    | none => s

/-! ## TRANSPOSE (R286, R287) -/

/-- Core cycles of a TRANSPOSE: its squares, and 64. -/
def transposeCycles (rows cols w : Nat) : Nat :=
  let sq (r c : Nat) : Nat := if r = 0 || c = 0 then 0 else max 16 (ceilDiv (r * c * w) 16384)
  let fr := rows / 256
  let fc := cols / 256
  64 + fr * fc * sq 256 256 + fr * sq 256 (cols % 256) + fc * sq (rows % 256) 256 + sq (rows % 256) (cols % 256)

def transposeTime (c : List Byte) (_ : State) : Option Nat :=
  some (transposeCycles (fieldAt c 32 4) (fieldAt c 36 4) (2 ^ byteAt c 40))

/-- Source rows as numbers, element 0 lowest, with the marks of the 16-byte words they lie in. -/
def State.rdRows (s : State) (m : MemId) (a stride bytes : Nat) : Nat → State × List (Nat × (Nat → Bool))
  | 0 => (s, [])
  | n + 1 =>
    let (s1, bs, marks) := s.rdRange m a bytes
    let (s2, rest) := s1.rdRows m (a + stride) stride bytes n
    (s2, (bytesNat bs, fun o => marks.getD ((a % m.wordBytes + o) / m.wordBytes) false) :: rest)

/-- The bytes of destination row `j` and, for each of its bytes, whether an element in it comes from a marked word. -/
def transposedRow (rows : List (Nat × (Nat → Bool))) (w j : Nat) : List (Byte × Bool) :=
  let v := (List.range rows.length).foldl (fun acc i => acc + bits (rows.getD i (0, fun _ => false)).1 (j * w) w * 2 ^ (i * w)) 0
  let n := rows.length * w / 8
  (natBytes n v).zipIdx.map fun (b, k) =>
    (b, (List.range (max 1 (8 / w))).any fun e =>
      let marked := (rows.getD (8 * k / w + e) (0, fun _ => false)).2
      marked (j * w / 8) || marked ((j * w + w - 1) / 8))

/-- Bytes to write, gathered by address. -/
def gatherRow (cells : SMap (Option (Byte × Bool))) (a : Nat) (bs : List (Byte × Bool)) : SMap (Option (Byte × Bool)) :=
  bs.zipIdx.foldl (fun m (b, k) => sset none m (a + k) (some b)) cells

/-- The runs of consecutive bytes among gathered cells that lie in one word. -/
def cellRuns (wb : Nat) : SMap (Option (Byte × Bool)) → List (Nat × List (Byte × Bool))
  | [] => []
  | (a, x) :: rest =>
    let b := x.getD (0, false)
    match cellRuns wb rest with
    | (a2, bs) :: more => if a2 = a + 1 && a2 % wb != 0 then (a, b :: bs) :: more else (a, [b]) :: (a2, bs) :: more
    | [] => [(a, [b])]

/-- Gathered cells written: words that receive an element of a marked word are marked. -/
def State.writeCells (s : State) (m : MemId) (cells : SMap (Option (Byte × Bool))) : State :=
  let runs := cellRuns m.wordBytes cells
  let marked := (runs.filter fun r => r.2.any (·.2)).map fun r => r.1 / m.wordBytes
  let s1 := runs.foldl (fun t r =>
    let w := r.1 / m.wordBytes
    if marked.contains w then t else State.wrWord t m w (r.1 % m.wordBytes) (r.2.map (·.1))) s
  marked.eraseDups.foldl (fun t w => State.markWord t m w) s1

/-- TRANSPOSE's effect: element (i, j) of the source is element (j, i) of the destination. -/
def State.transpose (c : List Byte) (s : State) : State × Nat :=
  let rows := fieldAt c 32 4
  let cols := fieldAt c 36 4
  let w := 2 ^ byteAt c 40
  let ss := fieldAt c 44 4
  let ds := fieldAt c 48 4
  let src := fieldAt c 16 8
  let dst := fieldAt c 24 8
  let sm := spaceMem (byteAt c 41)
  let dm := spaceMem (byteAt c 42)
  let (s1, rs) := s.rdRows sm src ss (cols * w / 8) rows
  let sEnd := src + (rows - 1) * ss + cols * w / 8
  let dEnd := dst + (cols - 1) * ds + rows * w / 8
  if byteAt c 41 = byteAt c 42 && src < dEnd && dst < sEnd then
    ((List.range cols).foldl (fun t j => State.scramble t dm (dst + j * ds) (rows * w / 8)) s1, Status.ok)
  else
    let cells := (List.range cols).foldl (fun m j => gatherRow m (dst + j * ds) (transposedRow rs w j)) []
    (s1.writeCells dm cells, Status.ok)

def execTranspose (q : Fin 80) (s : State) : Res :=
  whenLive s fun s => if q / 16 = 3 then s.runOp q 0x11 transposeTime State.transpose else s

/-! ## ROUTE_WRITE and ROUTE_READ (R374) -/

/-- ROUTE_WRITE: entries replaced; one with a poisoned source word changes none (log 20). -/
def State.routeWrite (c : List Byte) (s : State) : State × Nat :=
  let addr := fieldAt c 16 8
  let sp := byteAt c 24
  let first := fieldAt c 28 2
  let n := fieldAt c 30 2 + 1
  match s.grant (if sp = 0 then [(false, addr, 2 * n)] else []) with
  | some t => (t, Status.dmaFault)
  | none =>
    let (s1, ws) := s.readSpace sp addr (16 * ceilDiv (2 * n) 16)
    let bs := wordBytesOf ws
    if anyMark ws then (s1, Status.poison)
    else ({ s1 with routes := (List.range n).foldl (fun m i =>
      let v := fieldAt bs (2 * i) 2
      sset 0 m (first + i) (v % 64 + 2 ^ 14 * (v / 2 ^ 14))) s1.routes }, Status.ok)

def execRouteWrite (q : Fin 16) (stores : List (Nat × List Byte)) (s : State) : Res :=
  whenLive (s.hostStores stores) fun s => s.runOp (64 + q) 0x70 openTime State.routeWrite

/-- ROUTE_READ: POISON where its last, partial word is poisoned and so takes nothing (R327). -/
def State.routeRead (c : List Byte) (s : State) : State × Nat :=
  let addr := fieldAt c 16 8
  let sp := byteAt c 24
  let first := fieldAt c 28 2
  let n := fieldAt c 30 2 + 1
  let bs := ((List.range n).map fun i => natBytes 2 (sget 0 s.routes (first + i))).flatten
  match s.grant (if sp = 0 then [(true, addr, 2 * n)] else []) with
  | some t => (t, Status.dmaFault)
  | none =>
    if sp = 0 then (s.dataWrite addr bs, Status.ok)
    else
      let m := spaceMem sp
      let s1 := s.wrRange m addr bs
      let bad := (wordsOf m addr (2 * n)).any fun w => (s1.coded m).outcome m w == .poison
      (s1, if bad then Status.poison else Status.ok)

def execRouteRead (q : Fin 16) (s : State) : Res :=
  whenLive s fun s => s.runOp (64 + q) 0x71 openTime State.routeRead

end Sys2Proof.Machine
end

