-- ==== Sys2Proof/Machine/Strokes.lean ====
section
/-! DEFINITION. The stroke boundary and the opening boundary (R23-R44, R469). -/

namespace Sys2Proof.Machine

/-! ## Steps 1 to 5 -/

/-- Step 1: stroke `k` is current from this cycle on. -/
def State.openStroke (s : State) (k : Nat) : State :=
  { s with clk := { s.clk with strokes := true, armed := false, now := k, openTime := s.clk.time, openCycle := s.clk.cycle } }

/-- Step 2: a pending period takes force (R24). -/
def State.changePeriod (s : State) (k : Nat) : State :=
  let at_ := s.get64 R.STK_PERIOD_AT_LO
  if !s.on F.STK_STATUS_PERIOD_PENDING || (at_ != 0 && k < at_) then s
  else
    let new := s.get F.STK_PERIOD_PERIOD
    (((((s.put64 R.STK_BASE_LO k).put64 R.STK_ORIGIN_LO (s.count k)).put F.STK_ACTIVE_PERIOD_PERIOD new).putB
      F.STK_STATUS_PERIOD_PENDING false)).raise 0x0103 (payload 16 [(0, 4, s.period), (4, 4, new)])

/-- Step 3: armed banks swap, models commit, gate lists install, remaps apply (R27, R28). -/
def State.swapAll (s : State) (k : Nat) : State :=
  let s1 := (((s.loseCommits k).swapBank .feature k).swapBank .rule k).swapBank .ensemble k
  ((List.range 24).foldl (fun t n => State.installGates t n) (s1.modelBoundary k)).applyRemaps

/-- Step 4: the ending stroke's bank seals; settings take force; the bank of stroke `k` opens, flagged if a brownout window is
open (R275, R278, R422). -/
def State.captureStep (s : State) (k : Nat) (closing : Bool) : State :=
  let s1 := if closing then s.sealBank else s
  let late := 1 < s1.capture.closed.length
  let s2 := (s1.applyCapture k).openBank k late
  if s.on F.PWR_STATUS_WINDOW then s2.flagStroke else { s2 with power := { s2.power with flagged := false } }

/-! ## Step 6: the overrun policy (R36-R38, R43, R53) -/

/-- The effects of the TBL commands, by opcode (R154, R169, R213, R278-R282, R298-R309, R374). -/
def tblEffect (op : Nat) (c : List Byte) (t : State) : State × Nat :=
  match op with
  | 0x20 => t.flowInsertEffect c
  | 0x22 => State.tableRead ctxOff 128 c t
  | 0x23 => State.devWriteEffect c t
  | 0x24 => State.rehashStartEffect c t
  | 0x25 => State.rehashStepEffect c t
  | 0x26 => State.tableRead sndOff 32 c t
  | 0x27 => State.senderWrite c t
  | 0x28 => State.senderDelete c t
  | 0x29 => State.tableClearEffect c t
  | 0x30 => State.loadBank .rule c t
  | 0x31 => State.loadBank .ensemble c t
  | 0x40 => State.policerWrite c t
  | 0x41 => State.policerRead c t
  | 0x50 => State.capCtrlEffect c t
  | 0x51 => State.capMapLoadEffect c t
  | 0x52 => State.ctxOpenEffect c t
  | 0x53 => State.ctxCloseEffect c t
  | 0x54 => State.ctxReadEffect c t
  | 0x55 => State.ctxAdvanceEffect c t
  | 0x60 => State.modelCfgEffect c t
  | 0x62 => t.commit c
  | 0x63 => t.abandon c
  | 0x64 => t.modelSelect c
  | 0x65 => State.modelReadEffect c t
  | 0x66 => State.retireEffect c t
  | 0x70 => State.routeWrite c t
  | 0x71 => State.routeRead c t
  | _ => (t, Status.ok)

/-- The ranges that a TBL command writes its answer to: space, address, bytes. -/
def tblDest (op : Nat) (c : List Byte) : List (Nat × Nat × Nat) :=
  let at24 (n : Nat) := if fieldAt c 24 8 = 0 then [] else [(0, fieldAt c 24 8, n)]
  match op with
  | 0x20 => at24 8
  | 0x22 => [(0, fieldAt c 24 8, 128 * fieldAt c 20 4)]
  | 0x26 => [(0, fieldAt c 24 8, 32 * fieldAt c 20 4)]
  | 0x41 => [(byteAt c 24, fieldAt c 16 8, 64 * (fieldAt c 30 2 + 1))]
  | 0x54 => [(0, fieldAt c 24 8, 64 * (byteAt c 17 + 1))]
  | 0x64 | 0x65 => at24 1280
  | 0x71 => [(byteAt c 24, fieldAt c 16 8, 2 * (fieldAt c 30 2 + 1))]
  | _ => []

/-- A destination left unspecified: free values, where the windows let the command write (log 10). -/
def State.scrambleDest (s : State) (d : Nat × Nat × Nat) : State :=
  if d.1 = 0 && (s.dmaRefused true d.2.1 d.2.2).isSome then s else s.scrambleSpace d.1 d.2.1 d.2.2

/-- A started command of the table engine ends at a boundary: whether its effect on a table took place is left open (a free
bit); the ranges it answers to hold free values. PRIME leaves its bank EMPTY (R300). -/
def State.tblScramble (s : State) (c : List Byte) : State :=
  let op := cmdOp c
  if op = 0x61 then
    s.dropPrime (byteAt c 25)
  else
    let (f, s1) := s.free
    let s2 := if f % 2 = 1 then (tblEffect op c s1).1 else s1
    (tblDest op c).foldl State.scrambleDest s2

/-- A common command's destination left open (R37, R74). -/
def State.commonScramble (s : State) (c : List Byte) : State :=
  let (f, s1) := s.free
  match cmdOp c with
  | 2 => s1.setFloat (waitFloat c) (BitVec.ofNat 64 f)
  | 3 => s1.put (tickFld (waitFloat c)) f
  | 4 => s1.scrambleDest (0, fieldAt c 16 8, 16)
  | _ => s

/-- A FLOW_DELETE that ends early leaves its context's ending to go on by itself (R139). -/
def State.orphanEndings (s : State) (q : Nat) : State :=
  let es := s.flow.endings.map fun e => { e with queue := if e.queue == some q then none else e.queue }
  { s with flow := { s.flow with endings := es } }

/-- What an OVERRUN command that had started leaves: its destination unspecified, nothing else written (R37). -/
def State.overrunDest (s : State) (q : Nat) (c : List Byte) : State :=
  let op := cmdOp c
  if op < 0x10 then s.commonScramble c
  else match q / 16 with
  | 0 => s.matScramble q c
  | 1 => s.vecScramble (q - 16) c
  | 2 => s.scrambleDest (byteAt c 52, fieldAt c 32 8, 16 * fieldAt c 44 4)
  | 3 =>
    if op = 0x10 then
      (if s.copyLocal c = 3 then s else s.scrambleDest (s.copyLocal c, fieldAt c 24 8, fieldAt c 32 4))
    else (List.range (fieldAt c 36 4)).foldl (fun t j =>
      State.scramble t (spaceMem (byteAt c 42)) (fieldAt c 24 8 + j * fieldAt c 48 4) (fieldAt c 32 4 * 2 ^ byteAt c 40 / 8)) s
  | _ =>
    if op = 0x21 then s.orphanEndings q else s.tblScramble c

/-- Whether queue `q` holds unfinished work at the end of a stroke (R36): its first command runs or waits, or it was admitted
and something else than its own qualifier or its budget holds it. -/
def State.unfinished (s : State) (q : Nat) : Bool :=
  let Q := s.q q
  Q.active && (Q.cur.isSome || (s.live && s.on (F.HIF_QCTRL_ENABLE q) && !s.on (F.HIF_QCTRL_STOP q) && !Q.stopping
    && !s.on (F.HIF_QSTATUS_HALTED q) && s.budgetOk q && match Q.cmds with
      | [] => false
      | c :: _ => qualOk s.clk.strokes s.clk.now c.bytes))

/-- A WAIT of the queue has started and is over. -/
def State.waitMet (s : State) (q : Nat) : Bool :=
  match s.running q 1 with
  | some (c, r) => s.waitOver c r
  | none => false

/-- The entry with the greatest count of a table, the first of equal ones; none where every count is 0. -/
def mostOf (m : SMap Nat) : Option (Nat × Nat) :=
  (m.filter fun e => 0 < e.2).foldl (fun best e => match best with
    | some b => if b.2 < e.2 then some e else some b
    | none => some e) none

/-- The rung-4 queue of higher order that took the most cycles from the queue's unit: queue and cycles (R43). -/
def State.taker (s : State) (q : Nat) : Option (Nat × Nat) := mostOf (s.q q).lostTo

/-- The link that took the most cycles from the queue's units on the highest rung of the packet path that took any: rung, link and
cycles (R43). -/
def State.linkTaker (s : State) (q : Nat) : Option (Nat × Nat × Nat) :=
  let on (rung : Nat) := (mostOf ((s.q q).lostLinks.filter fun e => e.1 / 64 == rung)).map fun e => (rung, e.1 % 64, e.2)
  match on 2 with
  | some x => some x
  | none => on 3

/-- The cause of a DEADLINE_MISS: rung, instance, amount (R42, R43, R422). The spec states no amount for OWN: a free value. -/
def State.missCause (s : State) (q : Nat) : State × Nat × Nat × Nat :=
  let Q := s.q q
  let lost := Q.lostClamp + Q.lostHalf
  if 0 < lost then (s, 1, if Q.lostClamp < Q.lostHalf then 0xFE else 5, lost / 8)
  else match s.linkTaker q, s.taker q with
    | some (rung, n, k), _ => (s, rung, n, k)
    | none, some (j, n) => (s, 4, j, n)
    | none, none =>
      let (f, s1) := s.free
      (s1, 0, 0xFF, f)

/-- The commands after an OVERRUN complete SKIPPED up to the next stroke-qualified one (R36, R53). -/
def State.skipRest (s : State) (q : Nat) : State :=
  let Q := s.q q
  let k := (Q.cmds.takeWhile fun f => !cmdQual f.bytes).length
  if k = 0 then s
  else
    let all := k == Q.cmds.length
    let s1 := s.addRec q Status.skipped Q.idx k 0 false all
    if all then s1.endList q else s1.modQ q fun Q => { Q with cmds := Q.cmds.drop k, idx := Q.idx + k }

/-- The policy applied to one queue; `s0` is the state at the end of the stroke. DESIGN CHOICE (log 33): a WAIT that started and
still waits ends OVERRUN charged 0 cycles, as R36's example charges a command the cycles before the boundary only. -/
def State.overrunQueue (s0 s : State) (q : Nat) : State :=
  let Q := s.q q
  if !s.onF (F.STK_QPOL_POLICY q) || !s0.unfinished q then s
  else match Q.cmds with
    | [] => s
    | f :: _ =>
      if s.waitMet q then s.complete q Status.ok 1
      else
        let (s1, rung, inst, amount) := s.missCause q
        let s2 := match Q.cur with
          | some _ => s1.overrunDest q f.bytes
          | none => s1
        let charge := match Q.cur with
          | some r => r.charged
          | none => 0
        ((s2.complete q Status.overrun charge).skipRest q).raise 0x0105
          (payload 16 [(0, 1, 4), (1, 1, q), (2, 1, rung), (3, 1, inst), (4, 4, amount)])

def State.overruns (s0 s : State) : State := (List.range 80).foldl (State.overrunQueue s0) s

/-! ## Steps 7 and 8, and what closes with the stroke -/

/-- Step 7 for one queue: a WAIT that the boundary's own tick satisfied is charged to the new stroke (R32). -/
def State.renew (closing : Bool) (s : State) (q : Nat) : State :=
  let Q := s.q q
  let s1 := if closing then s.put (F.STK_QUSED_USED q) (sat32 Q.spent) else s
  s1.modQ q fun Q => { Q with spent := 0, lostClamp := 0, lostHalf := 0, lostTo := [], lostLinks := [] }

/-- The key with the greatest value, the lower of equal ones. -/
def maxKey (m : SMap Nat) : Nat :=
  (m.foldl (fun (b : Nat × Nat) e => if b.2 < e.2 then e else b) (0, 0)).1

/-- Tree-group cycles by privileged link, over all groups. -/
def State.treeByLink (s : State) : SMap Nat :=
  s.intake.treeSlots.foldl (fun m e => bumpMap m (e.1 % 64) e.2) []

/-- LADDER_YIELD of a link that `priv`, the links privileged in the closing stroke, does not name, and that lost frames to
privileged ones (R42, R119, R158): frames lost to a full standpipe while lane slots went to them, and frames late behind them. -/
def State.yieldLink (priv : Nat → Bool) (s : State) (n : Nat) : State :=
  let i := s.intake
  let full := if i.laneSlots.isEmpty then 0 else sget 0 i.fullDrops n
  let late := sget 0 i.lateBehind n
  if priv n || full + late = 0 then s
  else
    let cause := if 0 < full then maxKey i.laneSlots else maxKey s.treeByLink
    s.raise 0x0106 (payload 16 [(0, 1, 3), (1, 1, n), (2, 1, 2), (3, 1, cause), (4, 4, full + late)])

/-- The events of the stroke that closes (R42, R47, R107, R403); `priv` says which links were privileged in it. -/
def State.closeEvents (s : State) (priv : Nat → Bool) : State :=
  let s1 := s.intake.marksLost.foldl (fun t e => State.raise t 0x0303 (payload 16 [(0, 1, e.1), (4, 4, e.2)])) (s.closeBudget priv)
  let s2 := (List.range 24).foldl (State.yieldLink priv) s1
  if 0 < s2.clk.below then s2.raise 0x0107 (payload 16 [(0, 1, s2.clk.lowest), (4, 4, s2.clk.below)]) else s2

/-- The stroke's counts start afresh. -/
def State.clearCounts (s : State) : State :=
  { s with
    clk := { s.clk with lowest := s.get F.PWR_STATUS_ARRAY_FRACTION, below := 0 }
    intake := { s.intake with
      marksLost := [], fullDrops := [], laneSlots := [], treeSlots := [], lateBehind := []
      budgetV := [], budgetD := [], converted := [], windowFrom := s.clk.cycle } }

/-- A boundary freezes the 880 when the stroke trigger names it (R437); the event trigger, whose event the same cycle raised, has the
lower code (R450). -/
def State.strokeTrigger (s : State) (k : Nat) : State :=
  if s.on F.DBG_TRIG_STROKE_EN && s.get64 R.DBG_TRIG_STROKE_LO = k then s.freeze (if s.trigger then 3 else 4) else s

/-- What follows every boundary cycle: a requested report's snapshot, a handover whose stroke has come, markers, the freeze
trigger (R49, R389, R401, R437). -/
def State.afterBoundary (s : State) (k : Nat) : State :=
  ((s.snapshot.handoverDue k).sendMarkers).strokeTrigger k

/-! ## The boundaries -/

/-- The boundary cycle that opens stroke `k` and closes the one before (R28). -/
def State.boundary (s : State) (k : Nat) : State :=
  let s1 := (((s.tagAll.openStroke k).applyPending.changePeriod k).swapAll k).captureStep k true
  let s2 := s1.tickFloats
  let met := (List.range 80).filter fun q => s2.onF (F.STK_QPOL_POLICY q) && s.unfinished q && s2.waitMet q
  let s3 := (List.range 80).foldl (State.renew true) (s.overruns s2)
  let s4 := met.foldl (fun t q => State.modQ t q fun Q => { Q with spent := 1 }) s3
  ((s4.closeEvents s.priv).clearCounts).afterBoundary k

/-- STROKE_BOUNDARY: time passes to the next boundary's count, which the boundary cycle opens. -/
def State.strokeBoundary (s : State) : State :=
  if s.clk.strokes then (s.elapseTo (s.count (s.clk.now + 1))).boundary (s.clk.now + 1) else s

def execStrokeBoundary (s : State) : Res := whenClocked s State.strokeBoundary

/-- The number of the stroke that opens at timebase count `c` (R469). -/
def State.openingNumber (s : State) (c : Nat) : Nat :=
  s.get64 R.STK_BASE_LO + (c - s.get64 R.STK_ORIGIN_LO) / max 1 s.period

/-- The opening boundary: steps 2, 3, 7 and 8, no stroke closes (R469). -/
def State.opening (s : State) (k : Nat) : State :=
  let s1 := (((s.tagAll.openStroke k).applyPending.changePeriod k).swapAll k).captureStep k false
  let s2 := (List.range 80).foldl (State.renew false) s1
  s2.clearCounts.afterBoundary k

/-- OPENING_BOUNDARY: strokes start in the start cycle, or once the count reaches count(STK_BASE). -/
def State.openingBoundary (s : State) : State :=
  if s.clk.armed && !s.clk.strokes then
    let s1 := s.elapseTo (max s.clk.time (s.get64 R.STK_ORIGIN_LO))
    s1.opening (s1.openingNumber s1.clk.time)
  else s

def execOpeningBoundary (s : State) : Res := whenClocked s State.openingBoundary

end Sys2Proof.Machine
end

