-- ==== Sys2Proof/Machine/Admit.lean ====
section
/-! DEFINITION. A queue starts its next command, or refuses it (R33, R39, R71, R86, R236, R266), and host reads that fail. -/

namespace Sys2Proof.Machine

/-! ## Extension words by engine and opcode (R71, R74) -/

/-- The extension words of an opcode of an engine; none where the engine has no such opcode. -/
def cmdWords (e op : Nat) : Option Nat :=
  if op < 5 then some 0
  else match e with
  | 0 => [(0x11, 2), (0x12, 3), (0x13, 1)].lookup op
  | 1 => [(0x10, 3), (0x11, 3), (0x12, 3), (0x13, 3)].lookup op
  | 2 => [(0x10, 1)].lookup op
  | 3 => [(0x10, 1), (0x11, 1)].lookup op
  | 4 => [(0x20, 2), (0x21, 2), (0x22, 0), (0x23, 0), (0x24, 0), (0x25, 0), (0x26, 0), (0x27, 1), (0x28, 1), (0x29, 0),
          (0x30, 0), (0x31, 0), (0x40, 0), (0x41, 0), (0x50, 1), (0x51, 0), (0x52, 1), (0x53, 0), (0x54, 0), (0x55, 0),
          (0x60, 1), (0x61, 1), (0x62, 1), (0x63, 0), (0x64, 0), (0x65, 0), (0x66, 0), (0x70, 0), (0x71, 0)].lookup op
  | _ => none

/-- The header is refused: another engine, an opcode it does not have, a reserved bit, the wrong number of extension words. -/
def headerBad (q : Nat) (c : List Byte) : Bool :=
  cmdEngine c != q / 16 || cmdReserved c != 0 || cmdWords (q / 16) (cmdOp c) != some (cmdExt c)

/-! ## Operand checks -/

/-- Some byte of a field of `n` bytes at `o` is not 0. -/
def dirty (c : List Byte) (o n : Nat) : Bool := !allZero ((c.drop o).take n)

/-- A range that its space does not hold, or a space that is none of `spaces`. -/
def rangeBad (spaces : List Nat) (sp a n : Nat) : Bool := !spaces.contains sp || spaceEnd sp < a + n

/-- ENSEMBLE_RUN (R181). -/
def ensembleBad (c : List Byte) : Bool :=
  let nt := fieldAt c 40 4
  let n := fieldAt c 44 4
  let f := fieldAt c 48 2
  let fmt := byteAt c 53
  fieldAt c 16 8 % 64 != 0 || fieldAt c 24 8 % 16 != 0 || fieldAt c 32 8 % 16 != 0 || nt == 0 || 65536 < nt || n == 0
  || 16777216 < n || 1 < fmt || (fmt == 0 && (f == 0 || 512 < f)) || (fmt == 1 && f != 40) || dirty c 54 10
  || rangeBad [1, 2] (byteAt c 50) (fieldAt c 16 8) (1536 * nt)
  || rangeBad [1, 2] (byteAt c 51) (fieldAt c 24 8) (batchRecBytes fmt f * n)
  || rangeBad [0, 1, 2] (byteAt c 52) (fieldAt c 32 8) (16 * n)

/-- COPY (R75, R76). -/
def copyBad (c : List Byte) : Bool :=
  let len := fieldAt c 32 4
  let d := byteAt c 37
  fieldAt c 16 8 % 16 != 0 || fieldAt c 24 8 % 16 != 0 || len == 0 || len % 16 != 0 || dirty c 48 16
  || rangeBad [0, 1, 2] (byteAt c 36) (fieldAt c 16 8) len
  || (if d = 3 then
        byteAt c 40 == 0 || 2 < byteAt c 40 || 3 < byteAt c 41 || spaceEnd (byteAt c 40) < fieldAt c 24 8 + len
          || bits (fieldAt c 44 4) 17 14 != 0
      else rangeBad [0, 1, 2] d (fieldAt c 24 8) len || dirty c 38 10)

/-- TRANSPOSE (R286). -/
def transposeBad (c : List Byte) : Bool :=
  let rows := fieldAt c 32 4
  let cols := fieldAt c 36 4
  let w := 2 ^ byteAt c 40
  let ss := fieldAt c 44 4
  let ds := fieldAt c 48 4
  fieldAt c 16 8 % 16 != 0 || fieldAt c 24 8 % 16 != 0 || rows == 0 || 16777216 < rows || cols == 0 || 16777216 < cols
  || byteAt c 40 < 2 || 7 < byteAt c 40 || byteAt c 43 != 0 || dirty c 52 12
  || cols * w % 8 != 0 || rows * w % 8 != 0 || ss % 8 != 0 || ss < cols * w / 8 || ds % 8 != 0 || ds < rows * w / 8
  || rangeBad [1, 2] (byteAt c 41) (fieldAt c 16 8) ((rows - 1) * ss + cols * w / 8)
  || rangeBad [1, 2] (byteAt c 42) (fieldAt c 24 8) ((cols - 1) * ds + rows * w / 8)

/-- FLOW_INSERT and FLOW_DELETE (R154). -/
def flowKeyBad (c : List Byte) : Bool :=
  let del := cmdOp c == 0x21
  let byIndex := del && bit (byteAt c 18) 1
  63 < byteAt c 16 || 63 < byteAt c 19 || (if del then 8 ≤ byteAt c 18 else 2 ≤ byteAt c 18)
  || (!byIndex && dirty c 80 16) || (if byIndex then 8388608 ≤ fieldAt c 20 4 else byteAt c 17 == 0 || 48 < byteAt c 17)
  || (!del && (dirty c 20 4 || fieldAt c 24 8 % 8 != 0))

/-- A read of `count` entries of a table of `n`, to an aligned host address. -/
def tableReadBad (c : List Byte) (n align : Nat) : Bool :=
  let count := fieldAt c 20 4
  count == 0 || 65536 < count || n < fieldAt c 16 4 + count || fieldAt c 24 8 % align != 0

/-- Reserved bytes of an address of a sender command: those past the kind's length are padding. -/
def senderBad (c : List Byte) : Bool := 2 < byteAt c 16 || dirty c 48 16

/-- RULE_LOAD and ENS_LOAD (R169). -/
def loadBad (c : List Byte) : Bool :=
  let len := fieldAt c 28 4
  fieldAt c 16 8 % 64 != 0 || dirty c 25 3 || len % 64 != 0 || 16777216 < len
  || rangeBad [0, 1, 2] (byteAt c 24) (fieldAt c 16 8) len

/-- The policer and route commands: entries of `size` bytes, a table of `n`, a space range of `rec` bytes an entry. -/
def entriesBad (c : List Byte) (align rec n : Nat) : Bool :=
  let count := fieldAt c 30 2 + 1
  fieldAt c 16 8 % align != 0 || dirty c 26 2 || n < fieldAt c 28 2 + count
  || rangeBad [0, 1, 2] (byteAt c 24) (fieldAt c 16 8) (rec * count)

/-- A range of contexts (R281). -/
def ctxRangeBad (c : List Byte) : Bool := 256 < byteAt c 16 + byteAt c 17 + 1

def ctxOpenBad (c : List Byte) : Bool :=
  let n := fieldAt c 40 4
  dirty c 17 3 || dirty c 28 4 || dirty c 44 20 || fieldAt c 32 8 % 4096 != 0 || n % 4096 != 0 || n == 0 || 2097152 < n
  || fieldAt c 24 4 == 0 || 16384 < fieldAt c 24 4

/-- The model commands: BANK and what else each operand holds (R298-R309). -/
def modelBad (c : List Byte) : Bool :=
  let mapBad := 15 < byteAt c 17 && byteAt c 17 != 0xFF
  match cmdOp c with
  | 0x60 => 1 < byteAt c 16 || 16 < byteAt c 17 || 1024 ≤ fieldAt c 18 2 || 8192 < fieldAt c 20 2 || dirty c 22 2
      || fieldAt c 24 8 % 4096 != 0 || fieldAt c 32 8 % 4096 != 0 || dirty c 40 24
  | 0x61 => 1 < byteAt c 25 || 3 < byteAt c 26 || dirty c 27 5 || fieldAt c 16 8 % 4096 != 0 || fieldAt c 40 8 % 64 != 0
      || dirty c 48 16 || rangeBad [0, 1, 2] (byteAt c 24) (fieldAt c 16 8) (fieldAt c 32 8)
  | 0x62 => 1 < byteAt c 16 || mapBad || dirty c 18 6 || (fieldAt c 32 8 != 0 && fieldAt c 32 8 < fieldAt c 24 8)
      || fieldAt c 40 8 % 64 != 0 || dirty c 48 16
  | 0x63 => 1 < byteAt c 16 || dirty c 17 15
  | 0x64 => 1 < byteAt c 16 || mapBad || dirty c 18 6 || fieldAt c 24 8 % 64 != 0
  | 0x65 => 1 < byteAt c 16 || dirty c 17 7 || fieldAt c 24 8 % 64 != 0
  | _ => 1 < byteAt c 16 || dirty c 17 7

/-- What a TBL command's operand is refused for. -/
def State.tblBad (s : State) (c : List Byte) : Bool :=
  match cmdOp c with
  | 0x20 | 0x21 => flowKeyBad c
  | 0x22 => tableReadBad c 8388608 128
  | 0x23 =>
    let n := fieldAt c 24 4
    n == 0 || 1048576 < n || fieldAt c 16 8 % 16 != 0 || 2 ^ 32 < fieldAt c 16 8 + 8 * n
  | 0x24 => dirty c 24 8 || s.rehashing
  | 0x25 => fieldAt c 16 4 == 0 || 524288 < fieldAt c 16 4 || dirty c 20 12 || !s.rehashing
  | 0x26 => tableReadBad c 2097152 32
  | 0x27 => senderBad c || 23 < byteAt c 17 || 4 ≤ byteAt c 18 || dirty c 19 13
  | 0x28 => senderBad c || dirty c 17 15
  | 0x29 => 4 ≤ byteAt c 16 || dirty c 17 15
  | 0x30 | 0x31 => loadBad c
  | 0x40 => entriesBad c 32 32 65536 || 2 ≤ byteAt c 25
  | 0x41 => entriesBad c 64 64 65536 || byteAt c 25 != 0
  | 0x50 => capBad c
  | 0x51 => fieldAt c 16 8 % 64 != 0 || rangeBad [0, 1, 2] (byteAt c 24) (fieldAt c 16 8) 2048
  | 0x52 => ctxOpenBad c
  | 0x53 => ctxRangeBad c || dirty c 18 14
  | 0x54 => ctxRangeBad c || dirty c 18 6 || fieldAt c 24 8 % 64 != 0
  | 0x55 => ctxRangeBad c || dirty c 18 2
  | 0x70 | 0x71 => entriesBad c 16 2 65536 || byteAt c 25 != 0
  | _ => modelBad c

/-- The status a command is refused with before it executes; none where it starts. -/
def State.refusal (s : State) (q : Nat) (c : List Byte) : Option Nat :=
  let bad (b : Bool) : Option Nat := if b then some Status.badCommand else none
  if q < 32 && s.partFailed (q % 16) then some Status.unitFault
  else if headerBad q c then some Status.badCommand
  else if cmdOp c < 0x10 then bad (commonBad c)
  else match q / 16 with
  | 0 => if cmdOp c = 0x13 then s.moveCheck q c else s.matCheck q c
  | 1 => s.vecCheck (q - 16) c
  | 2 => bad (ensembleBad c)
  | 3 => bad (if cmdOp c = 0x10 then copyBad c else transposeBad c)
  | _ => bad (s.tblBad c)

/-! ## COMMAND_ADMIT -/

/-- A command that becomes eligible in a boundary cycle (step 8 of the boundary) starts in the cycle after it (R28, R53). -/
def State.pastBoundary (s : State) (c : List Byte) : State :=
  if s.clk.strokes && s.clk.cycle == s.clk.openCycle && cmdQual c && cmdNotBefore c == s.clk.now then s.elapse 1 else s

/-- The queue's next command starts: its start cycle's count and stroke are kept for it (R74). -/
def State.startCommand (s : State) (q : Nat) (c : List Byte) : State :=
  let wait := cmdOp c == 1 && decide ((s.float (waitFloat c)).toNat < waitValue c)
  let r : Run := { start := s.clk.cycle, startTime := s.clk.time, startStroke := s.nowReg, waiting := wait }
  let s1 := if q / 16 = 4 && cmdOp c = 0x61 then s.beginPrime (byteAt c 25) s.tilesNow else s
  s1.modQ q fun Q => { Q with cur := some r }

/-- The least and the greatest number of commands that `n` bytes of a list can hold: each has 32 to 256 bytes (R70). -/
def listCounts (n : Nat) : Nat × Nat := (ceilDiv n 256, n / 32)

/-- The numbers of commands that a record of a refused fetch can cover: those of the `left` bytes of the list from the refused
command on, whose own size its head tells where that was fetched (R70, R86). -/
def refusedCounts (head : List Byte) (left : Nat) : Nat × Nat :=
  if head.isEmpty then listCounts left
  else
    let (lo, hi) := listCounts (left - 32 * (1 + cmdExt head))
    (1 + lo, 1 + hi)

/-- A command whose words the windows refused: DMA_FAULT for it, with its signal where its head was fetched and asks for one, and
one record for it and the commands after it. How many these are, words that were not fetched would tell: a free value within
what the list's length admits (R70, R73, R86, log 10). -/
def State.listRefused (s : State) (q a : Nat) (head : List Byte) (left : Nat) : State :=
  let (f, s1) := (s.trip 4 0 a).free
  let (lo, hi) := refusedCounts head left
  (((s1.signal head Status.dmaFault).addRec q Status.dmaFault (s.q q).idx (lo + f % (hi + 1 - lo)) 0 false true).endList q).haltCheck q

def State.takeHead (s : State) (q : Nat) : State :=
  if !s.headReady q || !s.unitFree q then s
  else match (s.q q).cmds with
    | [] => s
    | .refused a head left :: _ => s.listRefused q a head left
    | .cut _ :: _ => s.complete q Status.badCommand 0
    | .cmd c :: _ => match s.refusal q c with
      | some st => s.complete q st 0
      | none => (s.pastBoundary c).startCommand q c

def execCommandAdmit (q : Fin 80) (s : State) : Res := whenLive s fun s => s.takeHead q

/-! ## Host reads that fail (R86) -/

/-- A running command that reads host memory ends with HOST_ERROR, its destination unspecified; PRIME's bank stays EMPTY and its
record says so (R300). -/
def State.hostError (s : State) (q : Nat) : State :=
  match (s.q q).cur, (s.q q).cmds with
  | some r, .cmd c :: _ =>
    if !hostReads q c then s
    else
      ((s.overrunDest q c).failPrime q c).complete q Status.hostError r.charged
  | _, _ => s

def execHostRequestTimeout (q : Fin 80) (s : State) : Res := whenLive s fun s => s.hostError q
def execHostCompletionError (q : Fin 80) (s : State) : Res := whenLive s fun s => s.hostError q

/-! ## Windows rewritten under a running command (R86, R91) -/

/-- How much of its host ranges the running command of queue `q` has asked for when a window is about to be rewritten: left open
(log 10). Nothing yet, or it has been checked and has issued requests for some bytes more, as far as the windows in force let it. -/
def State.issueSome (s : State) (q : Nat) : State :=
  match (s.q q).cur, (s.q q).cmds with
  | some r, .cmd c :: _ =>
    let rs := hostRanges q c
    if rs.isEmpty || r.waiting then s
    else
      let (f, s1) := s.free
      let total := (rs.map (·.2.2)).foldl max 0
      let k := min total (r.issued + f / 2 % (total + 1))
      if f % 2 = 0 then s1
      else match s1.lowestRefused (if r.checked then rangesBeyond r.issued (rs.map fun (w, a, n) => (w, a, min n k)) else rs) with
        | some a =>
          let s2 := s1.trip 4 0 a
          ((if r.checked then s2.overrunDest q c else s2).failPrime q c).complete q Status.dmaFault r.charged
        | none => s1.modQ q fun Q => { Q with cur := some { r with checked := true, issued := k } }
  | _, _ => s

/-- A write of a window: what running commands have asked for by then stands, later requests follow the new entry (R86, R91). -/
def State.rewriteWindow (s : State) (n part v : Nat) : State :=
  if s.on F.HIF_LOCK_LOCK then s else ((List.range 80).foldl State.issueSome s).writeWindow n part v

def execDmaWindowWrite (n : Fin 256) (part : Fin 4) (value : Word) (s : State) : Res :=
  whenHost s (R.HIF_DMAW_0 n) fun s => s.rewriteWindow n part value.toNat

end Sys2Proof.Machine
end

