-- ==== Sys2Proof/Machine/Port.lean ====
section
/-! DEFINITION. The symbols of the freeze capture port (R447): 8b/10b, and how a record is dealt to the four lanes. The code's tables are
those of 8b/10b, which R447 names without repeating them (PRESUMED, log 40). A line bit sequence is a number: bit `i` is sent `i`-th. -/

namespace Sys2Proof.Machine

/-- The low five bits of a byte as six line bits a b c d e i, in sending order from the left, at negative running disparity. -/
def fiveSix : List Nat :=
  [0b100111, 0b011101, 0b101101, 0b110001, 0b110101, 0b101001, 0b011001, 0b111000,
   0b111001, 0b100101, 0b010101, 0b110100, 0b001101, 0b101100, 0b011100, 0b010111,
   0b011011, 0b100011, 0b010011, 0b110010, 0b001011, 0b101010, 0b011010, 0b111010,
   0b110011, 0b100110, 0b010110, 0b110110, 0b001110, 0b101110, 0b011110, 0b101011]

/-- The high three bits as four line bits f g h j, at negative running disparity. -/
def threeFour : List Nat := [0b1011, 0b1001, 0b0101, 0b1100, 0b1101, 0b1010, 0b0110, 0b1110]

/-- Ones among the low `n` bits. -/
def onesIn (n v : Nat) : Nat := ((List.range n).filter (bit v)).length

/-- A group of `n` line bits at a running disparity (true: positive): the complement where the group is unbalanced, or is one of the
two balanced groups that alternate; and the disparity after it. -/
def lineGroup (n : Nat) (alternates : Bool) (plus : Bool) (code : Nat) : Nat × Bool :=
  let balanced := 2 * onesIn n code = n
  (if plus && (!balanced || alternates) then 2 ^ n - 1 - code else code, if balanced then plus else !plus)

/-- `n` bits in the opposite order. -/
def mirrorBits (n v : Nat) : Nat := ((List.range n).map fun i => b2n (bit v (n - 1 - i)) * 2 ^ i).sum

/-- The two groups of a symbol as its ten line bits. -/
def lineSymbol (six four : Nat) : Nat := mirrorBits 6 six + 2 ^ 6 * mirrorBits 4 four

/-- A data byte's symbol; D.x.A7 stands where D.x.P7 would make a run of five. -/
def dataSymbol (plus : Bool) (b : Nat) : Nat × Bool :=
  let x := b % 32
  let y := b / 32 % 8
  let (six, p1) := lineGroup 6 (x == 7) plus (fiveSix.getD x 0)
  let run := y == 7 && (if p1 then [11, 13, 14].contains x else [17, 18, 20].contains x)
  let (four, p2) := lineGroup 4 (y == 3) p1 (if run then 0b0111 else threeFour.getD y 0)
  (lineSymbol six four, p2)

/-- A control symbol from its groups at negative disparity: its complement at positive disparity. -/
def controlSymbol (six four : Nat) (plus : Bool) : Nat × Bool :=
  let code := lineSymbol six four
  (if plus then 1023 - code else code, if onesIn 10 code = 5 then plus else !plus)

/-- K27.7, K29.7 and the comma K28.5. -/
def k27_7 : Bool → Nat × Bool := controlSymbol 0b110110 0b1000
def k29_7 : Bool → Nat × Bool := controlSymbol 0b101110 0b1000
def k28_5 : Bool → Nat × Bool := controlSymbol 0b001111 0b1010

/-- Data bytes as symbols, in order. -/
def dataSymbols : Bool → List Nat → List Nat × Bool
  | p, [] => ([], p)
  | p, b :: bs =>
    let (c, p1) := dataSymbol p b
    let (cs, p2) := dataSymbols p1 bs
    (c :: cs, p2)

/-- Symbols as line bits. -/
def packLine (l : List Nat) : Nat := l.foldr (fun c acc => c + 1024 * acc) 0

/-- The bytes of a record that lane `j` carries: byte i on lane i mod 4. -/
def laneBytes (bs : List Byte) (j : Nat) : List Nat := ((bs.zipIdx.filter fun x => x.2 % 4 == j).map fun x => x.1.toNat)

/-- One lane of a record: K27.7, its bytes, K29.7, and the comma after it; its running disparity before the record is `plus`. -/
def lineLane (plus : Bool) (bs : List Byte) (j : Nat) : Nat :=
  let (k0, p0) := k27_7 plus
  let (cs, p1) := dataSymbols p0 (laneBytes bs j)
  let (k1, p2) := k29_7 p1
  packLine ([k0] ++ cs ++ [k1, (k28_5 p2).1])

/-- The four lanes of a record. The commas before it leave each lane's disparity open: a bit of `seed`. -/
def portLines (seed : Nat) (bs : List Byte) : List Nat := (List.range 4).map fun j => lineLane (bit seed j) bs j

/-- DBG_CLK cycles, one symbol each, that a record takes with its start and end symbols. -/
def recordSymbols (bytes : Nat) : Nat := ceilDiv bytes 4 + 2

end Sys2Proof.Machine
end

