-- ==== Sys2Proof/Machine/RegRead.lean ====
section
/-! DEFINITION. What a register reads as, and the completion of host reads (R9-R14, R58-R62, R386, R417, R432, R438, R443, R468). -/

namespace Sys2Proof.Machine

/-! ## Registers that show what other parts of the state hold -/

/-- The stored word with a field shown from elsewhere. -/
def showField (w : Nat) (f : Fld) (v : Nat) : Nat := setBits w f.lo f.w v

/-- HIF_QSTATUSq: a command executes; the queue waits on a float or a stroke; its completion ring is full (R67). -/
def State.qStatus (s : State) (w q : Nat) : Nat :=
  let Q := s.q q
  let waits := match Q.cur with
    | some r => r.waiting
    | none => Q.active && match Q.cmds with
      | c :: _ => !qualOk s.clk.strokes s.clk.now c.bytes
      | [] => false
  let w1 := showField w (F.HIF_QSTATUS_RUNNING q) (b2n (Q.cur.any fun r => !r.waiting))
  showField (showField w1 (F.HIF_QSTATUS_WAITING q) (b2n waits)) (F.HIF_QSTATUS_CQ_STALL q)
    (b2n (s.cqFree q == 0 && s.on (F.HIF_QCTRL_ENABLE q)))

/-- WH_STP_FILLn: never more than the occupancy, never less by more than 256 bytes; how much less is left open (R108). -/
def State.stpFill (s : State) (n : Nat) : Nat := s.pipeFill n - min (s.pipeFill n) (Config.free s.fresh % 257)

/-- EG_GCL_STATUSn's entry and gates of the list in force now (R207). -/
def State.gclStatus (s : State) (w n : Nat) : Nat :=
  let now := (s.gates n).at_ s.clk.time
  showField (showField w (F.EG_GCL_STATUS_ENTRY n) now.1) (F.EG_GCL_STATUS_GATES n) now.2.1

/-- CI_BANK_STATUS of the bank that CI_BANK_SEL names (R337, R339). -/
def State.bankStatus (s : State) (w : Nat) : Nat :=
  let k := s.bank (s.get F.CI_BANK_SEL_BANK)
  showField (showField (showField w F.CI_BANK_STATUS_REMAP_LEFT k.left) F.CI_BANK_STATUS_RETIRING (b2n k.retireFrom.isSome))
    F.CI_BANK_STATUS_SPARE (b2n k.spare)

/-- CI_REMAP_ENTRYe of that bank. -/
def State.remapEntry (s : State) (e : Nat) : Nat :=
  match (s.bank (s.get F.CI_BANK_SEL_BANK)).entries[e]? with
  | some w => w + 2 ^ 31
  | none => 0

/-- A VEC command executes on Vp. -/
def State.vecBusy (s : State) (p : Nat) : Bool :=
  match (s.q (16 + p)).cur, (s.q (16 + p)).cmds with
  | some _, c :: _ => 0x10 ≤ cmdOp c.bytes
  | _, _ => false

/-- The value of the register at an offset, without any effect of the read. -/
def State.regValue (s : State) (off : Nat) : Nat :=
  match findRow regRows off with
  | none => 0
  | some (r, ix) =>
    let w := (s.word off).toNat
    let i := ix.headD 0
    let j := (ix.drop 1).headD 0
    if r.base = R.STK_NOW_LO then s.nowReg % 2 ^ 32
    else if r.base = R.STK_NOW_HI then s.nowReg / 2 ^ 32
    else if r.base = R.STK_TIME_LO then s.clk.time % 2 ^ 32
    else if r.base = R.STK_TIME_HI then s.clk.time / 2 ^ 32 % 2 ^ 32
    else if r.base = R.HIF_QSTATUS 0 then s.qStatus w i
    else if r.base = R.WH_STP_FILL 0 then s.stpFill i
    else if r.base = R.WH_REORDER_FILL 0 then (sget [] s.intake.reorder i).length
    else if r.base = R.EG_QFILL 0 0 then s.classBytes i j
    else if r.base = R.EG_GCL_STATUS 0 then s.gclStatus w i
    else if r.base = R.CI_BANK_STATUS then s.bankStatus w
    else if r.base = R.CI_REMAP_ENTRY 0 then s.remapEntry i
    else if r.base = R.PWR_STATUS then showField w F.PWR_STATUS_ARRAY_FRACTION s.rate8
    else if r.base = R.MX_VEC_STATUS 0 then showField w (F.MX_VEC_STATUS_BUSY i) (b2n (s.vecBusy i))
    else w

/-! ## BAR0 (R9, R10, R14, R62) -/

/-- How a BAR0 read is answered. -/
inductive Answer where
  | value      -- the register's value
  | reset      -- the register's reset value
  | zero       -- nothing there answers
  | abort      -- Completer Abort
  deriving DecidableEq, Repr

/-- Which answer an offset gives in each phase. -/
def State.answer (s : State) (off : Nat) : Answer :=
  if dbgBlock off && (!s.dbgClock || (s.retiredHold && off != R.DBG_STATUS)) then .zero
  else if s.frozen then (if dbgBlock off || off == R.GLB_STATUS then .value else .abort)
  else match s.phase with
    | .ready | .startup | .bist => .value
    | .hold | .recovery => if holdBlock off then .value else .reset
    | .safe => if (0x1A00000 ≤ off && off < 0x1B00000) || off == R.GLB_STATUS then .value else .abort
    | .reset => .zero

/-- What a read does besides: the high half is latched (R10); PWR_NOW.PEAK starts afresh; a free value is used up. -/
def State.readEffect (s : State) (row : RegRow) (off : Nat) : State :=
  let s1 := match row.half with
    | .lo => { s with host := { s.host with readLatch := sset 0 s.host.readLatch (off + 4) (2 ^ 32 + s.regValue (off + 4)) } }
    | _ => s
  if row.base = R.PWR_NOW then s1.put F.PWR_NOW_PEAK 0
  else if row.base = R.WH_STP_FILL 0 then { s1 with fresh := s1.fresh + 1 }
  else s1

/-- A read of a register: the high half of a pair answers what the last read of its low half latched, once. -/
def State.readReg (s : State) (off : Nat) : State × Nat :=
  match findRow regRows off with
  | none => (s, 0)
  | some (row, _) =>
    let l := sget 0 s.host.readLatch off
    if row.half = .hi && l != 0 then
      ({ s with host := { s.host with readLatch := sset 0 s.host.readLatch off 0 } }, l % 2 ^ 32)
    else (s.readEffect row off, s.regValue off)

def State.readBar0 (s : State) (offset : Nat) : State :=
  let off := offset / 4 * 4
  match s.answer off with
  | .value =>
    let (s1, v) := s.readReg off
    s1.emit (.data v)
  | .reset => s.emit (.data (resetWord off).toNat)
  | .zero => s.emit (.data 0)
  | .abort => s.abortRead

/-! ## BAR2 (R58-R60) -/

/-- The doorbell pages and the float windows as bytes would show them: a doorbell page reads what was last written. -/
def State.bar2Value (s : State) (off size : Nat) : Nat :=
  if off < 0x50000 then
    let Q := s.q (off / 0x1000)
    let o := off % 0x1000
    if o = 0 && size = 4 then Q.sqTail
    else if o = 4 && size = 4 then Q.cqHead
    else if o = 0 && size = 8 then Q.sqTail + 2 ^ 32 * Q.cqHead
    else 0
  else if 0x100000 ≤ off && off < 0x200000 then
    let v := (s.float ((off - 0x100000) / 8)).toNat
    if size = 8 && off % 8 = 0 then v
    else if size = 4 && off % 4 = 0 then bits v (8 * (off % 8)) 32
    else 0
  else 0

def State.readBar2 (s : State) (off size : Nat) : State :=
  if s.frozen || s.phase == .safe then s.abortRead
  else s.emit (.data (if s.barsOpen then s.bar2Value off size else 0))

/-- REGISTER_READ by host software or by a control core. A host read needs the PCI Express link, a core its clock. -/
def State.registerRead (s : State) (bar : Bar) (host : Bool) (offset size : Nat) : State :=
  if host && (!s.pcieUp || s.phase == .reset) then s
  else if !host && !s.live then s
  else match bar, host with
    | .bar0, _ => s.readBar0 offset
    | .bar2, true => s.readBar2 offset size
    | .bar2, false => s

def execRegisterRead (bar : Bar) (host : Bool) (offset size : Nat) (s : State) : Res :=
  .next (s.registerRead bar host offset size)

end Sys2Proof.Machine
end

