-- ==== Sys2Proof/Machine/Debug.lean ====
section
/-! DEFINITION. Readout through the capture port (R443-R447), and the JTAG port but for register access (R448). -/

namespace Sys2Proof.Machine

/-! ## What can be read (R443) -/

/-- A space may be read in the life-cycle state that governs: everything outside FIELD, spaces 0-5 there if CAPTURE_EN. -/
def State.spaceAllowed (s : State) (space : Nat) : Bool :=
  s.get F.GLB_STATUS_LIFECYCLE != 2 || (s.on F.DBG_CTRL_CAPTURE_EN && space ≤ 5)

/-- Instances of a space, from the first on: first, count. -/
def spaceInstances : Nat → Nat × Nat
  | 3 => (0, 68)
  | 4 => (0, 24)
  | 5 => (0, 8)
  | 6 => (1, 7)
  | 7 => (0, 256)
  | _ => (0, 256)

/-- Bytes of a space's instance; the spec gives a scan chain no length. -/
def spaceBytes (space inst : Nat) : Nat :=
  match space with
  | 0 => 0x4000000
  | 1 => 2 ^ 32
  | 2 => 384 * 2 ^ 30
  | 3 => 0x200000
  | 4 => 196624
  | 5 => if inst < 4 then 0x4000000 else if inst < 6 then 0x1000000 else 1114112
  | 6 => 0x100000
  | _ => 2 ^ 64

/-- Range, alignment and instance of a request are good. -/
def capRangeOk (space inst addr len : Nat) : Bool :=
  addr % 16 == 0 && len % 16 == 0 && len != 0 && addr + len ≤ spaceBytes space inst
    && (spaceInstances space).1 ≤ inst && inst < (spaceInstances space).1 + (spaceInstances space).2

/-- DBG_CAP_GO: a request is refused with the least of its reasons, or the readout starts (R444). -/
def State.capGo (s : State) : State :=
  let space := s.get F.DBG_CAP_SPACE_SPACE
  let inst := s.get F.DBG_CAP_SPACE_INSTANCE
  let addr := s.get64 R.DBG_CAP_ADDR_LO
  let len := s.get F.DBG_CAP_LEN
  let refuse (r : Nat) : State := (s.putB F.DBG_CAP_STATUS_REFUSED true).put F.DBG_CAP_STATUS_REASON r
  if !s.frozen then refuse 1
  else if !s.spaceAllowed space then refuse 2
  else if !capRangeOk space inst addr len then refuse 3
  else if s.on F.DBG_CAP_STATUS_BUSY then refuse 4
  else
    let t := ((s.putB F.DBG_CAP_STATUS_BUSY true).putB F.DBG_CAP_STATUS_REFUSED false).put F.DBG_CAP_STATUS_REASON 0
    { t with dbg := { t.dbg with readout := some (space, inst, addr, len), sent := 0, sentAt := s.clk.real } }

def execDbgCapGo (s : State) : Res := whenHost s R.DBG_CAP_GO State.capGo

/-! ## The units of a readout (R443, R445): 16 bytes and their flag -/

/-- A unit of a coded memory: a single error corrected; uncorrectable, poisoned and retired words as stored and flagged. -/
def State.codedUnit (s : State) (m : MemId) (a : Nat) : List Byte × Bool :=
  let w := a / m.wordBytes
  let c := s.coded m
  let stored := c.word m w ^^^ (sget 0 c.errs w % 2 ^ m.dataBits)
  let bad := s.chanRetired m w || match c.outcome m w with
    | .clean => false
    | .fixed _ => false
    | _ => true
  (((natBytes m.wordBytes (if bad then stored else c.value m w)).drop (a % m.wordBytes)).take 16, bad)

/-- A unit whose contents the spec does not give: unit `i` of the readout, free. -/
def State.freeUnit (s : State) (i : Nat) : List Byte × Bool :=
  ((List.range 16).map fun j => BitVec.ofNat 8 (Config.free (s.fresh + 17 * i + j + 1)),
   Config.free (s.fresh + 17 * i + 17) % 2 == 1)

/-- A register as it stood at cycle 8 (R443). -/
def State.frozenValue (s : State) (off : Nat) : Nat :=
  let t := { s with regs := s.dbg.frozenRegs, clk := { s.clk with time := s.get64 R.DBG_FREEZE_TIME_LO } }
  t.regValue off

/-- The tile buffer whose contents a physical tile holds: that of its logical tile, or of the tile that a spare mirrors, once the
copy is complete, every write having been made in both (R246). A spare still being copied into, a spare that has left a test and a
failed tile hold what the spec does not say. -/
def State.bufOf (s : State) (phys : Nat) : Option Nat :=
  let st := s.get (F.MX_TILE_STATE phys)
  if st = 0 || st = 3 then some (s.get (F.MX_TILE_LOGICAL phys))
  else match s.matrix.mirror with
  | some m => if m.spare = phys && m.done then some m.logical else none
  | none => none

/-- A spare whose buffer is zero with correct codes: initialised for a failed tile's place (R244). -/
def State.zeroSpare (s : State) (phys : Nat) : Bool := s.matrix.swaps.any fun x => x.spare == some phys && x.ready

/-- The frames of a standpipe as bytes, each padded to whole granules (R99, R100). -/
def State.pipeBytes (s : State) (n : Nat) : List Byte :=
  ((s.pipe n).map fun f => padTo (16 * granules f) f.bytes).flatten

/-- The granule at which a standpipe's read pointer stands: left open. -/
def State.pipeStart (s : State) : Nat := Config.free s.fresh % 12288

/-- A unit of a standpipe: a stored granule, or its pointers and fill; freed space holds free values. -/
def State.pipeUnit (s : State) (n a i : Nat) : List Byte × Bool :=
  let bs := s.pipeBytes n
  if a = 196608 then
    (natBytes 4 s.pipeStart ++ natBytes 4 ((s.pipeStart + bs.length / 16) % 12288) ++ natBytes 4 (s.stpFill n) ++ zeros 4, false)
  else
    let o := (a / 16 + 12288 - s.pipeStart) % 12288 * 16
    if o < bs.length then ((bs.drop o).take 16, false) else s.freeUnit i

/-- The capture bank that instance 6 or 7 shows: the one of even or of odd seal number. -/
def State.capBank (s : State) (k : Nat) : Option CapBank :=
  (s.capture.cur.toList ++ s.capture.closed).find? fun b => b.sealNo % 2 == k

/-- A unit of an on-chip memory of the Wellhead. -/
def State.chipUnit (s : State) (inst a i : Nat) : List Byte × Bool :=
  match inst with
  | 0 | 2 => (Memory.read s.banks.ruleA a 16, false)
  | 1 | 3 => (Memory.read s.banks.ruleB a 16, false)
  | 4 => (Memory.read s.banks.treeA a 16, false)
  | 5 => (Memory.read s.banks.treeB a 16, false)
  | _ => match s.capBank (inst - 6) with
    | none => s.freeUnit i
    | some b =>
      if a < 2 * b.cfg.nch + b.cfg.nch / 8 then
        b.words.getD (256 + a / 16) ([], false)
      else s.freeUnit i

/-- Unit `i` of a readout, at offset `a` of its space. -/
def State.capUnit (s : State) (space inst a i : Nat) : List Byte × Bool :=
  match space with
  | 0 => (((List.range 4).map fun j => natBytes 4 (s.frozenValue (a + 4 * j))).flatten, false)
  | 1 => s.codedUnit .cis a
  | 2 => s.codedUnit .aq a
  | 3 => match s.bufOf inst with
    | some l => s.codedUnit (.buf l) a
    | none => if s.zeroSpare inst then (zeros 16, false) else s.freeUnit i
  | 4 => s.pipeUnit inst a i
  | 5 => s.chipUnit inst a i
  | _ => s.freeUnit i

/-! ## Capture records (R446) -/

/-- A capture record: header, flags, data, check. -/
def capRecord (space inst addr seq : Nat) (units : List (List Byte × Bool)) : List Byte :=
  let flags := ((List.range units.length).map fun i => b2n (units.getD i ([], false)).2 * 2 ^ i).sum
  let body := natBytes 4 0x43460880 ++ natBytes 1 space ++ natBytes 1 inst ++ zeros 2 ++ natBytes 8 addr
    ++ natBytes 4 (16 * units.length) ++ natBytes 4 seq ++ natBytes 32 flags ++ zeros 8
    ++ (units.map fun u => padTo 16 u.1).flatten
  body ++ natBytes 4 (crc32c 0xFFFFFFFF body)

/-- A record leaves the capture port, on its four lanes (R447). -/
def State.sendRecord (s : State) (space inst addr seed : Nat) (units : List (List Byte × Bool)) : State :=
  let bs := capRecord space inst addr s.dbg.seq units
  let t := ((s.emit (.capture bs)).emit (.capturePort (portLines seed bs))).bumpSat F.DBG_CAP_STATUS_RECORDS
  { t with dbg := { t.dbg with seq := t.dbg.seq + 1 } }

/-- Record `k` of a readout leaves. A frozen part's memories stand still, so it reads them as they are; the free values of a readout's
units are numbered from where the part stood, and its records' disparities after them. -/
def State.sendReadout (s : State) (space inst addr len k : Nat) : State :=
  let us := (List.range (min 256 (len / 16 - 256 * k))).map fun j =>
    s.capUnit space inst (addr + 4096 * k + 16 * j) (256 * k + j)
  let t := s.sendRecord space inst (addr + 4096 * k) (Config.free (s.fresh + 17 * (len / 16) + 1 + k)) us
  { t with dbg := { t.dbg with sent := k + 1, sentAt := s.clk.real } }

/-- The next `n` records of a readout leave. -/
def State.sendRecords (s : State) (space inst addr len : Nat) : Nat → State
  | 0 => s
  | n + 1 => (s.sendReadout space inst addr len s.dbg.sent).sendRecords space inst addr len n

/-- CAPTURE_READOUT_DONE: every record of the readout has left (R444). -/
def State.readoutDone (s : State) : State :=
  match s.dbg.readout with
  | none => s
  | some (space, inst, addr, len) =>
    let t := s.sendRecords space inst addr len (ceilDiv len 4096 - s.dbg.sent)
    let t1 := (t.putB F.DBG_CAP_STATUS_BUSY false).putB F.DBG_CAP_STATUS_DONE true
    { t1 with dbg := { t1.dbg with readout := none }, fresh := s.fresh + 17 * (len / 16) + 1 + ceilDiv len 4096 }

def execCaptureReadoutDone (s : State) : Res := .next (if s.dbgClock && s.frozen then s.readoutDone else s)

/-- A tick of the capture port: a record whose symbols, one a lane each 10 ns, have gone has left; after the last one the readout is
done. One that a reset cuts off never leaves whole (R447, R449). -/
def State.tickPort (s : State) : State :=
  match s.dbg.readout with
  | none => s
  | some (space, inst, addr, len) =>
    let bytes := min 4096 (len - 4096 * s.dbg.sent) + 68
    if !s.dbgClock || s.clk.real < s.dbg.sentAt + 25 * recordSymbols bytes then s
    else
      let t := s.sendReadout space inst addr len s.dbg.sent
      if ceilDiv len 4096 ≤ t.dbg.sent then t.readoutDone else t

/-! ## JTAG (R448) -/

/-- A register whose first cell is nearest TDO, after bits are shifted in: what leaves TDO, and what the register then holds. -/
def shiftThrough (reg shift : List Bool) : List Bool × List Bool :=
  ((reg ++ shift).take shift.length, (reg ++ shift).drop shift.length)

/-- The low `n` bits of a number, least significant first. -/
def bitsOf (n v : Nat) : List Bool := (List.range n).map (bit v)

/-- The JTAG instruction register loaded; only EXTEST drives pins. -/
def State.loadInstr (s : State) (code : Nat) : State :=
  { s with dbg := { s.dbg with instr := code }, pins := { s.pins with driven := none } }

/-- The boundary register as it samples the low-speed lands, in the order of R455's table: RESET_N, READY, ALERT_N, FREEZE_N,
PPS_IN, APR_N, LA_GRP, SMB_ADDR, SMBCLK, SMBDAT, VID, VID_OK, the lowest bit of each first. `levels` are the levels outside. -/
def State.sampled (s : State) (levels : List Bool) : List Bool :=
  let lv (i : Nat) : Bool := levels.getD i false
  [lv 0, s.on F.GLB_STATUS_READY, !s.alertPin, lv 3, lv 4]
    ++ (List.range 10).map (fun i => !bit s.aprPins i)
    ++ (List.range 9).map (fun i => lv (15 + i))
    ++ bitsOf 6 (s.pins.vid.getD 0) ++ [s.pins.vid.isSome]

/-- The boundary register sampled, and new bits shifted in. -/
def State.scanBoundary (s : State) (levels shift : List Bool) : State :=
  let r := shiftThrough (s.sampled levels) shift
  { s.emit (.tdo r.1) with dbg := { s.dbg with boundary := r.2 } }

/-- EXTEST drives pins only while the 880 is frozen or RESET_N is low. -/
def State.extestDrives (s : State) : Bool := s.frozen || s.phase == .reset

def execSamplePreload (levels shift : List Bool) (s : State) : Res := .next ((s.loadInstr 2).scanBoundary levels shift)

def execExtest (levels shift : List Bool) (s : State) : Res :=
  let t := (s.loadInstr 0).scanBoundary levels shift
  .next (if s.extestDrives then { t with pins := { t.pins with driven := some t.dbg.boundary } } else t)

/-- The IDCODE: version, 0x0880, the manufacturer's code, 1. -/
def State.idcode (s : State) : Nat :=
  1 + 2 * (Config.jep106 % 2048) + 0x0880 * 2 ^ 12 + 2 ^ 28 * (s.get F.GLB_ID_STEPPING % 16)

def execIdcode (s : State) : Res := .next ((s.loadInstr 1).emit (.tdo (bitsOf 32 s.idcode)))

/-- BYPASS, and every code that selects no other register: one cell, which captures 0. -/
def execJtagBypass (code : Fin 256) (shift : List Bool) (s : State) : Res :=
  .next ((s.loadInstr code).emit (.tdo (shiftThrough [false] shift).1))

/-- SCAN_DUMP: a chain, whose length and bits the spec does not give, leaves the capture port as one record of space 7. -/
def State.scanDump (s : State) (chain : Nat) : State :=
  if !s.frozen || !s.dbgClock || s.get F.GLB_STATUS_LIFECYCLE = 2 || s.on F.DBG_CAP_STATUS_BUSY then s
  else
    let n := 1 + Config.free s.fresh % 256
    { s.sendRecord 7 chain 0 (Config.free (s.fresh + 17 * n + 1)) ((List.range n).map s.freeUnit) with fresh := s.fresh + 17 * n + 2 }

def execScanDump (chain : Fin 256) (s : State) : Res := .next ((s.loadInstr 0x21).scanDump chain)

end Sys2Proof.Machine
end

