-- ==== Sys2Proof/Machine/Mgmt.lean ====
section
/-! DEFINITION. The management endpoint: MCTP control, PLDM base and PLDM for platform monitoring (R466, R467). The messages'
formats are those of the specifications R466 names (PRESUMED, log 29): DSP0236, DSP0240, DSP0248. -/

namespace Sys2Proof.Machine

/-- The endpoint runs on VDD_IO 1.8 V and DBG_CLK alone: it answers in every phase, but not without DBG_CLK (R466, R468). -/
def State.reply (s : State) (bs : List Byte) : Res := .next (if s.dbgClock then s.emit (.mgmt bs) else s)

/-- An MCTP control response: message type 0, instance, command, completion code, data. -/
def mctpReply (inst cmd code : Nat) (data : List Byte) : List Byte :=
  natBytes 1 0 ++ natBytes 1 inst ++ natBytes 1 cmd ++ natBytes 1 code ++ data

/-- A PLDM response: message type 1, instance, PLDM type, command, completion code, data. -/
def pldmReply (inst type cmd code : Nat) (data : List Byte) : List Byte :=
  natBytes 1 1 ++ natBytes 1 inst ++ natBytes 1 type ++ natBytes 1 cmd ++ natBytes 1 code ++ data

/-! ## MCTP control -/

/-- Set Endpoint ID sets or forces an endpoint ID the bus owner may give; the other operations are invalid here. -/
def eidAccepted (operation : Nat) (eid : BitVec 8) : Bool := operation ≤ 1 && eid != 0 && eid != 0xFF

def execSetEndpointId (inst : Fin 32) (operation : Fin 4) (eid : BitVec 8) (s : State) : Res :=
  if !s.dbgClock then .next s
  else if eidAccepted operation eid then
    ({ s with mgmt := { s.mgmt with eid := eid.toNat } }).reply (mctpReply inst 1 0 [0, eid, 0])
  else s.reply (mctpReply inst 1 2 [])

def execGetEndpointId (inst : Fin 32) (s : State) : Res := s.reply (mctpReply inst 2 0 (natBytes 1 s.mgmt.eid ++ [0, 0]))

/-- The base, control and PLDM message types have a version; another type is not supported. -/
def execGetMctpVersionSupport (inst : Fin 32) (type : BitVec 8) (s : State) : Res :=
  if type = 0xFF || type.toNat ≤ 1 then
    s.reply (mctpReply inst 4 0 (natBytes 1 1 ++ natBytes 4 (Config.mctpVersion type.toNat).toNat))
  else s.reply (mctpReply inst 4 0x80 [])

def execGetMessageTypeSupport (inst : Fin 32) (s : State) : Res := s.reply (mctpReply inst 5 0 [1, 1])

/-! ## PLDM base -/

/-- The commands of a PLDM type that the endpoint supports; none of another type. -/
def pldmCommands : Nat → List Nat
  | 0 => [2, 3, 4, 5]
  | 2 => [0x11, 0x21, 0x50, 0x51]
  | _ => []

/-- A number with the listed bits set. -/
def bitSet (l : List Nat) : Nat := (l.map fun i => 2 ^ i).sum

/-- No terminus ID is ever assigned: SetTID is not supported. -/
def execGettid (inst : Fin 32) (s : State) : Res := s.reply (pldmReply inst 0 2 0 [0])

/-- GetPLDMVersion in one part: version, then its CRC-32. -/
def execGetpldmversion (inst : Fin 32) (_handle : BitVec 32) (flag type : BitVec 8) (s : State) : Res :=
  let code : Nat :=
    if (pldmCommands type.toNat).isEmpty then 0x83
    else if flag = 1 then 0
    else if flag = 0 then 0x80
    else 0x81
  let v := natBytes 4 (Config.pldmVersion type.toNat).toNat
  s.reply (pldmReply inst 0 3 code (if code = 0 then zeros 4 ++ [5] ++ v ++ fcs v else []))

def execGetpldmtypes (inst : Fin 32) (s : State) : Res := s.reply (pldmReply inst 0 4 0 (natBytes 8 (bitSet [0, 2])))

def execGetpldmcommands (inst : Fin 32) (type : BitVec 8) (version : BitVec 32) (s : State) : Res :=
  let cs := pldmCommands type.toNat
  let code : Nat := if cs.isEmpty then 0x83 else if version = Config.pldmVersion type.toNat then 0 else 0x84
  s.reply (pldmReply inst 0 5 code (if code = 0 then natBytes 32 (bitSet cs) else []))

/-- A command that the endpoint does not support is answered with ERROR_UNSUPPORTED_PLDM_CMD. -/
def execUnsupportedPldmCmd (inst : Fin 32) (type command : BitVec 8) (s : State) : Res :=
  if (pldmCommands type.toNat).contains command.toNat then .next s
  else s.reply (pldmReply inst (type.toNat % 64) command.toNat 0x05 [])

/-! ## Sensors (R467) -/

/-- The fuses are loaded and VDD_CORE is above its reset level: a loss of it resets the 880, and STAGE with it. -/
def State.coreSensors (s : State) : Bool := s.get F.GLB_STATUS_STAGE != 0

/-- A numeric sensor's reading: its register's value, 16 bits, and whether it is signed. -/
def State.numeric (s : State) (id : Nat) : Option (Nat × Bool) :=
  if id = 1 then some (s.get F.PWR_TJ_NOW, true)
  else if id = 2 then some (s.get F.PWR_NOW_WATTS, false)
  else if 3 ≤ id && id ≤ 11 then some (s.get (F.PWR_RAIL_MV (id - 3)), false)
  else if id = 12 then some (s.get F.PWR_LIMIT_WATTS, false)
  else if 13 ≤ id && id ≤ 22 then some (s.get (F.LK_INLET_POWER (id - 13)), true)
  else none

/-- Whether a numeric sensor's source runs: rails report whenever VDD_IO 1.8 V is up. -/
def State.sensorUp (s : State) (id : Nat) : Bool := (3 ≤ id && id ≤ 11) || s.coreSensors

/-- The state of a numeric sensor against its thresholds, coded as in DSP0248: normal 1, lower warning 5, lower fatal 7, upper
warning 8, upper fatal 10. -/
def State.numericState (s : State) (id v : Nat) : Nat :=
  if id = 1 then (if 1150 ≤ sInt 16 v then 10 else if s.get F.PWR_TWARN_LEVEL ≤ sInt 16 v then 8 else 1)
  else if id = 2 then (if s.get F.PWR_LIMIT_WATTS ≤ v then 8 else 1)
  else if 3 ≤ id && id ≤ 11 then (if s.atReset (id - 3) v then 7 else if s.belowWarn (id - 3) v then 5 else 1)
  else if 13 ≤ id && id ≤ 22 then (if sInt 16 v < 1900 then 5 else 1)
  else 1

/-- GetSensorReading: reading, operational and present state; the previous state, and a reading that is not there, are free. -/
def execGetsensorreading (inst : Fin 32) (sensor : BitVec 16) (s : State) : Res :=
  let id := sensor.toNat
  match s.numeric id with
  | none => s.reply (pldmReply inst 2 0x11 0x80 [])
  | some (v, signed) =>
    let (bs, s1) := s.freeBytes 4
    let up := s.sensorUp id
    let head := natBytes 1 (if signed then 3 else 2) ++ natBytes 1 (if up then 0 else 2) ++ [0]
      ++ natBytes 1 (if up then s.numericState id v else 0) ++ bs.take 2
    s1.reply (pldmReply inst 2 0x11 0 (head ++ (if up then natBytes 2 v else bs.drop 2)))

/-- A state sensor's state, and the highest it has. -/
def State.stateOf (s : State) (id : Nat) : Option (Nat × Nat) :=
  if id = 100 then some (if s.on F.GLB_STATUS_FAULT_HOLD then 8 else s.get F.GLB_STATUS_STAGE, 8)
  else if id = 101 then some (s.get F.GLB_STATUS_LIFECYCLE, 4)
  else if 102 ≤ id && id ≤ 113 then
    some (if s.on (F.LK_PAIR_STATUS_STUCK (id - 102)) then 7 else s.get (F.LK_PAIR_STATUS_STATE (id - 102)), 7)
  else if id = 114 then some (b2n s.alertPin, 1)
  else if id = 115 then some (b2n (s.on F.DBG_STATUS_FROZEN), 1)
  else none

/-- GetStateSensorReadings: one sensor each; its previous state is free. -/
def execGetstatesensorreadings (inst : Fin 32) (sensor : BitVec 16) (s : State) : Res :=
  match s.stateOf sensor.toNat with
  | none => s.reply (pldmReply inst 2 0x21 0x80 [])
  | some (v, _) =>
    let (bs, s1) := s.freeBytes 2
    s1.reply (pldmReply inst 2 0x21 0 ([1, 0] ++ natBytes 1 v ++ bs))

/-! ## The PDR repository (R467): one record for each sensor, numbered from 1 in the order of their IDs -/

/-- The sensor of a record. -/
def pdrSensor (handle : Nat) : Option Nat :=
  if 1 ≤ handle && handle ≤ 22 then some handle
  else if 23 ≤ handle && handle ≤ 38 then some (handle + 77)
  else none

/-- Numeric records carry 81 bytes, state records 27 or 28. -/
def pdrSize (id : Nat) : Nat := if id < 100 then 81 else if id = 100 then 28 else 27

/-- Base unit and its decimal exponent: °C in 0.1, V in 0.001, W; DSP0248's code for dBm is left open. -/
def pdrUnit (id : Nat) : List (Nat × List Byte) :=
  if id = 1 then [(22, [2, 0xFF])]
  else if 3 ≤ id && id ≤ 11 then [(22, [5, 0xFD])]
  else if id ≤ 12 then [(22, [7, 0])]
  else [(23, [0xFE])]

/-- The update interval in seconds, a 32-bit float; none for a sensor that updates on change. -/
def pdrInterval (id : Nat) : List (Nat × List Byte) :=
  if id = 1 then [(53, natBytes 4 0x3727C5AC)]
  else if id ≤ 11 then [(53, natBytes 4 0x3A83126F)]
  else if id = 12 then []
  else [(53, natBytes 4 0x3C23D70A)]

/-- Thresholds: which there are, and their values. -/
def State.pdrThresholds (s : State) (id : Nat) : List (Nat × List Byte) :=
  if id = 1 then [(47, [0x05]), (69, natBytes 2 (s.get F.PWR_TWARN_LEVEL)), (77, natBytes 2 1150)]
  else if id = 2 then [(47, [0x01]), (69, natBytes 2 (s.get F.PWR_LIMIT_WATTS))]
  else if 3 ≤ id && id ≤ 11 then
    [(47, [0x28]), (71, natBytes 2 (94 * s.setPoint (id - 3) / 100)), (79, natBytes 2 (90 * s.setPoint (id - 3) / 100))]
  else if id = 12 then [(47, [0])]
  else [(47, [0x08]), (71, natBytes 2 1900)]

/-- The fields of a record that the spec determines. -/
def State.pdrFields (s : State) (handle id : Nat) : List (Nat × List Byte) :=
  let head := [(0, natBytes 4 handle), (4, [1]), (8, natBytes 2 (pdrSize id - 10)), (12, natBytes 2 id)]
  if id < 100 then
    head ++ [(5, [2]), (31, [1]), (32, natBytes 1 (if id = 1 || 13 ≤ id then 3 else 2))] ++ pdrUnit id ++ pdrInterval id
      ++ s.pdrThresholds id
  else
    let top := ((s.stateOf id).getD (0, 0)).2
    head ++ [(5, [4]), (22, [1]), (25, natBytes 1 (pdrSize id - 26)), (26, natBytes (pdrSize id - 26) (2 ^ (top + 1) - 1))]

/-- A record's bytes; those the spec does not give are left open. -/
def State.pdrBytes (s : State) (handle id : Nat) : List Byte :=
  (s.pdrFields handle id).foldl (fun bs (o, new) => putBytes bs o new) ((List.range (pdrSize id)).map (Config.pdrByte handle))

/-- CRC-8 of a record sent in several parts: polynomial x^8 + x^2 + x + 1. -/
def crc8Step : Nat → Nat → Nat
  | 0, c => c
  | n + 1, c => crc8Step n (if 128 ≤ c then (2 * c % 256) ^^^ 7 else 2 * c)
def crc8 (bs : List Byte) : Nat := bs.foldl (fun c b => crc8Step 8 (c ^^^ b.toNat)) 0

def execGetpdrrepositoryinfo (inst : Fin 32) (s : State) : Res :=
  s.reply (pldmReply inst 2 0x50 0 ([0] ++ (List.range 26).map Config.pdrInfo ++ natBytes 4 38 ++ natBytes 4 2215 ++ natBytes 4 81
    ++ [Config.pdrInfo 26]))

/-- The part of a record from byte `o` on: next handles, transfer flag (start 0, middle 1, end 4, all in one 5), data, CRC. -/
def pdrPart (rec_ : List Byte) (handle o count : Nat) : List Byte :=
  let d := (rec_.drop o).take count
  let last := rec_.length ≤ o + count
  let flag := if last then (if o = 0 then 5 else 4) else if o = 0 then 0 else 1
  natBytes 4 (if handle = 38 then 0 else handle + 1) ++ natBytes 4 (if last then 0 else o + count) ++ natBytes 1 flag
    ++ natBytes 2 d.length ++ d ++ (if flag = 4 then natBytes 1 (crc8 rec_) else [])

/-- GetPDR: record 0 is the first one; a next part is asked for with the handle that the part before it gave. -/
def execGetpdr (inst : Fin 32) (record handle : BitVec 32) (flag : BitVec 8) (count change : BitVec 16) (s : State) : Res :=
  let h := if record = 0 then 1 else record.toNat
  match pdrSensor h with
  | none => s.reply (pldmReply inst 2 0x51 0x82 [])
  | some id =>
    let rec_ := s.pdrBytes h id
    let o := if flag = 1 then 0 else handle.toNat
    let code : Nat :=
      if flag.toNat ≤ 1 then
        (if flag = 0 && (o = 0 || rec_.length ≤ o) then 0x80
         else if flag = 0 && fieldAt rec_ 6 2 != change.toNat then 0x83 else 0)
      else 0x81
    s.reply (pldmReply inst 2 0x51 code (if code = 0 then pdrPart rec_ h o count.toNat else []))

end Sys2Proof.Machine
end

