-- ==== Sys2Proof/Machine/RegWrite.lean ====
section
/-! DEFINITION. Writes of registers: which fields a write reaches, and what it starts besides (R9-R14, and the register tables of
every chapter); JTAG access to the DBG block (R448). -/

namespace Sys2Proof.Machine

/-! ## Guards: what the register tables call writable only on a condition -/

/-- LK_CTRLn's guarded fields: PERS and RATE while ENABLE is 0, PERS also only where the pair stays as it is (R341, R363, R471). -/
def State.linkFieldOpen (s : State) (n lo : Nat) : Bool :=
  let off := !s.on (F.LK_CTRL_ENABLE n)
  if lo = 1 then off && n < 24 && (s.get (F.LK_PAIR_STATUS_STATE (n / 2)) == 0 || s.mode n != 1)
  else if lo = 2 then off
  else lo != 0

/-- No Luapo link has ENABLE set. -/
def State.noLuapo (s : State) : Bool :=
  (List.range 40).all fun n => s.ethernet n || !s.on (F.LK_CTRL_ENABLE n)

/-- A locked field's lock is open (RWL). -/
def State.lockOpen (s : State) (base : Nat) : Bool :=
  if base == R.HIF_BAR4_CTRL then !s.on F.HIF_LOCK_LOCK
  else if base == R.DBG_CTRL then !s.on F.DBG_CTRL_LOCK
  else !s.on F.RV_LOCK_LOCK

/-- A write reaches a field of the register with index `i`: host-only fields need host software or the JTAG port, and some are
writable on a condition only. Fields whose write starts something are set by what it starts. -/
def State.fieldOpen (s : State) (host : Bool) (i : Nat) (base : Nat) (f : FieldRow) : Bool :=
  if f.ho && !host then false
  else if f.acc == .rwl && !s.lockOpen base then false
  else if base = R.STK_CTRL then f.lo != 0 && (f.lo != 1 || !s.on F.STK_CTRL_ENABLE)
  else if base = R.STK_BASE_LO || base = R.STK_BASE_HI || base = R.STK_ORIGIN_LO || base = R.STK_ORIGIN_HI then
    !s.on F.STK_CTRL_ENABLE
  else if base = R.HIF_QCTRL 0 then 2 < f.lo && (16 ≤ f.lo || s.ringWritable i)
  else if base = R.HIF_QSQBASE_LO 0 || base = R.HIF_QSQBASE_HI 0 || base = R.HIF_QCQBASE_LO 0 || base = R.HIF_QCQBASE_HI 0 then
    s.ringWritable i
  else if base = R.HIF_EVT_CTRL then f.lo != 0 && (f.lo != 3 || !s.on F.HIF_EVT_CTRL_ENABLE)
  else if base = R.HIF_EVT_BASE_LO || base = R.HIF_EVT_BASE_HI then !s.on F.HIF_EVT_CTRL_ENABLE
  else if base = R.WH_LINK_CTRL 0 then f.lo != 0
  else if base = R.WH_FE_CTRL then f.lo != 0 && !s.on F.WH_FE_CTRL_EN
  else if base = R.WH_FE_BASE_LO || base = R.WH_FE_BASE_HI then !s.on F.WH_FE_CTRL_EN
  else if base = R.LK_CTRL 0 then s.linkFieldOpen i f.lo
  else if base = R.LK_LUAPO_DEVID then s.noLuapo
  else true

/-- A write as far as it stores. -/
def State.plainWrite (s : State) (host : Bool) (row : RegRow) (i off v : Nat) : State :=
  s.store row off (s.fieldOpen host i) v

/-- The state after a row of the command table, whose meanings always answer one. -/
def afterRow (s : State) : Res → State
  | .next t => t
  | _ => s

/-! ## What a write starts, by block -/

/-- STK_CTRL and STK_PERIOD (R18, R24, R26). -/
def State.writeStk (s : State) (host : Bool) (row : RegRow) (off v : Nat) : Option State :=
  if row.base = R.STK_PERIOD then some (s.writePeriod v)
  else if row.base = R.STK_CTRL then
    let t := s.plainWrite host row 0 off v
    some (if bit v 0 then t.enableStrokes else t.disableStrokes.showIdle)
  else if row.base = R.GLB_RESET then some (afterRow s (execGlbReset (BitVec.ofNat 32 v) s))
  else none

/-- A ring size the register's table admits (R65). -/
def ringSizeOk (n : Nat) : Bool := 6 ≤ n && n ≤ 16

/-- HIF_QCTRLq: sizes first, each one out of range an error of its own; then RESET as the queue stands, ENABLE cleared, RESET as
the queue then stands, STOP, ENABLE set (R65, R80). -/
def State.writeQctrl (s : State) (row : RegRow) (q off v : Nat) : State :=
  let reset (t : State) : State := if bit v 2 then t.resetQueue q else t
  let t := s.plainWrite true row q off v
  let t1 := if ringSizeOk (bits v 3 5) then t else t.ringError q 3
  let t2 := reset (if ringSizeOk (bits v 8 5) then t1 else t1.ringError q 3)
  let t3 := reset (if bit v 0 then t2 else t2.disableQueue q)
  let t4 := if bit v 1 then t3.setStop q else t3.clearStop q
  if bit v 0 then t4.enableQueue q else t4

/-- HIF_EVT_CTRL (R87). -/
def State.writeEvtCtrl (s : State) (row : RegRow) (off v : Nat) : State :=
  let t := s.plainWrite true row 0 off v
  let t1 := if ringSizeOk (bits v 3 5) then t else t.ringError 0xFF 3
  if bit v 0 then t1.enableEvents else t1.putB F.HIF_EVT_CTRL_ENABLE false

/-- The HIF block and the MSI-X table (R65, R80, R84, R85, R87). -/
def State.writeHif (s : State) (row : RegRow) (i off v : Nat) : Option State :=
  if row.base = R.HIF_QCTRL 0 then some (s.writeQctrl row i off v)
  else if row.base = R.HIF_EVT_CTRL then some (s.writeEvtCtrl row off v)
  else if row.base = R.HIF_DMAW_0 0 then some (s.rewriteWindow i 0 v)
  else if row.base = R.HIF_DMAW_4 0 then some (s.rewriteWindow i 1 v)
  else if row.base = R.HIF_DMAW_8 0 then some (s.rewriteWindow i 2 v)
  else if row.base = R.HIF_DMAW_C 0 then some (s.rewriteWindow i 3 v)
  else if row.base = R.MSIX_CTRL 0 then some (if bit v 0 then s.putB (F.MSIX_CTRL_MASK i) true else s.unmask i)
  else none

/-- The control register of a bank: ARM, then DISARM, then COPY (R152, R153). -/
def State.writeBankCtrl (s : State) (b : BankKind) (v : Nat) : State :=
  let t := if bit v 0 then s.armBank b else s
  let t1 := if bit v 1 then t.disarmBank b else t
  if bit v 2 then t1.copyBank b else t1

/-- The Wellhead (R93, R106, R140, R151, R152, R180). -/
def State.writeWh (s : State) (host : Bool) (row : RegRow) (i off v : Nat) : Option State :=
  if stagingOff off then some (s.writeStaging off v)
  else if row.base = R.WH_LINK_CTRL 0 then some ((s.plainWrite host row i off v).setMode i (v % 4))
  else if row.base = R.WH_STP_CTRL 0 then
    let t := s.plainWrite host row i off v
    some (if bit v 0 then t.flush i else t)
  else if row.base = R.WH_FE_CTRL then
    let t := s.plainWrite host row i off v
    some (if !bit v 0 then t.putB F.WH_FE_CTRL_EN false else if t.flowRingFits then t.putB F.WH_FE_CTRL_EN true else s)
  else if row.base = R.WH_FE_CONS then
    some (if 2 ^ s.get F.WH_FE_CTRL_LOG2 ≤ v then s else s.plainWrite host row i off v)
  else if row.base = R.WH_FBANK_CTRL then some (s.writeBankCtrl .feature v)
  else if row.base = R.WH_RBANK_CTRL then some (s.writeBankCtrl .rule v)
  else if row.base = R.WH_EBANK_CTRL then some (s.writeBankCtrl .ensemble v)
  else if wordRefused row.base v then some s
  else none

/-- Whether a register belongs to the staging gate list of its link (R207). -/
def gclStaging (base : Nat) : Bool :=
  base == R.EG_GCL_BASE_HI 0 || base == R.EG_GCL_CYCLE 0 || base == R.EG_GCL_0 0 0 || base == R.EG_GCL_4 0 0

/-- Gate lists (R207). -/
def State.writeGcl (s : State) (host : Bool) (row : RegRow) (i off v : Nat) : Option State :=
  if row.base = R.EG_GCL_CTRL 0 then
    let t := ((s.plainWrite host row i off v).putB (F.EG_GCL_STATUS_STAGED i) false).modGates i fun g => { g with validating := false }
    some (if bit v 0 then t.gclCommit i else t)
  else if gclStaging row.base then
    some (((s.plainWrite host row i off v).putB (F.EG_GCL_STATUS_STAGED i) false).modGates i fun g => { g with validating := false })
  else none

/-- Retirements and remaps (R244, R337-R339). -/
def State.writeMem (s : State) (row : RegRow) (v : Nat) : Option State :=
  if !bit v 31 then none
  else if row.base = R.MX_RETIRE then some (afterRow s (execMxRetire (Fin.ofNat 128 v) s))
  else if row.base = R.CI_REMAP_CMD then
    some (afterRow s (if bit v 28 then execCiRetireBank (Fin.ofNat 268435456 v) s else execCiRemapWord (Fin.ofNat 268435456 v) s))
  else if row.base = R.AQ_REMAP_CMD then some (afterRow s (execAqRemapPage (Fin.ofNat 268435456 v) s))
  else none

/-- Links and pairs (R341, R352, R354, R361, R381). -/
def State.writeLk (s : State) (host : Bool) (row : RegRow) (i off v : Nat) : Option State :=
  if row.base = R.LK_CTRL 0 then
    let t := s.plainWrite host row i off v
    let t1 := if !host then t else if bit v 0 then t.enableLink i else t.disableLink i
    let t2 := if host && bit v 7 then t1.clearClamp i else t1
    let t3 := if bit v 6 then t2.recalLink i else t2
    some (if bit v 8 then t3.disableLink i else t3)
  else if row.base = R.LK_PAIR_CTRL 0 then
    let t := s.plainWrite host row i off v
    some (if bit v 1 then t.releasePair i else if bit v 0 then t.engage i else t)
  else none

/-- SEC_FW_CTRL: discarded while a replacement is in progress; SOURCE 1 loads the recovery buffer (R386-R388). -/
def State.writeFwCtrl (s : State) (row : RegRow) (off v : Nat) : State :=
  if !bit v 0 then s.plainWrite true row 0 off v
  else if s.on F.SEC_FW_STATUS_BUSY then s
  else
    let t := s.plainWrite true row 0 off v
    if bit v 2 then t.recoveryLoad else if t.live then t.stageModule (bit v 1) else t

/-- The SEC block (R386-R401). -/
def State.writeSec (s : State) (row : RegRow) (off v : Nat) : Option State :=
  let w := BitVec.ofNat 32 v
  if row.base = R.SEC_REC_CTRL then some (if bit v 0 then afterRow s (execRecStart s) else s)
  else if row.base = R.SEC_REC_DATA then some (afterRow s (execRecData w s))
  else if row.base = R.SEC_FW_CTRL then some (s.writeFwCtrl row off v)
  else if row.base = R.SEC_OWNER_CTRL then some (s.enrol v)
  else if row.base = R.SEC_LC_CTRL then
    some (if bit v 31 then afterRow s (execLcGo (Fin.ofNat 8 v) s) else s.plainWrite true row 0 off v)
  else if row.base = R.SEC_LC_CONSENT then some (afterRow s (execLcConsent w s))
  else if row.base = R.SEC_ATT_CTRL then some (if bit v 0 && s.live then s.attGo else s)
  else none

/-- Relief valves and self-test (R402, R405, R406, R427). The measured VDD_CORE is the last one of PWR_RAIL0. -/
def State.writeRv (s : State) (row : RegRow) (off v : Nat) : Option State :=
  if row.base = R.RV_TRIP_BYPASS then some (s.plainWrite true row 0 off (v ||| 0x43))
  else if row.base = R.RV_LINK_ALLOW_LO then some (afterRow s (execLinkAllowWrite false (BitVec.ofNat 32 v) s))
  else if row.base = R.RV_LINK_ALLOW_HI then some (afterRow s (execLinkAllowWrite true (BitVec.ofNat 32 v) s))
  else if row.base = R.PWR_BIST_CTRL then
    let mv := s.get (F.PWR_RAIL_MV 0)
    some (afterRow s (execFullBistRequest (BitVec.ofNat 32 v) (if mv = 0 then s.setPoint 0 else mv) s))
  else none

/-- The DBG block (R437, R444, R449). -/
def State.writeDbg (s : State) (row : RegRow) (off v : Nat) : Option State :=
  if row.base = R.DBG_CTRL then
    let t := s.plainWrite true row 0 off v
    some (if bit v 0 then t.freeze 2 else t)
  else if row.base = R.DBG_RELEASE then some (if v = 0xF12E0880 && s.frozen then s.resetWith 3 .startup else s)
  else if row.base = R.DBG_CAP_GO then some (if bit v 0 then s.capGo else s)
  else none

/-! ## A register write -/

/-- A full-word write that reaches a register: what it starts, or what it stores. A control core's write never reaches a
register of host-only fields alone (R11). -/
def State.writeWord (s : State) (host : Bool) (row : RegRow) (i off v : Nat) : State :=
  if !host && row.fields.all (·.ho) then s
  else
    (firstSome id [s.writeStk host row off v, s.writeHif row i off v, s.writeWh host row i off v, s.writeGcl host row i off v,
      s.writeMem row v, s.writeLk host row i off v, s.writeSec row off v, s.writeRv row off v, s.writeDbg row off v]).getD
      (s.plainWrite host row i off v)

/-- A write of a BAR0 offset: discarded unless all byte enables are set and a register that takes writes lies there (R9, R14). -/
def State.writeReg (s : State) (host : Bool) (off : Nat) (enables : Nat) (v : Nat) : State :=
  if enables != 15 || off % 4 != 0 || !s.takesWrite off then s
  else match findRow regRows off with
    | none => s
    | some (row, ix) => s.writeWord host row (ix.headD 0) off v

/-- REGISTER_WRITE by host software, over the PCI Express link, or by a running control core. -/
def execRegisterWrite (host : Bool) (offset : Nat) (enables : BitVec 4) (value : Word) (s : State) : Res :=
  .next (if (if host then s.pcieUp else s.live) then s.writeReg host offset enables.toNat value.toNat else s)

/-! ## DBG_ACCESS (R448) -/

/-- The DBG_ACCESS data register as it is shifted out: data, block offset, the write bit. -/
def dbgBits (value offset : Nat) (write : Bool) : List Bool :=
  bitsOf 64 (value % 2 ^ 32 + 2 ^ 32 * offset + 2 ^ 48 * b2n write)

/-- DBG_ACCESS: a read of DBG_STATUS always, everything else if CAPTURE_EN; a refused read answers a value left open. -/
def State.dbgPort (s : State) (value offset : Nat) (write : Bool) : State :=
  let off := R.DBG_CTRL + offset
  let open_ := s.on F.DBG_CTRL_CAPTURE_EN && !s.retiredHold
  if !s.dbgClock then s
  else if write then (if open_ then s.writeReg true off 15 value else s)
  else if open_ || off = R.DBG_STATUS then
    let (t, v) := s.readReg (off / 4 * 4)
    t.emit (.tdo (dbgBits v offset false))
  else
    let (v, t) := s.free
    t.emit (.tdo (dbgBits v offset false))

def execDbgAccess (value : Word) (offset : Fin 65536) (write : Bool) (s : State) : Res :=
  .next ((s.loadInstr 0x20).dbgPort value.toNat offset write)

end Sys2Proof.Machine
end

