-- ==== Sys2Proof/Machine/Dispatch.lean ====
section
/-! DEFINITION. The dispatcher: one arm for every command of the 880, in the table's order. -/

namespace Sys2Proof.Machine

/-- The effect of a command on everything but the queue of waiting commands. -/
def exec (i : Instr) (s : State) : Host.Outcome State Fault Refusal :=
  match i with
  | .strokeBoundary => Sys2Proof.Machine.execStrokeBoundary s
  | .openingBoundary => Sys2Proof.Machine.execOpeningBoundary s
  | .ptpMeasurement ptpNs logInterval => Sys2Proof.Machine.execPtpMeasurement ptpNs logInterval s
  | .ppsEdge => Sys2Proof.Machine.execPpsEdge s
  | .strokeMarkerReceive link flit => Sys2Proof.Machine.execStrokeMarkerReceive link flit s
  | .holdoverEntry => Sys2Proof.Machine.execHoldoverEntry s
  | .holdoverExpiry => Sys2Proof.Machine.execHoldoverExpiry s
  | .stkEnableSet => Sys2Proof.Machine.execStkEnableSet s
  | .stkEnableClear => Sys2Proof.Machine.execStkEnableClear s
  | .stkPeriodWrite period => Sys2Proof.Machine.execStkPeriodWrite period s
  | .powerMeasurement watts rails => Sys2Proof.Machine.execPowerMeasurement watts rails s
  | .registerWrite host offset enables value => Sys2Proof.Machine.execRegisterWrite host offset enables value s
  | .sqTailWrite q offset size value stores => Sys2Proof.Machine.execSqTailWrite q offset size value stores s
  | .cqHeadWrite q offset size value => Sys2Proof.Machine.execCqHeadWrite q offset size value s
  | .descriptorFetch q stores => Sys2Proof.Machine.execDescriptorFetch q stores s
  | .commandAdmit q => Sys2Proof.Machine.execCommandAdmit q s
  | .completionRecordWrite q => Sys2Proof.Machine.execCompletionRecordWrite q s
  | .floatSetWrite f offset size value => Sys2Proof.Machine.execFloatSetWrite f offset size value s
  | .floatAddWrite f offset size value => Sys2Proof.Machine.execFloatAddWrite f offset size value s
  | .waitSatisfied q => Sys2Proof.Machine.execWaitSatisfied q s
  | .nop q => Sys2Proof.Machine.execNop q s
  | .wait q => Sys2Proof.Machine.execWait q s
  | .set q => Sys2Proof.Machine.execSet q s
  | .arm q => Sys2Proof.Machine.execArm q s
  | .timestamp q => Sys2Proof.Machine.execTimestamp q s
  | .copy q stores => Sys2Proof.Machine.execCopy q stores s
  | .transpose q => Sys2Proof.Machine.execTranspose q s
  | .hostRequestTimeout q => Sys2Proof.Machine.execHostRequestTimeout q s
  | .queueEnable q => Sys2Proof.Machine.execQueueEnable q s
  | .queueDisable q => Sys2Proof.Machine.execQueueDisable q s
  | .queueStop q => Sys2Proof.Machine.execQueueStop q s
  | .queueResume q => Sys2Proof.Machine.execQueueResume q s
  | .queueReset q => Sys2Proof.Machine.execQueueReset q s
  | .dmaHaltClear q => Sys2Proof.Machine.execDmaHaltClear q s
  | .dmaWindowWrite n part value => Sys2Proof.Machine.execDmaWindowWrite n part value s
  | .hifLock => Sys2Proof.Machine.execHifLock s
  | .evtRingEnable => Sys2Proof.Machine.execEvtRingEnable s
  | .evtHeadWrite value => Sys2Proof.Machine.execEvtHeadWrite value s
  | .eventLoss => Sys2Proof.Machine.execEventLoss s
  | .evtHaltClear => Sys2Proof.Machine.execEvtHaltClear s
  | .irqHoldoffExpiry ring => Sys2Proof.Machine.execIrqHoldoffExpiry ring s
  | .msixUnmask vector => Sys2Proof.Machine.execMsixUnmask vector s
  | .bar4Read offset size => Sys2Proof.Machine.execBar4Read offset size s
  | .bar4Write offset data => Sys2Proof.Machine.execBar4Write offset data s
  | .glbReset key => Sys2Proof.Machine.execGlbReset key s
  | .functionLevelReset => Sys2Proof.Machine.execFunctionLevelReset s
  | .frameReceive link first chunk fin => Sys2Proof.Machine.execFrameReceive link first chunk fin s
  | .standpipeFlush link => Sys2Proof.Machine.execStandpipeFlush link s
  | .linkModeWrite link mode => Sys2Proof.Machine.execLinkModeWrite link mode s
  | .headDeal => Sys2Proof.Machine.execHeadDeal s
  | .flowLookup p => Sys2Proof.Machine.execFlowLookup p s
  | .flowInsertPort => Sys2Proof.Machine.execFlowInsertPort s
  | .insertWaitTimeout p => Sys2Proof.Machine.execInsertWaitTimeout p s
  | .relocationChain => Sys2Proof.Machine.execRelocationChain s
  | .featureProgram p => Sys2Proof.Machine.execFeatureProgram p s
  | .ruleClassify p => Sys2Proof.Machine.execRuleClassify p s
  | .ruleWordRefetch p mem word => Sys2Proof.Machine.execRuleWordRefetch p mem word s
  | .treeIssue lane => Sys2Proof.Machine.execTreeIssue lane s
  | .verdictStage p => Sys2Proof.Machine.execVerdictStage p s
  | .verdictDeadline link seq => Sys2Proof.Machine.execVerdictDeadline link seq s
  | .reorderRelease link => Sys2Proof.Machine.execReorderRelease link s
  | .verdictFrameHoldExpiry link => Sys2Proof.Machine.execVerdictFrameHoldExpiry link s
  | .egressEnqueue => Sys2Proof.Machine.execEgressEnqueue s
  | .egressSelect link => Sys2Proof.Machine.execEgressSelect link s
  | .egressFrameEnd link => Sys2Proof.Machine.execEgressFrameEnd link s
  | .gateEntryChange link => Sys2Proof.Machine.execGateEntryChange link s
  | .gateListTakeover link => Sys2Proof.Machine.execGateListTakeover link s
  | .gclCommit link => Sys2Proof.Machine.execGclCommit link s
  | .gclValidationDone link => Sys2Proof.Machine.execGclValidationDone link s
  | .agingScan ctx => Sys2Proof.Machine.execAgingScan ctx s
  | .flowEnd => Sys2Proof.Machine.execFlowEnd s
  | .flowEndRingEnable => Sys2Proof.Machine.execFlowEndRingEnable s
  | .flowInsert q => Sys2Proof.Machine.execFlowInsert q s
  | .flowDelete q => Sys2Proof.Machine.execFlowDelete q s
  | .flowRead q => Sys2Proof.Machine.execFlowRead q s
  | .devWrite q => Sys2Proof.Machine.execDevWrite q s
  | .rehashStart q => Sys2Proof.Machine.execRehashStart q s
  | .rehashStep q => Sys2Proof.Machine.execRehashStep q s
  | .senderRead q => Sys2Proof.Machine.execSenderRead q s
  | .senderWrite q => Sys2Proof.Machine.execSenderWrite q s
  | .senderDelete q => Sys2Proof.Machine.execSenderDelete q s
  | .tableClear q => Sys2Proof.Machine.execTableClear q s
  | .stagingBankWrite offset value => Sys2Proof.Machine.execStagingBankWrite offset value s
  | .fbankArm => Sys2Proof.Machine.execFbankArm s
  | .fbankDisarm => Sys2Proof.Machine.execFbankDisarm s
  | .fbankCopy => Sys2Proof.Machine.execFbankCopy s
  | .rbankArm => Sys2Proof.Machine.execRbankArm s
  | .rbankDisarm => Sys2Proof.Machine.execRbankDisarm s
  | .rbankCopy => Sys2Proof.Machine.execRbankCopy s
  | .ebankArm => Sys2Proof.Machine.execEbankArm s
  | .ebankDisarm => Sys2Proof.Machine.execEbankDisarm s
  | .ebankCopy => Sys2Proof.Machine.execEbankCopy s
  | .bankValidationDone bank => Sys2Proof.Machine.execBankValidationDone bank s
  | .bankCopyDone bank => Sys2Proof.Machine.execBankCopyDone bank s
  | .bankRetired bank => Sys2Proof.Machine.execBankRetired bank s
  | .ruleLoad q stores => Sys2Proof.Machine.execRuleLoad q stores s
  | .ensLoad q stores => Sys2Proof.Machine.execEnsLoad q stores s
  | .treeGroupFail group => Sys2Proof.Machine.execTreeGroupFail group s
  | .spareGroupLoaded => Sys2Proof.Machine.execSpareGroupLoaded s
  | .ensembleRun q => Sys2Proof.Machine.execEnsembleRun q s
  | .policerWrite q stores => Sys2Proof.Machine.execPolicerWrite q stores s
  | .policerRead q => Sys2Proof.Machine.execPolicerRead q s
  | .matmul q faults => Sys2Proof.Machine.execMatmul q faults s
  | .conv q faults => Sys2Proof.Machine.execConv q faults s
  | .move q => Sys2Proof.Machine.execMove q s
  | .tileFail tile => Sys2Proof.Machine.execTileFail tile s
  | .mxRetire tile => Sys2Proof.Machine.execMxRetire tile s
  | .spareTileReady => Sys2Proof.Machine.execSpareTileReady s
  | .tileMirrorDone => Sys2Proof.Machine.execTileMirrorDone s
  | .vectorUnitFail part => Sys2Proof.Machine.execVectorUnitFail part s
  | .quant q => Sys2Proof.Machine.execQuant q s
  | .requant q => Sys2Proof.Machine.execRequant q s
  | .map q => Sys2Proof.Machine.execMap q s
  | .reduce q => Sys2Proof.Machine.execReduce q s
  | .captureDrain => Sys2Proof.Machine.execCaptureDrain s
  | .capCtrl q => Sys2Proof.Machine.execCapCtrl q s
  | .capMapLoad q stores => Sys2Proof.Machine.execCapMapLoad q stores s
  | .ctxOpen q => Sys2Proof.Machine.execCtxOpen q s
  | .ctxClose q => Sys2Proof.Machine.execCtxClose q s
  | .ctxRead q => Sys2Proof.Machine.execCtxRead q s
  | .ctxAdvance q => Sys2Proof.Machine.execCtxAdvance q s
  | .modelCfg q => Sys2Proof.Machine.execModelCfg q s
  | .prime q stores => Sys2Proof.Machine.execPrime q stores s
  | .commit q => Sys2Proof.Machine.execCommit q s
  | .abandon q => Sys2Proof.Machine.execAbandon q s
  | .modelSelect q => Sys2Proof.Machine.execModelSelect q s
  | .modelRead q => Sys2Proof.Machine.execModelRead q s
  | .retire q => Sys2Proof.Machine.execRetire q s
  | .pageCorrection mem page upsets => Sys2Proof.Machine.execPageCorrection mem page upsets s
  | .scrubRead mem upsets columns => Sys2Proof.Machine.execScrubRead mem upsets columns s
  | .ciRemapWord addr => Sys2Proof.Machine.execCiRemapWord addr s
  | .ciRetireBank addr => Sys2Proof.Machine.execCiRetireBank addr s
  | .bankRetireCopyDone bank => Sys2Proof.Machine.execBankRetireCopyDone bank s
  | .aqRemapPage page => Sys2Proof.Machine.execAqRemapPage page s
  | .aquiferChannelRetire channel => Sys2Proof.Machine.execAquiferChannelRetire channel s
  | .aquiferZqTracking channel passed ecc => Sys2Proof.Machine.execAquiferZqTracking channel passed ecc s
  | .faultInjectArm mem value => Sys2Proof.Machine.execFaultInjectArm mem value s
  | .linkEnable link => Sys2Proof.Machine.execLinkEnable link s
  | .linkDisable link => Sys2Proof.Machine.execLinkDisable link s
  | .park link => Sys2Proof.Machine.execPark link s
  | .recal link => Sys2Proof.Machine.execRecal link s
  | .clampClr link => Sys2Proof.Machine.execClampClr link s
  | .clampRelightStep link => Sys2Proof.Machine.execClampRelightStep link s
  | .linkUp link => Sys2Proof.Machine.execLinkUp link s
  | .linkDown link => Sys2Proof.Machine.execLinkDown link s
  | .lossOfLight link power => Sys2Proof.Machine.execLossOfLight link power s
  | .aprRelease inlet => Sys2Proof.Machine.execAprRelease inlet s
  | .inletLow inlet power => Sys2Proof.Machine.execInletLow inlet power s
  | .laneFail link wavelength fault => Sys2Proof.Machine.execLaneFail link wavelength fault s
  | .laneSettleExpiry link => Sys2Proof.Machine.execLaneSettleExpiry link s
  | .ringHop link wavelength receive found => Sys2Proof.Machine.execRingHop link wavelength receive found s
  | .opticalClampTrip link power => Sys2Proof.Machine.execOpticalClampTrip link power s
  | .engage pair => Sys2Proof.Machine.execEngage pair s
  | .release pair => Sys2Proof.Machine.execRelease pair s
  | .bypassMoveDone pair => Sys2Proof.Machine.execBypassMoveDone pair s
  | .pairTrainingTimeout pair => Sys2Proof.Machine.execPairTrainingTimeout pair s
  | .autoRevert pair => Sys2Proof.Machine.execAutoRevert pair s
  | .bypassSenseTimeout pair => Sys2Proof.Machine.execBypassSenseTimeout pair s
  | .flitReceive link input => Sys2Proof.Machine.execFlitReceive link input s
  | .nak link flit => Sys2Proof.Machine.execNak link flit s
  | .replayTimeout link => Sys2Proof.Machine.execReplayTimeout link s
  | .messageWrite link => Sys2Proof.Machine.execMessageWrite link s
  | .init link flit => Sys2Proof.Machine.execInit link flit s
  | .delayReq link => Sys2Proof.Machine.execDelayReq link s
  | .delayResp link flit => Sys2Proof.Machine.execDelayResp link flit s
  | .routeWrite q stores => Sys2Proof.Machine.execRouteWrite q stores s
  | .routeRead q => Sys2Proof.Machine.execRouteRead q s
  | .fwReplace cold => Sys2Proof.Machine.execFwReplace cold s
  | .fwRecoveryLoad => Sys2Proof.Machine.execFwRecoveryLoad s
  | .recStart => Sys2Proof.Machine.execRecStart s
  | .recData value => Sys2Proof.Machine.execRecData value s
  | .fwCheckDone => Sys2Proof.Machine.execFwCheckDone s
  | .fwHandover body => Sys2Proof.Machine.execFwHandover body s
  | .fwStart => Sys2Proof.Machine.execFwStart s
  | .fwQuiesceTimeout => Sys2Proof.Machine.execFwQuiesceTimeout s
  | .fwStartTimeout => Sys2Proof.Machine.execFwStartTimeout s
  | .fwStoreWriteDone => Sys2Proof.Machine.execFwStoreWriteDone s
  | .watchdog core => Sys2Proof.Machine.execWatchdog core s
  | .lcConsent value => Sys2Proof.Machine.execLcConsent value s
  | .lcGo target => Sys2Proof.Machine.execLcGo target s
  | .lifecycleChange healthy => Sys2Proof.Machine.execLifecycleChange healthy s
  | .ownerEnrol value => Sys2Proof.Machine.execOwnerEnrol value s
  | .attestationGo => Sys2Proof.Machine.execAttestationGo s
  | .attestationDone => Sys2Proof.Machine.execAttestationDone s
  | .rvLock => Sys2Proof.Machine.execRvLock s
  | .linkAllowWrite high value => Sys2Proof.Machine.execLinkAllowWrite high value s
  | .dropBudgetWindow => Sys2Proof.Machine.execDropBudgetWindow s
  | .originationWindowEnd => Sys2Proof.Machine.execOriginationWindowEnd s
  | .powerOn => Sys2Proof.Machine.execPowerOn s
  | .resetN low => Sys2Proof.Machine.execResetN low s
  | .startup found => Sys2Proof.Machine.execStartup found s
  | .railWarnCross rail mv => Sys2Proof.Machine.execRailWarnCross rail mv s
  | .brownoutHalving rail => Sys2Proof.Machine.execBrownoutHalving rail s
  | .brownout rail => Sys2Proof.Machine.execBrownout rail s
  | .railResetLevel rail mv => Sys2Proof.Machine.execRailResetLevel rail mv s
  | .vddcSetMove mv => Sys2Proof.Machine.execVddcSetMove mv s
  | .junctionSample tenths => Sys2Proof.Machine.execJunctionSample tenths s
  | .thermalTrip tenths => Sys2Proof.Machine.execThermalTrip tenths s
  | .clkRefLoss => Sys2Proof.Machine.execClkRefLoss s
  | .peRefclkLoss => Sys2Proof.Machine.execPeRefclkLoss s
  | .fullBistRequest key coreMv => Sys2Proof.Machine.execFullBistRequest key coreMv s
  | .fullBistEnd failed coreMv => Sys2Proof.Machine.execFullBistEnd failed coreMv s
  | .istStep unit fault coreMv => Sys2Proof.Machine.execIstStep unit fault coreMv s
  | .istSliceAbort block => Sys2Proof.Machine.execIstSliceAbort block s
  | .freezePin => Sys2Proof.Machine.execFreezePin s
  | .freeze => Sys2Proof.Machine.execFreeze s
  | .freezeEventTrigger => Sys2Proof.Machine.execFreezeEventTrigger s
  | .prefreezeEnd => Sys2Proof.Machine.execPrefreezeEnd s
  | .dbgCapGo => Sys2Proof.Machine.execDbgCapGo s
  | .captureReadoutDone => Sys2Proof.Machine.execCaptureReadoutDone s
  | .dbgRelease key => Sys2Proof.Machine.execDbgRelease key s
  | .extest levels shift => Sys2Proof.Machine.execExtest levels shift s
  | .idcode => Sys2Proof.Machine.execIdcode s
  | .samplePreload levels shift => Sys2Proof.Machine.execSamplePreload levels shift s
  | .dbgAccess value offset write => Sys2Proof.Machine.execDbgAccess value offset write s
  | .scanDump chain => Sys2Proof.Machine.execScanDump chain s
  | .jtagBypass code shift => Sys2Proof.Machine.execJtagBypass code shift s
  | .setEndpointId inst operation eid => Sys2Proof.Machine.execSetEndpointId inst operation eid s
  | .getEndpointId inst => Sys2Proof.Machine.execGetEndpointId inst s
  | .getMctpVersionSupport inst type => Sys2Proof.Machine.execGetMctpVersionSupport inst type s
  | .getMessageTypeSupport inst => Sys2Proof.Machine.execGetMessageTypeSupport inst s
  | .gettid inst => Sys2Proof.Machine.execGettid inst s
  | .getpldmversion inst handle flag type => Sys2Proof.Machine.execGetpldmversion inst handle flag type s
  | .getpldmtypes inst => Sys2Proof.Machine.execGetpldmtypes inst s
  | .getpldmcommands inst type version => Sys2Proof.Machine.execGetpldmcommands inst type version s
  | .getpdrrepositoryinfo inst => Sys2Proof.Machine.execGetpdrrepositoryinfo inst s
  | .getpdr inst record handle flag count change => Sys2Proof.Machine.execGetpdr inst record handle flag count change s
  | .getsensorreading inst sensor => Sys2Proof.Machine.execGetsensorreading inst sensor s
  | .getstatesensorreadings inst sensor => Sys2Proof.Machine.execGetstatesensorreadings inst sensor s
  | .unsupportedPldmCmd inst type command => Sys2Proof.Machine.execUnsupportedPldmCmd inst type command s
  | .registerRead bar host offset size => Sys2Proof.Machine.execRegisterRead bar host offset size s
  | .configSpaceWrite field value => Sys2Proof.Machine.execConfigSpaceWrite field value s
  | .hostCompletionError q => Sys2Proof.Machine.execHostCompletionError q s
  | .originatedFrameSend link frame => Sys2Proof.Machine.execOriginatedFrameSend link frame s
  | .laneLock link wavelength levels => Sys2Proof.Machine.execLaneLock link wavelength levels s
  | .losClear link power => Sys2Proof.Machine.execLosClear link power s
  | .inletPowerRestored inlet power => Sys2Proof.Machine.execInletPowerRestored inlet power s
  | .recalDone link codes fails => Sys2Proof.Machine.execRecalDone link codes fails s
  | .coreRestarted core => Sys2Proof.Machine.execCoreRestarted core s
  | .ownerKeyBurnt => Sys2Proof.Machine.execOwnerKeyBurnt s
  | .railAboveWarning rail mv => Sys2Proof.Machine.execRailAboveWarning rail mv s
  | .clkRefRestored => Sys2Proof.Machine.execClkRefRestored s
  | .dbgClkLoss => Sys2Proof.Machine.execDbgClkLoss s

end Sys2Proof.Machine
end

