-- ==== Sys2Proof/Machine/Idle.lean ====
section
/-! DEFINITION. One tick with no command waiting (DESIGN CHOICE, log 9): a core cycle passes, and a boundary that it reaches
happens. -/

namespace Sys2Proof.Machine

/-- A tick of the part's own running time, which no clock stop stops. -/
def State.tickReal (s : State) : State := { s with clk := { s.clk with real := s.clk.real + 1 } }

/-- A tick while internal reset is held: it is released once nothing holds it (R423, R432, R463). -/
def State.tickReset (s : State) : State :=
  match s.releaseAt with
  | some t => if t ≤ s.clk.real then (s.release.getD s).tickReal else s.tickReal
  | none => s.tickReal

/-- A tick of the running part: the cycle in which a boundary is due is that boundary's (R28, R469). -/
def State.tickCore (s : State) : State :=
  if s.clk.strokes && !s.canElapse 1 then s.strokeBoundary
  else if s.clk.armed && !s.clk.strokes && s.get64 R.STK_ORIGIN_LO ≤ s.clk.time then s.openingBoundary
  else (s.elapse 1).tickLinks

/-- The tick of an idle block: a frozen one counts its timebase and goes on with a readout (R440, R444), a held one only waits. -/
def State.idle (s : State) : State :=
  if s.frozen then { s.tickReal with clk := { s.tickReal.clk with time := s.clk.time + 1 } }.tickPort
  else match s.phase with
    | .reset => s.tickReset
    | .safe => s.tickReal
    | .ready | .startup => s.tickCore
    | .hold | .recovery | .bist => s.elapse 1

end Sys2Proof.Machine
end

