-- ==== Sys2Proof/Safety.lean ====
section
/-! DEFINITION. The terms in which statements speak of runs: what a freeze stops, what a reset leaves, what an engine command needs. -/

namespace Sys2Proof.Machine

/-- A step goes on: it ends in a next state, never in a fault or a refusal. -/
def goesOn (o : Host.Outcome State Fault Refusal) : Prop := ∃ t, o = .next t

/-- `t` holds what `s` holds in every part whose clock a freeze stops (R439-R441): the packet path, the engines' memories and
tables, the queues, the floats, the stroke generator; nothing has left on a link or in an interrupt. -/
structure CoreStill (s t : State) : Prop where
  cycle : t.clk.cycle = s.clk.cycle
  now : t.clk.now = s.clk.now
  strokes : t.clk.strokes = s.clk.strokes
  queues : t.host.queues = s.host.queues
  floats : t.host.floats = s.host.floats
  evt : t.host.evt = s.host.evt
  intake : t.intake = s.intake
  flow : t.flow = s.flow
  banks : t.banks = s.banks
  egress : t.egress = s.egress
  mems : t.mems = s.mems
  capture : t.capture = s.capture
  matrix : t.matrix = s.matrix
  seqs : t.seqs = s.seqs
  models : t.models = s.models
  luapo : t.luapo = s.luapo
  routes : t.routes = s.routes
  sec : t.sec = s.sec
  nv : t.nv = s.nv

/-- What an internal reset leaves (R12, R414, R449): no freeze, internal reset held or start-up due, no queue, frame, flow, model or
event under way, strokes not running. -/
structure JustReset (t : State) : Prop where
  phase : t.phase = .reset ∨ t.phase = .startup
  frozen : t.frozen = false
  cycle : t.clk.cycle = 0
  strokes : t.clk.strokes = false
  queues : t.host.queues = []
  floats : t.host.floats = []
  intake : t.intake = {}
  flow : t.flow = {}
  egress : t.egress = {}
  models : t.models = {}

/-- The register file lists each register at most once, in rising order, at an offset a register can have. -/
def State.RegFileWf (s : State) : Prop := (s.regs.map (·.1)).Pairwise (· < ·) ∧ ∀ e ∈ s.regs, e.1 % 4 = 0

/-- The commands of the packet path, the engines, the links and the firmware in service: they act in READY only, and not in a freeze
(R416, R439). -/
def serviceOnly : Instr → Bool
  | .ptpMeasurement _ _ | .strokeMarkerReceive _ _ | .powerMeasurement _ _ | .commandAdmit _ | .completionRecordWrite _
  | .waitSatisfied _ | .nop _ | .wait _ | .set _ | .arm _ | .timestamp _ | .transpose _ | .hostRequestTimeout _
  | .frameReceive _ _ _ _ | .headDeal | .flowLookup _ | .flowInsertPort | .insertWaitTimeout _ | .relocationChain
  | .featureProgram _ | .ruleClassify _ | .ruleWordRefetch _ _ _ | .treeIssue _ | .verdictStage _ | .verdictDeadline _ _
  | .reorderRelease _ | .verdictFrameHoldExpiry _ | .egressEnqueue | .egressSelect _ | .egressFrameEnd _
  | .gateEntryChange _ | .gateListTakeover _ | .gclValidationDone _ | .agingScan _ | .flowEnd | .flowInsert _
  | .flowDelete _ | .flowRead _ | .devWrite _ | .rehashStart _ | .rehashStep _ | .senderRead _ | .senderWrite _
  | .senderDelete _ | .tableClear _ | .bankValidationDone _ | .bankCopyDone _ | .bankRetired _ | .treeGroupFail _
  | .spareGroupLoaded | .ensembleRun _ | .policerRead _ | .matmul _ _ | .conv _ _ | .move _ | .tileFail _ | .spareTileReady
  | .tileMirrorDone | .vectorUnitFail _ | .quant _ | .requant _ | .map _ | .reduce _ | .captureDrain | .capCtrl _
  | .ctxOpen _ | .ctxClose _ | .ctxRead _ | .ctxAdvance _ | .modelCfg _ | .commit _ | .abandon _ | .modelSelect _
  | .modelRead _ | .retire _ | .pageCorrection _ _ _ | .scrubRead _ _ _ | .bankRetireCopyDone _ | .aquiferChannelRetire _
  | .aquiferZqTracking _ _ _ | .clampRelightStep _ | .linkUp _ | .linkDown _ | .lossOfLight _ _ | .aprRelease _
  | .inletLow _ _ | .laneFail _ _ _ | .laneSettleExpiry _ | .ringHop _ _ _ _ | .opticalClampTrip _ _
  | .pairTrainingTimeout _ | .autoRevert _ | .flitReceive _ _ | .nak _ _ | .replayTimeout _ | .messageWrite _ | .init _ _
  | .delayReq _ | .delayResp _ _ | .routeRead _ | .fwCheckDone | .fwHandover _ | .fwStart | .fwQuiesceTimeout
  | .fwStartTimeout | .fwStoreWriteDone | .watchdog _ | .lifecycleChange _ | .attestationDone | .dropBudgetWindow
  | .originationWindowEnd | .vddcSetMove _ | .istStep _ _ _ | .istSliceAbort _ | .hostCompletionError _
  | .originatedFrameSend _ _ | .laneLock _ _ _ | .losClear _ _ | .inletPowerRestored _ _ | .recalDone _ _ _
  | .coreRestarted _ | .ownerKeyBurnt => true
  | _ => false

/-- Queue `q` runs a plain command of opcode `op`, whose bytes are `c`, and `n` more core cycles can pass before a boundary: the
conditions under which the step that completes it has its effect (log 1). A command that reads host memory needs the link. -/
structure CanComplete (s : State) (q op n : Nat) (c : List Byte) (r : Run) : Prop where
  live : s.live = true
  run : s.running q op = some (c, r)
  link : hostReads q c = true → s.pcieUp = true
  time : s.canElapse n = true

/-- Core cycles charged so far to the command that a queue runs. -/
def State.chargedTo (s : State) (q : Nat) : Nat :=
  match (s.q q).cur with
  | some r => r.charged
  | none => 0

/-- The cycles that a running command whose length the spec does not fix is given before it completes: one at least (R32). -/
def leastCycles (r : Run) : Nat := if r.charged = 0 then 1 else 0

/-- The cycles more that a running command is given before it completes, by the length the spec gives it, if it gives one. -/
def State.cyclesDue (s : State) (q : Nat) (r : Run) : Option Nat → Nat
  | some d => s.cyclesLeft q d r
  | none => leastCycles r

/-- The step in which queue `q` completes its running command `c` after `n` more cycles with an effect and the status it answers; where
a DMA window was rewritten while the command ran, its requests are judged by what stood when each was issued (R86, R91). -/
def State.finish (s : State) (q n : Nat) (c : List Byte) (r : Run) (eff : List Byte → State → State × Nat) : Res :=
  let t := s.elapse n
  let e := t.effectOf q c r eff
  .next (e.1.complete q e.2 (t.chargedTo q))

end Sys2Proof.Machine
end

