-- ==== Sys2Proof/Certificates/Slice0/Obligations.lean ====
section
/-! DEFINITION. The statements about the 880, family by family: what each command does, when it completes, what it leaves as it was. -/

open Sys2Proof Sys2Proof.Machine

/-! ## The queue of commands, reset, service and freeze -/

/-- A step with a command waiting is that command's effect, with the rest of the queue left waiting. -/
def Obligations.StepRunsFront : Prop :=
  ∀ (c : Instr) (rest : List Instr) (s : State), step { s with pending := c :: rest } = exec c { s with pending := rest }

/-- With nothing waiting the block idles (DESIGN CHOICE, log 9): a frozen block counts its timebase alone and goes on with a readout
(R440, R444), one in the safe state nothing but its running time, one that holds one core cycle, and the running part one core cycle
where no boundary is due, in which its Luapo links send (R365, R367, R375). -/
def Obligations.EmptyQueueTicks : Prop :=
  ∀ s : State, s.pending = [] →
    let counted := { s with clk := { s.clk with real := s.clk.real + 1, time := s.clk.time + 1 } }
    (s.frozen = true → step s = .next counted.tickPort ∧ (s.dbg.readout = none → step s = .next counted))
    ∧ (s.frozen = false → s.phase = .safe → step s = .next { s with clk := { s.clk with real := s.clk.real + 1 } })
    ∧ (s.frozen = false → s.phase = .hold ∨ s.phase = .recovery ∨ s.phase = .bist → step s = .next (s.elapse 1))
    ∧ (s.clocked = true → s.clk.armed = false → s.canElapse 1 = true → step s = .next (s.elapse 1).tickLinks)

/-- What reset leaves: every register at its reset value, nothing waiting, under way or stored, every pair in bypass (R12, R363, R414;
where the spec states no reset value, the model's: logs 2, 3, 4). -/
def Obligations.ResetLeaves : Prop :=
  JustReset State.reset ∧ State.reset.pending = []
    ∧ (∀ off : Nat, State.reset.word off = resetWord off)
    ∧ (∀ p : Fin 12, State.reset.get (F.LK_PAIR_STATUS_STATE p) = 0)
    ∧ (∀ f : Nat, State.reset.float f = 0)
    ∧ Memory.wf State.reset.host.mem = true ∧ Memory.wf State.reset.mems.cis.data = true
    ∧ Memory.wf State.reset.mems.aq.data = true ∧ Memory.wf State.reset.egress.policers = true

/-- The 880 leaves a freeze only by reset: whatever command comes, and on an idle tick, a frozen 880 goes on frozen with everything
that its clocks drive as it was, or stands just reset (R439-R441, R449). -/
def Obligations.FreezeEndsOnlyByReset : Prop :=
  ∀ (s : State), s.frozen = true → ∃ t, step s = .next t ∧ ((t.frozen = true ∧ CoreStill s t) ∨ JustReset t)

/-- While the 880 is not in service, in any phase but READY or frozen, no command of the packet path, the engines, the links in
operation or the firmware in operation changes anything (R416, R417, R432, R439; log 1). -/
def Obligations.NothingRunsOutOfService : Prop :=
  ∀ (c : Instr) (s : State), serviceOnly c = true → s.live = false → exec c s = .next s

/-- A read of a BAR0 offset that no register occupies answers 0, and a write to it is discarded; neither raises anything. -/
def Obligations.UnmappedRegisters : Prop :=
  ∀ (s : State) (off size : Nat) (host : Bool) (value : Word) (enables : BitVec 4),
    off % 4 = 0 → findRow regRows off = none → s.phase = .ready → s.frozen = false → s.pcieUp = true → s.dbgClock = true →
      exec (.registerRead .bar0 host off size) s = .next (s.emit (.data 0))
      ∧ exec (.registerWrite host off enables value) s = .next s

/-- A 64-bit quantity in two registers (R10): a read of the low half answers it and latches the high half, and the next read of the
high half answers what was latched, whatever the register holds by then. Any other read of a register that answers its value answers
that value, to host software and to a control core alike; one through BAR2 answers the doorbell or float there; one over a link that is
down brings nothing (R62, R416). Register writes (R9, R11, R441): a full-word write by host software or a control core reaches the
register that lies at its offset; STK_HOLDOVER takes a value of its range and keeps its own against any other; a write with a byte
enable missing is discarded, and so is every write but to the DBG block while the 880 is frozen. -/
def Obligations.RegistersAreReadAndWritten : Prop :=
  (∀ (s : State) (row hi : RegRow) (off : Nat) (ix jx : List Nat), off % 4 = 0 → findRow regRows off = some (row, ix) →
    findRow regRows (off + 4) = some (hi, jx) → row.half = .lo → hi.half = .hi → s.phase = .ready → s.frozen = false →
    s.pcieUp = true → s.dbgClock = true →
      ∃ t, exec (.registerRead .bar0 true off 4) s = .next t ∧ t.out = .data (s.regValue off) :: s.out ∧ t.regs = s.regs
        ∧ ∀ u : State, u.host.readLatch = t.host.readLatch → u.phase = .ready → u.frozen = false → u.pcieUp = true →
            u.dbgClock = true →
            ∃ v, exec (.registerRead .bar0 true (off + 4) 4) u = .next v
              ∧ v.out = .data (s.regValue (off + 4) % 2 ^ 32) :: u.out ∧ v.regs = u.regs)
  ∧ (∀ (s : State) (host : Bool) (off size : Nat), (host = true → s.pcieUp = true ∧ s.phase ≠ .reset) → (host = false → s.live = true) →
    let o := off / 4 * 4
    (∀ row ix, s.answer o = .value → findRow regRows o = some (row, ix) → (row.half = .hi → sget 0 s.host.readLatch o = 0) →
      ∃ t, exec (.registerRead .bar0 host off size) s = .next t ∧ t.out = .data (s.regValue o) :: s.out)
    ∧ (s.answer o = .abort → exec (.registerRead .bar0 host off size) s = .next s.abortRead)
    ∧ (s.answer o = .reset → exec (.registerRead .bar0 host off size) s = .next (s.emit (.data (resetWord o).toNat)))
    ∧ (s.answer o = .zero → exec (.registerRead .bar0 host off size) s = .next (s.emit (.data 0)))
    ∧ (s.barsOpen = true → exec (.registerRead .bar2 true off size) s = .next (s.emit (.data (s.bar2Value off size))))
    ∧ (s.frozen = true ∨ s.phase = .safe → s.pcieUp = true → s.phase ≠ .reset →
        exec (.registerRead .bar2 true off size) s = .next s.abortRead)
    ∧ exec (.registerRead .bar2 false off size) s = .next s)
  ∧ (∀ (s : State) (bar : Bar) (off size : Nat),
    (s.pcieUp = false ∨ s.phase = .reset → exec (.registerRead bar true off size) s = .next s)
    ∧ (s.live = false → exec (.registerRead bar false off size) s = .next s))
  ∧ (∀ (s : State) (v : Word),
    (∀ host off row ix, (host = true → s.pcieUp = true) → (host = false → s.live = true) → off % 4 = 0 → s.takesWrite off = true →
      findRow regRows off = some (row, ix) →
      exec (.registerWrite host off 15 v) s = .next (s.writeWord host row (ix.headD 0) off v.toNat))
    ∧ (s.pcieUp = true → s.takesWrite R.STK_HOLDOVER = true → 1 ≤ v.toNat → v.toNat ≤ 60000 →
      ∃ t, exec (.registerWrite true R.STK_HOLDOVER 15 v) s = .next t ∧ t.get F.STK_HOLDOVER_MS = v.toNat
        ∧ (∀ off, off ≠ R.STK_HOLDOVER → t.word off = s.word off) ∧ t = { s with regs := t.regs })
    ∧ (s.pcieUp = true → s.takesWrite R.STK_HOLDOVER = true → 60000 < v.toNat % 2 ^ 16 →
      ∃ t, exec (.registerWrite true R.STK_HOLDOVER 15 v) s = .next t ∧ t.get F.STK_HOLDOVER_MS = s.get F.STK_HOLDOVER_MS)
    ∧ (∀ host off enables, enables ≠ 15 → exec (.registerWrite host off enables v) s = .next s)
    ∧ (∀ host off enables, s.frozen = true → dbgBlock off = false → exec (.registerWrite host off enables v) s = .next s))

/-! ## Doorbells, floats, queues (chapter 02) -/

/-- A doorbell write of an index inside the ring sets it and changes nothing else; one outside the ring raises RING_ERROR with the
queue and kind 1 and leaves the index; a write of another shape is discarded (R59, R66, R67). An aligned 8-byte write in the
read-and-set window sets a float to its value plus what the same core cycle has added to it, whichever of the two came first; one in
the add alias adds to it modulo 2^64; a SET of a float that host software has set in the same core cycle changes nothing; no other
float and nothing else changes but WAITs on it (R81, R83). A write of another size is discarded, and a read of a float answers it (R60).
A doorbell's host stores are in host memory before it. -/
def Obligations.DoorbellsAndFloatWindows : Prop :=
  (∀ (s0 : State) (q : Fin 80) (value : Nat) (stores : List (Nat × List Byte)), value < 2 ^ 32 →
    let s := s0.hostStores stores
    (s.barsOpen = true → value < s.sqSize q →
      exec (.sqTailWrite q 0 4 value stores) s0 = .next (s.modQ q fun Q => { Q with sqTail := value }))
    ∧ (s.barsOpen = true → s.sqSize q ≤ value → exec (.sqTailWrite q 0 4 value stores) s0 = .next (s.ringError q 1))
    ∧ (∀ offset size, ¬(offset = 0 ∧ size = 4) ∨ s.barsOpen = false → exec (.sqTailWrite q offset size value stores) s0 = .next s))
  ∧ (∀ (s : State) (q : Fin 80) (value : Nat), s.barsOpen = true → value < 2 ^ 32 →
    (value < s.cqSize q → exec (.cqHeadWrite q 4 4 value) s = .next (s.modQ q fun Q => { Q with cqHead := value }))
    ∧ (s.cqSize q ≤ value → exec (.cqHeadWrite q 4 4 value) s = .next (s.ringError q 1))
    ∧ (∀ offset size, ¬(offset = 4 ∧ size = 4) → exec (.cqHeadWrite q offset size value) s = .next s))
  ∧ (∀ (s : State) (f : Fin 131072) (v : BitVec 64), s.barsOpen = true →
    (∃ t, exec (.floatSetWrite f 0 8 v) s = .next t ∧ t.float f = v + sget 0 s.floatsNow.adds f
      ∧ (∀ w, t.assignFloat false f w = t) ∧ (∀ g : Nat, g ≠ f → t.float g = s.float g)
      ∧ (∀ g, t.q g = (s.q g).sees f (t.float f).toNat)
      ∧ t = { s with host := { s.host with floats := t.host.floats, queues := t.host.queues, floatNow := t.host.floatNow } })
    ∧ (∃ t, exec (.floatAddWrite f 0 8 v) s = .next t ∧ t.float f = s.float f + v
      ∧ (∀ w, ∃ u, exec (.floatSetWrite f 0 8 w) t = .next u ∧ u.float f = w + (sget 0 s.floatsNow.adds f + v)) ∧ (∀ g : Nat, g ≠ f → t.float g = s.float g)
      ∧ (∀ g, t.q g = (s.q g).sees f (t.float f).toNat)
      ∧ t = { s with host := { s.host with floats := t.host.floats, queues := t.host.queues, floatNow := t.host.floatNow } })
    ∧ s.bar2Value (0x100000 + 8 * f) 8 = (s.float f).toNat
    ∧ (∀ offset size, ¬(offset = 0 ∧ size = 8) →
        exec (.floatSetWrite f offset size v) s = .next s ∧ exec (.floatAddWrite f offset size v) s = .next s))

/-- The register file lists each register once, in rising order, at its own offset: the form that every register write keeps (R9). Step
5 of the boundary: every float with a non-zero increment adds that increment, and no other float changes, nor anything else but WAITs
that it satisfies (R28, R82, R83). -/
def Obligations.RegisterFileAndFloatsTick : Prop :=
  (State.reset.RegFileWf
    ∧ ∀ s : State, s.RegFileWf →
      (∀ off v, off % 4 = 0 → (s.setWord off v).RegFileWf)
      ∧ (∀ (f : Fld) v, f.reg % 4 = 0 → (s.put f v).RegFileWf)
      ∧ (∀ lo v, lo % 4 = 0 → (s.put64 lo v).RegFileWf))
  ∧ (∀ (s : State) (f : Nat), f < 131072 → s.RegFileWf →
    s.tickFloats.float f = s.float f + BitVec.ofNat 64 (s.get (tickFld f))
      ∧ s.tickFloats = { s with host := { s.host with
          floats := s.tickFloats.host.floats, queues := s.tickFloats.host.queues, floatNow := s.tickFloats.host.floatNow } })

/-- The common commands complete, charged one cycle: NOP does nothing, SET sets its float (R81), ARM sets its float's tick increment, a
WAIT whose float had reached its value when it started, or has reached it since, does nothing more (R32, R74, R83). TIMESTAMP writes
the timebase count and the stroke number of its start cycle to its host address, where the windows grant it; a refusal trips valve 4
with the address and completes DMA_FAULT (R74, R86). A command none of whose requests was issued before a window was rewritten has its
plain effect; of one whose later request the rewritten windows refuse the status is DMA_FAULT (R86, R91). -/
def Obligations.CommonCommandsComplete : Prop :=
  (∀ (s : State) (q : Fin 80) (c : List Byte) (r : Run),
    let ends := fun (eff : State → State) => s.finish q (s.cyclesLeft q 1 r) c r fun _ t => (eff t, Status.ok)
    let met := (s.modQ q fun Q => { Q with cur := Q.cur.map fun r => { r with waiting := false } }).finish q (s.cyclesLeft q 1 r) c
      { r with waiting := false } fun _ t => (t, Status.ok)
    (CanComplete s q 0 (s.cyclesLeft q 1 r) c r → exec (.nop q) s = ends fun t => t)
    ∧ (CanComplete s q 2 (s.cyclesLeft q 1 r) c r →
      exec (.set q) s = ends fun t => t.assignFloat false (fieldAt c 16 4) (BitVec.ofNat 64 (fieldAt c 24 8)))
    ∧ (CanComplete s q 3 (s.cyclesLeft q 1 r) c r →
      exec (.arm q) s = ends fun t => t.put (tickFld (fieldAt c 16 4)) (fieldAt c 20 2))
    ∧ (CanComplete s q 1 (s.cyclesLeft q 1 r) c r → r.waiting = false → exec (.wait q) s = met)
    ∧ (CanComplete s q 1 (s.cyclesLeft q 1 r) c r → fieldAt c 24 8 ≤ (s.float (fieldAt c 16 4)).toNat ∨ r.met = true →
      r.waiting = true → exec (.waitSatisfied q) s = met ∧ exec (.wait q) s = met))
  ∧ (∀ (s : State) (q : Fin 80) (c : List Byte) (r : Run), CanComplete s q 4 (leastCycles r) c r → r.checked = false →
    s.host.granted = false →
    let t := s.elapse (leastCycles r)
    (t.dmaRefused true (fieldAt c 16 8) 16 = none →
      exec (.timestamp q) s = .next ((t.hostWrite (fieldAt c 16 8) (natBytes 8 r.startTime ++ natBytes 8 r.startStroke)).complete q
        Status.ok (t.chargedTo q)))
    ∧ (∀ a, t.dmaRefused true (fieldAt c 16 8) 16 = some a →
      exec (.timestamp q) s = .next ((t.trip 4 0 a).complete q Status.dmaFault (t.chargedTo q))))
  ∧ (∀ (s : State) (q : Fin 80) (c : List Byte) (r : Run), CanComplete s q 4 (leastCycles r) c r → r.checked = true →
    let t := s.elapse (leastCycles r)
    t.lowestRefused (rangesBeyond r.issued (hostRanges q c)) = none →
      ∃ u : State, exec (.timestamp q) s = .next (u.complete q Status.ok (t.chargedTo q))
        ∧ u = ((t.setGranted true).hostWrite (fieldAt c 16 8) (natBytes 8 r.startTime ++ natBytes 8 r.startStroke)).setGranted false)
  ∧ (∀ (t : State) (q : Nat) (c : List Byte) (r : Run) (eff : List Byte → State → State × Nat),
    (r.checked = false → t.effectOf q c r eff = eff c t)
    ∧ (∀ a, r.checked = true → t.lowestRefused (rangesBeyond r.issued (hostRanges q c)) = some a →
        (t.effectOf q c r eff).2 = Status.dmaFault)
    ∧ (r.checked = true → t.lowestRefused (rangesBeyond r.issued (hostRanges q c)) = none →
        t.effectOf q c r eff = ((eff c (t.setGranted true)).1.setGranted false, (eff c (t.setGranted true)).2)))

/-- What completing a list's head command does to its queue (R72, R73, R79): with status OK, no NOTIFY and commands left after it, no
record; the next command is the head. With a status that ends the list, its own record and one SKIPPED record for the rest, LAST set,
and the list is over. Host reads that fail (R86): a running command that reads host memory ends HOST_ERROR with the cycles charged to
it, its destination left as an overrun leaves it; a PRIME leaves its bank EMPTY besides, with its record where RESULT is granted
(R300). -/
def Obligations.ListsEnd : Prop :=
  (∀ (s : State) (q st n : Nat) (c : Fetched) (rest : List Fetched), (s.q q).cmds = c :: rest → rest ≠ [] → (s.q q).stopping = false →
    (st = 0 → cmdNotify c.bytes = false →
      (s.complete q st n).q q = { s.q q with cmds := rest, idx := (s.q q).idx + 1, cur := none })
    ∧ (4 ≤ st → ∃ a b, ((s.complete q st n).q q).recs = (s.q q).recs ++ [a, b]
        ∧ a.status = st ∧ a.first = (s.q q).idx ∧ a.count = 1 ∧ a.cycles = min n 0xFFFFFFFF ∧ a.last = false ∧ a.irq = true
        ∧ b.status = Status.skipped ∧ b.first = (s.q q).idx + 1 ∧ b.count = rest.length ∧ b.cycles = 0 ∧ b.last = true
        ∧ ((s.complete q st n).q q).cmds = [] ∧ ((s.complete q st n).q q).active = false))
  ∧ (∀ (s : State) (q : Fin 80) (r : Run) (c : List Byte) (rest : List Fetched), s.live = true → (s.q q).cur = some r →
    (s.q q).cmds = .cmd c :: rest → hostReads q c = true →
      exec (.hostRequestTimeout q) s = .next (((s.overrunDest q c).failPrime q c).complete q Status.hostError r.charged)
      ∧ exec (.hostCompletionError q) s = .next (((s.overrunDest q c).failPrime q c).complete q Status.hostError r.charged))
  ∧ (∀ (u : State) (q : Fin 80) (c : List Byte),
    (¬((q : Nat) / 16 = 4 ∧ cmdOp c = 0x61) → u.failPrime q c = u)
    ∧ ((q : Nat) / 16 = 4 → cmdOp c = 0x61 → (u.model (byteAt c 25)).st = .loading →
        ((u.failPrime q c).model (byteAt c 25)).st = .empty))

/-- A descriptor that lies in host memory granted to the 880 is fetched: SQ_HEAD moves on; a good one gives the queue its list, a
refused one (misaligned address, length out of range, reserved field not zero) one BAD_DESCRIPTOR record, command index 0, LAST set,
and no list (R68, R69). COMMAND_ADMIT: the head command of a queue that may start it starts, with the cycle, count and stroke of its
start, a PRIME's bank LOADING with the tiles of that moment (R300); one that a check refuses completes with the check's status,
charged 0 cycles; one whose extension words run past the list, BAD_COMMAND; one that the windows refuse ends the list (R32, R71,
R86). -/
def Obligations.ListsAreFetchedAndStarted : Prop :=
  (∀ (s0 s : State) (q : Fin 80) (stores : List (Nat × List Byte)), s = s0.hostStores stores → s.qRuns q = true → s.pcieUp = true →
    (s.q q).active = false → s.sqPending q ≠ 0 → s.dmaRefused false (s.descAddr q) 64 = none →
    ∃ t, exec (.descriptorFetch q stores) s0 = .next t
      ∧ t.get (F.HIF_QSQHEAD_INDEX q) = (s.get (F.HIF_QSQHEAD_INDEX q) + 1) % s.sqSize q % 2 ^ (F.HIF_QSQHEAD_INDEX q).w
      ∧ (descBad (s.hostRead (s.descAddr q) 64) = false →
          (t.q q).active = true ∧ (t.q q).idx = 0
          ∧ (t.q q).cmds = s.fetchList (fieldAt (s.hostRead (s.descAddr q) 64) 8 4 / 32)
              (fieldAt (s.hostRead (s.descAddr q) 64) 0 8) (fieldAt (s.hostRead (s.descAddr q) 64) 8 4))
      ∧ (descBad (s.hostRead (s.descAddr q) 64) = true →
          (t.q q).active = false ∧ ∃ a, (t.q q).recs = (s.q q).recs ++ [a] ∧ a.status = Status.badDescriptor ∧ a.first = 0
            ∧ a.count = 1 ∧ a.last = true))
  ∧ (∀ (s : State) (q : Fin 80), s.headReady q = true → s.unitFree q = true →
    (∀ c rest, (s.q q).cmds = .cmd c :: rest → s.refusal q c = none →
      let u := if s.clk.strokes && s.clk.cycle == s.clk.openCycle && cmdQual c && cmdNotBefore c == s.clk.now then s.elapse 1 else s
      let v := if (q : Nat) / 16 = 4 ∧ cmdOp c = 0x61 then u.beginPrime (byteAt c 25) u.tilesNow else u
      ∃ t r, exec (.commandAdmit q) s = .next t ∧ t = v.modQ q (fun Q => { Q with cur := some r })
        ∧ r.start = u.clk.cycle ∧ r.startTime = u.clk.time ∧ r.startStroke = u.nowReg ∧ r.charged = 0)
    ∧ (∀ c rest st, (s.q q).cmds = .cmd c :: rest → s.refusal q c = some st →
      exec (.commandAdmit q) s = .next (s.complete q st 0))
    ∧ (∀ c rest, (s.q q).cmds = .cut c :: rest → exec (.commandAdmit q) s = .next (s.complete q Status.badCommand 0))
    ∧ (∀ a head left rest, (s.q q).cmds = .refused a head left :: rest →
        exec (.commandAdmit q) s = .next (s.listRefused q a head left)))

/-- A queue whose charge has reached its budget starts nothing while strokes run; a budget of 0 admits no command, and one of
0xFFFF_FFFF never runs out. -/
def Obligations.BudgetAdmits : Prop :=
  ∀ (s : State) (q : Fin 80), s.clk.strokes = true →
    (s.getF (F.STK_BUDGET_BUDGET q) ≠ 0xFFFFFFFF → s.getF (F.STK_BUDGET_BUDGET q) ≤ (s.q q).spent →
      s.rung4 q = false ∧ exec (.commandAdmit q) s = .next s)
    ∧ (s.getF (F.STK_BUDGET_BUDGET q) = 0 → exec (.commandAdmit q) s = .next s)
    ∧ (s.getF (F.STK_BUDGET_BUDGET q) = 0xFFFFFFFF → s.budgetOk q = true)

/-- The oldest waiting record goes to the next completion slot, a cycle after it came to wait, where a slot is free and the windows
grant it: its 16 bytes, CQ_TAIL one on, the record gone from the queue; one without IRQ sends nothing (R67, R78, R86, R110). -/
def Obligations.RecordsAreWritten : Prop :=
  ∀ (s : State) (q : Fin 80) (r : Rec) (rs : List Rec), s.live = true → s.pcieUp = true → (s.q q).recs = r :: rs →
    r.at_ + 1 ≤ s.clk.cycle → s.cqFree q ≠ 0 → s.on (F.HIF_QSTATUS_DMA_HALT q) = false → (s.q q).stopping = false →
    s.dmaRefused true (s.get64 (R.HIF_QCQBASE_LO q) + 16 * s.get (F.HIF_QCQTAIL_INDEX q)) 16 = none →
    ∃ t, exec (.completionRecordWrite q) s = .next t
      ∧ t.host.mem = Memory.write s.host.mem (s.get64 (R.HIF_QCQBASE_LO q) + 16 * s.get (F.HIF_QCQTAIL_INDEX q))
          (recBytes r (s.q q).phase)
      ∧ t.get (F.HIF_QCQTAIL_INDEX q) = (s.get (F.HIF_QCQTAIL_INDEX q) + 1) % s.cqSize q % 2 ^ (F.HIF_QCQTAIL_INDEX q).w
      ∧ (t.q q).recs = rs ∧ (r.irq = false → t.out = s.out)

/-- Queue control (R80): ENABLE starts a queue with aligned bases, and one with a misaligned base raises RING_ERROR; clearing ENABLE, or
setting STOP, stops what is in hand, with nothing in hand leaves it so, and HALTED follows a stop; clearing STOP resumes; RESET of a
halted queue, or of a disabled one with nothing left, returns SQ_HEAD and CQ_TAIL to 0 and the phase to 1; a 1 written to DMA_HALT
clears it. The window table and its lock (R85, R91), the event ring's enable, head and halt (R86, R87): what a write of each sets, and
that locked windows keep theirs; a window with a range past 2^64 keeps its own. -/
def Obligations.QueuesAndTablesAreSet : Prop :=
  (∀ (s : State) (q : Fin 80), s.takesWrite (R.HIF_QCTRL q) = true → s.takesWrite (R.HIF_QSTATUS q) = true →
    (s.on (F.HIF_QCTRL_ENABLE q) = false → s.raw (R.HIF_QSQBASE_LO q) % 4096 = 0 → s.raw (R.HIF_QCQBASE_LO q) % 4096 = 0 →
      (s.q q).stopping = false → s.on (F.HIF_QCTRL_STOP q) = false →
      ∃ t, exec (.queueEnable q) s = .next t ∧ t.on (F.HIF_QCTRL_ENABLE q) = true ∧ t.on (F.HIF_QSTATUS_HALTED q) = false
        ∧ t = { s with regs := t.regs })
    ∧ (s.on (F.HIF_QCTRL_ENABLE q) = false → s.raw (R.HIF_QSQBASE_LO q) % 4096 ≠ 0 ∨ s.raw (R.HIF_QCQBASE_LO q) % 4096 ≠ 0 →
      exec (.queueEnable q) s = .next ((s.putB (F.HIF_QSTATUS_CONFIG_ERR q) true).ringError q 2))
    ∧ (s.on (F.HIF_QCTRL_ENABLE q) = true → (s.q q).active = true ∨ (s.q q).recs ≠ [] →
      exec (.queueDisable q) s = .next ((s.putB (F.HIF_QCTRL_ENABLE q) false).stopQueue q))
    ∧ (s.on (F.HIF_QCTRL_STOP q) = false → exec (.queueStop q) s = .next ((s.putB (F.HIF_QCTRL_STOP q) true).stopQueue q))
    ∧ (s.on (F.HIF_QCTRL_ENABLE q) = true → (s.q q).active = false → (s.q q).recs = [] →
      ∃ t, exec (.queueDisable q) s = .next t ∧ t.on (F.HIF_QCTRL_ENABLE q) = false ∧ t = { s with regs := t.regs })
    ∧ (s.on (F.HIF_QCTRL_STOP q) = false → (s.q q).cur = none → (s.q q).cmds = [] → (s.q q).recs = [] →
      ∃ t, exec (.queueStop q) s = .next t ∧ t.on (F.HIF_QCTRL_STOP q) = true ∧ t.on (F.HIF_QSTATUS_HALTED q) = true
        ∧ (t.q q).stopping = false ∧ (t.q q).active = false)
    ∧ (s.on (F.HIF_QCTRL_STOP q) = true → s.on (F.HIF_QCTRL_ENABLE q) = true → (s.q q).stopping = false →
      ∃ t, exec (.queueResume q) s = .next t ∧ t.on (F.HIF_QCTRL_STOP q) = false ∧ t.on (F.HIF_QSTATUS_HALTED q) = false
        ∧ t = { s with regs := t.regs })
    ∧ (s.on (F.HIF_QCTRL_STOP q) = true → s.on (F.HIF_QCTRL_ENABLE q) = true → (s.q q).stopping = true →
      ∃ t, exec (.queueResume q) s = .next t ∧ t.on (F.HIF_QCTRL_STOP q) = false ∧ (t.q q).rearmed = true)
    ∧ (s.on (F.HIF_QCTRL_STOP q) = true → s.on (F.HIF_QCTRL_ENABLE q) = false →
      exec (.queueResume q) s = .next (s.putB (F.HIF_QCTRL_STOP q) false))
    ∧ (s.on (F.HIF_QSTATUS_HALTED q) = true
        ∨ (s.on (F.HIF_QCTRL_ENABLE q) = false ∧ (s.q q).recs = [] ∧ (s.q q).stopping = false) →
      ∃ t, exec (.queueReset q) s = .next t ∧ t.get (F.HIF_QSQHEAD_INDEX q) = 0 ∧ t.get (F.HIF_QCQTAIL_INDEX q) = 0
        ∧ (t.q q).phase = true ∧ (t.q q).recs = (s.q q).recs)
    ∧ (∃ t, exec (.dmaHaltClear q) s = .next t ∧ t.on (F.HIF_QSTATUS_DMA_HALT q) = false ∧ t = { s with regs := t.regs }))
  ∧ (∀ (s : State) (n : Fin 256) (v : Word), s.takesWrite (R.HIF_DMAW_0 n) = true → s.takesWrite R.HIF_LOCK = true →
    s.takesWrite R.HIF_EVT_CTRL = true → s.takesWrite R.HIF_EVT_HEAD = true → s.takesWrite R.GLB_STATUS = true → s.pcieUp = true →
    (s.on F.HIF_LOCK_LOCK = true → ∀ part, exec (.dmaWindowWrite n part v) s = .next s)
    ∧ (s.on F.HIF_LOCK_LOCK = false → ∀ part, exec (.dmaWindowWrite n part v) s
        = .next (((List.range 80).foldl State.issueSome s).writeWindow n part v.toNat))
    ∧ (s.on F.HIF_LOCK_LOCK = false → (∀ q, (s.q q).cur = none) → ∃ t, exec (.dmaWindowWrite n 3 v) s = .next t
        ∧ t.get (F.HIF_DMAW_C_READ n) = v.toNat % 2 ∧ t.get (F.HIF_DMAW_C_WRITE n) = v.toNat / 2 % 2 ∧ t = { s with regs := t.regs })
    ∧ (∀ u : State, u.on F.HIF_LOCK_LOCK = false →
        let t0 := u.put (F.HIF_DMAW_0_BASE_LO n) (v.toNat / 4096)
        let t1 := u.put (F.HIF_DMAW_4_BASE_HI n) v.toNat
        let t2 := u.put (F.HIF_DMAW_8_PAGES n) v.toNat
        let fin := fun (t : State) => t.raw (R.HIF_DMAW_0 n) + 2 ^ 32 * t.raw (R.HIF_DMAW_4 n) + 4096 * t.raw (R.HIF_DMAW_8 n)
        u.writeWindow n 0 v.toNat = (if 2 ^ 64 < fin t0 then u else t0)
        ∧ u.writeWindow n 1 v.toNat = (if 2 ^ 64 < fin t1 then u else t1)
        ∧ u.writeWindow n 2 v.toNat = (if 2 ^ 64 < fin t2 then u else t2))
    ∧ (∃ t, exec .hifLock s = .next t ∧ t.on F.HIF_LOCK_LOCK = true ∧ t = { s with regs := t.regs })
    ∧ (s.on F.HIF_EVT_CTRL_ENABLE = false → s.raw R.HIF_EVT_BASE_LO % 4096 = 0 →
        ∃ t, exec .evtRingEnable s = .next t ∧ t.on F.HIF_EVT_CTRL_ENABLE = true ∧ t = { s with regs := t.regs })
    ∧ (s.on F.HIF_EVT_CTRL_ENABLE = false → s.raw R.HIF_EVT_BASE_LO % 4096 ≠ 0 →
        exec .evtRingEnable s = .next (s.ringError 0xFF 2))
    ∧ (∃ t, exec (.evtHeadWrite v) s = .next t ∧ t.get F.HIF_EVT_HEAD_INDEX = v.toNat % 2 ^ F.HIF_EVT_HEAD_INDEX.w ∧ t = { s with regs := t.regs })
    ∧ (∃ t, exec .evtHaltClear s = .next t ∧ t.on F.GLB_STATUS_EVT_HALT = false ∧ t = { s with regs := t.regs }))

/-- EVENT_LOSS (R88): once the ring can take it, one EVENT_LOSS record with the count goes in and the count returns to 0; masked, it
returns to 0 alone. Interrupts (R84): a vector unmasked with its pending bit set sends its message and clears the bit, one not pending
sends nothing; a completion ring or the event ring whose oldest record with IRQ has waited HOLDOFF fires its vector. -/
def Obligations.EventsAndInterrupts : Prop :=
  (∀ s : State, s.frozen = false → s.get F.HIF_EVT_LOST_COUNT ≠ 0 → s.evtOn = true → s.evtFree ≠ 0 →
    (s.evtMasked 0x0201 = false → s.evtRefused 0 1 = none →
      ∃ t, exec .eventLoss s = .next t ∧ t.get F.HIF_EVT_LOST_COUNT = 0
        ∧ t = (s.evtPut 0x0201 (payload 16 [(0, 4, s.get F.HIF_EVT_LOST_COUNT)]) []).put F.HIF_EVT_LOST_COUNT 0)
    ∧ (s.evtMasked 0x0201 = true →
      ∃ t, exec .eventLoss s = .next t ∧ t.get F.HIF_EVT_LOST_COUNT = 0 ∧ t = { s with regs := t.regs }))
  ∧ (∀ (s : State) (v : Fin 256) (q : Fin 81), s.takesWrite (R.MSIX_CTRL v) = true → s.host.config.msixEnable = true →
    s.host.config.msixMask = false →
    (s.on ⟨R.MSIX_PBA (v.val / 32), v.val % 32, 1⟩ = true →
      ∃ t, exec (.msixUnmask v) s = .next t ∧ t.on (F.MSIX_CTRL_MASK v) = false
        ∧ t.on ⟨R.MSIX_PBA (v.val / 32), v.val % 32, 1⟩ = false ∧ t.out = .irq v :: s.out)
    ∧ (s.on ⟨R.MSIX_PBA (v.val / 32), v.val % 32, 1⟩ = false →
      ∃ t, exec (.msixUnmask v) s = .next t ∧ t.on (F.MSIX_CTRL_MASK v) = false ∧ t.out = s.out)
    ∧ (q.val < 80 → s.barsOpen = true → (s.q q).irqCount ≠ 0 → s.get (F.HIF_QIRQ_HOLDOFF q) ≠ 0 →
        s.on (F.HIF_QCTRL_IRQ_EN q) = true →
        (s.q q).irqSince + 250 * s.get (F.HIF_QIRQ_HOLDOFF q) ≤ s.clk.cycle → s.masked (s.get (F.HIF_QCTRL_VECTOR q)) = false →
        ∃ t, exec (.irqHoldoffExpiry q) s = .next t ∧ t.out = .irq (s.get (F.HIF_QCTRL_VECTOR q)) :: s.out
          ∧ (t.q q).irqCount = 0)
    ∧ (q.val < 80 → s.barsOpen = true → (s.q q).irqCount ≠ 0 → s.get (F.HIF_QIRQ_HOLDOFF q) ≠ 0 →
        s.on (F.HIF_QCTRL_IRQ_EN q) = true → ∀ u, s.reach ((s.q q).irqSince + 250 * s.get (F.HIF_QIRQ_HOLDOFF q)) = some u →
        exec (.irqHoldoffExpiry q) s
          = .next ((u.modQ q fun Q => { Q with irqCount := 0 }).fire (s.get (F.HIF_QCTRL_VECTOR q))))
    ∧ (s.barsOpen = true → s.host.evt.irqCount ≠ 0 → s.get F.HIF_EVT_IRQ_HOLDOFF ≠ 0 → s.on F.HIF_EVT_CTRL_IRQ_EN = true →
        ∀ u, s.reach (s.host.evt.irqSince + 250 * s.get F.HIF_EVT_IRQ_HOLDOFF) = some u →
        ∃ t : State, exec (.irqHoldoffExpiry 80) s = .next (t.fire (s.get F.HIF_EVT_CTRL_VECTOR)) ∧ t.host.evt.irqCount = 0
          ∧ t = { u with host := { u.host with evt := t.host.evt } }))

/-- BAR4 (R61, R62): the window on the Cistern reads a word that is good as data and one that is marked as Completer Abort, answers
Unsupported Request while it is closed, and a write goes to the Cistern; a frozen 880 answers Completer Abort. A Completer Abort is
logged in the AER status. -/
def Obligations.Bar4ReachesTheCistern : Prop :=
  ∀ (s : State) (offset size : Nat) (data : List Byte),
    (s.frozen = true → exec (.bar4Read offset size) s = .next s.abortRead)
    ∧ (s.abortRead.out = .completerAbort :: s.out ∧ bit s.abortRead.host.config.aer 15 = true)
    ∧ (s.barsOpen = true → s.on F.HIF_BAR4_CTRL_ENABLE = false → exec (.bar4Read offset size) s = .next (s.emit .unsupported))
    ∧ (s.barsOpen = true → s.bar4Open = true → bar4Shape offset size = true →
        let r := s.rdRange .cis (2 ^ 28 * s.get F.HIF_BAR4_BAY_BAY + offset) size
        (r.2.2.any id = false → exec (.bar4Read offset size) s = .next (r.1.emit (.data (bytesNat r.2.1))))
        ∧ (r.2.2.any id = true → exec (.bar4Read offset size) s = .next r.1.abortRead))
    ∧ (s.barsOpen = true → s.bar4Open = true → bar4Shape offset data.length = true →
        exec (.bar4Write offset data) s = .next (s.wrRange .cis (2 ^ 28 * s.get F.HIF_BAR4_BAY_BAY + offset) data))

/-! ## Timebase and strokes (chapter 01) -/

/-- A measurement is of the count floor(T × 5 / 2) by PTP on a lit PTP_LINK, of the written second × 2.5 × 10^9 by PPS; a source that is
not selected measures nothing. While ACQUIRING, it steps the count there: the servo is LOCKED and TIMEBASE_LOCKED raised. While
LOCKED or in HOLDOVER, one within the step limit leaves the count and gives the servo the offset to slew in, one beyond it while
strokes run is LOST with reason 2 (before they run: log 33); a LOST servo locks again on one within the limit, unless one beyond it
came since (R17, R18, R20, R21, R464). Without a valid measurement for 1.5 expected intervals a locked servo goes into HOLDOVER,
unless STK_HOLDOVER ends first, and after STK_HOLDOVER ms it is LOST with reason 1 (R21, R22). -/
def Obligations.TheServoFollowsItsSource : Prop :=
  (∀ (s : State) (ns : Nat) (log : Int),
    (s.live = true → s.source = 0 → s.lit (s.get F.STK_CTRL_PTP_LINK) = true →
      exec (.ptpMeasurement ns log) s = .next (s.measure (ns * 5 / 2) (syncInterval log)))
    ∧ (s.source ≠ 0 ∨ s.lit (s.get F.STK_CTRL_PTP_LINK) = false → exec (.ptpMeasurement ns log) s = .next s)
    ∧ (s.clocked = true → s.source = 1 →
      exec .ppsEdge s = .next (s.measure (2500000000 * s.get F.STK_TOD_SEC_SEC) 2500000000))
    ∧ (s.source ≠ 1 → exec .ppsEdge s = .next s))
  ∧ (∀ (s : State) (target interval : Nat), s.on F.STK_CTRL_ENABLE = true →
    let off : Int := (s.clk.time : Int) - target
    let near := 2 * off.natAbs ≤ 5 * s.get F.STK_STEP_LIMIT_NS
    let slews := fun (u : State) => u.clk.time = s.clk.time ∧ u.clk.slew = -off ∧ u.servo = 1 ∧ u.clk.lastValid = some s.clk.real
      ∧ u.clk.interval = interval
    (s.servo = 0 → ∃ u : State, s.measure target interval = u.lockEvent
      ∧ u.clk.time = target ∧ u.servo = 1 ∧ u.clk.armed = true ∧ u.clk.slew = 0 ∧ u.clk.lastValid = some s.clk.real)
    ∧ (s.servo = 1 ∨ s.servo = 2 → near → slews (s.measure target interval))
    ∧ (s.servo = 1 ∨ s.servo = 2 → ¬near → s.clk.strokes = true →
      ∃ u : State, s.measure target interval = u.timebaseLost 2 ∧ u.servo = 3 ∧ u.clk.slew = 0 ∧ u.clk.time = s.clk.time)
    ∧ (s.servo = 1 ∨ s.servo = 2 → ¬near → s.clk.strokes = false →
      ∃ u : State, s.measure target interval = u ∧ u.regs = s.regs ∧ u.clk.time = s.clk.time ∧ u.clk.lastValid = s.clk.lastValid)
    ∧ (s.servo = 3 → near → s.clk.stepLost = false → ∃ u : State, s.measure target interval = u.lockEvent ∧ slews u)
    ∧ (s.servo = 3 → ¬near → (s.measure target interval).clk.stepLost = true)
    ∧ (s.servo = 3 → near → s.clk.stepLost = true → (s.measure target interval).servo = 3)
    ∧ (s.servo = 4 → s.measure target interval = s))
  ∧ (∀ (s : State) (c0 : Nat), s.clocked = true → s.clk.lastValid = some c0 →
    (s.servo = 1 → c0 + 3 * s.expected / 2 ≤ s.clk.real → s.clk.real < c0 + 2500000 * s.get F.STK_HOLDOVER_MS →
      exec .holdoverEntry s = .next (s.put F.STK_STATUS_STATE 2).unlockBank)
    ∧ (s.servo = 1 → c0 + 2500000 * s.get F.STK_HOLDOVER_MS ≤ s.clk.real → exec .holdoverEntry s = .next s)
    ∧ (s.servo = 1 ∨ s.servo = 2 → c0 + 2500000 * s.get F.STK_HOLDOVER_MS ≤ s.clk.real →
      ∃ u : State, exec .holdoverExpiry s = .next (u.timebaseLost 1) ∧ u.clk.slew = 0
        ∧ u.clk.strokes = s.clk.strokes ∧ u.clk.now = s.clk.now))

/-- STK_CTRL.ENABLE set begins a new acquisition, and under FREE starts the count at 0 with strokes to follow; cleared while strokes
run, strokes stop at once and the timebase is lost with reason 3, STATE reading FREE where SOURCE is FREE (R18, R21, R26).
STROKE_BOUNDARY takes the part to the count of the next boundary and carries out that boundary; OPENING_BOUNDARY starts strokes at
the count of STK_ORIGIN, or at once where that lies behind (R23, R28, R469). The cycle opens its stroke: its number, its count. -/
def Obligations.StrokesRun : Prop :=
  (∀ s : State, s.takesWrite R.STK_CTRL = true → s.pcieUp = true →
    (s.on F.STK_CTRL_ENABLE = false → s.source ≠ 3 → ∃ t, exec .stkEnableSet s = .next t ∧ t.on F.STK_CTRL_ENABLE = true
      ∧ t.servo = 0 ∧ t.clk.strokes = false ∧ t.clk.armed = false ∧ t.clk.time = s.clk.time
      ∧ t = { s with regs := t.regs, clk := t.clk })
    ∧ (s.on F.STK_CTRL_ENABLE = false → s.source = 3 → ∃ t, exec .stkEnableSet s = .next t ∧ t.on F.STK_CTRL_ENABLE = true
      ∧ t.servo = 4 ∧ t.clk.time = 0 ∧ t.clk.armed = true ∧ t = { s with regs := t.regs, clk := t.clk })
    ∧ (s.on F.STK_CTRL_ENABLE = true → exec .stkEnableSet s = .next s)
    ∧ (s.on F.STK_CTRL_ENABLE = false → exec .stkEnableClear s = .next s)
    ∧ (s.on F.STK_CTRL_ENABLE = true → s.clk.strokes = true →
      ∃ u : State, exec .stkEnableClear s = .next (u.stopCapture.timebaseLost 3) ∧ u.on F.STK_CTRL_ENABLE = false
        ∧ u.servo = (if s.source = 3 then 4 else 3) ∧ u.clk.strokes = false ∧ u.nowReg = 0xFFFFFFFFFFFFFFFF ∧ u.clk.time = s.clk.time)
    ∧ (s.on F.STK_CTRL_ENABLE = true → s.clk.strokes = false →
      ∃ t, exec .stkEnableClear s = .next t ∧ t.on F.STK_CTRL_ENABLE = false ∧ t.clk.armed = false ∧ t.nowReg = 0xFFFFFFFFFFFFFFFF))
  ∧ (∀ s : State, s.clocked = true →
    (s.clk.strokes = true →
      let k := s.clk.now + 1
      let t := s.elapseTo (s.count k)
      exec .strokeBoundary s = .next (t.boundary k) ∧ t.clk.time = max (s.count k) s.clk.time
        ∧ (t.openStroke k).clk.now = k ∧ (t.openStroke k).nowReg = k ∧ (t.openStroke k).clk.openTime = t.clk.time)
    ∧ (s.clk.strokes = false → s.clk.armed = true →
      let t := s.elapseTo (max s.clk.time (s.get64 R.STK_ORIGIN_LO))
      exec .openingBoundary s = .next (t.opening (t.openingNumber t.clk.time))
        ∧ t.clk.time = max s.clk.time (s.get64 R.STK_ORIGIN_LO)))

/-- STK_PERIOD accepts 5,000 to 2,500,000,000: the value becomes the pending period; any other is discarded and sets PERIOD_REJECT. At
the boundary it is due at, STK_BASE and STK_ORIGIN become that boundary's stroke number and count, the period is in force and no longer
pending, and PERIOD_CHANGE is raised; at an earlier one it stays pending. -/
def Obligations.PeriodChanges : Prop :=
  ∀ (s : State) (v : Word) (k : Nat),
    (s.takesWrite R.STK_PERIOD = true → 5000 ≤ v.toNat → v.toNat ≤ 2500000000 → ∃ t, exec (.stkPeriodWrite v) s = .next t
      ∧ t.get F.STK_PERIOD_PERIOD = v.toNat ∧ t.on F.STK_STATUS_PERIOD_PENDING = true ∧ t.period = s.period
      ∧ t = { s with regs := t.regs })
    ∧ (s.takesWrite R.STK_PERIOD = true → (v.toNat < 5000 ∨ 2500000000 < v.toNat) → ∃ t, exec (.stkPeriodWrite v) s = .next t
      ∧ t.on F.STK_STATUS_PERIOD_REJECT = true ∧ t.get F.STK_PERIOD_PERIOD = s.get F.STK_PERIOD_PERIOD
      ∧ t.on F.STK_STATUS_PERIOD_PENDING = s.on F.STK_STATUS_PERIOD_PENDING ∧ t = { s with regs := t.regs })
    ∧ (s.on F.STK_STATUS_PERIOD_PENDING = true → (s.get64 R.STK_PERIOD_AT_LO = 0 ∨ s.get64 R.STK_PERIOD_AT_LO ≤ k) →
      ∃ u : State, s.changePeriod k = u.raise 0x0103 (payload 16 [(0, 4, s.period), (4, 4, s.get F.STK_PERIOD_PERIOD)])
        ∧ u.get64 R.STK_BASE_LO = k % 2 ^ 64 ∧ u.get64 R.STK_ORIGIN_LO = s.count k % 2 ^ 64
        ∧ u.period = s.get F.STK_PERIOD_PERIOD ∧ u.on F.STK_STATUS_PERIOD_PENDING = false)
    ∧ (s.get64 R.STK_PERIOD_AT_LO ≠ 0 → k < s.get64 R.STK_PERIOD_AT_LO → s.changePeriod k = s)

/-- A register whose writes wait for a boundary is in force, from step 2 of the boundary on, as it was last written before it; every
other register's word in force is untouched by it (R27-R29). -/
def Obligations.PendingWritesApplyAtTheBoundary : Prop :=
  ∀ (s : State) (off : Nat) (v : Word), s.RegFileWf → boundaryApplied off = true →
    s.applyPending.wordF off = s.word off
      ∧ (s.setWord off v).wordF off = s.wordF off ∧ ((s.setWord off v).applyPending).wordF off = v

/-- What an ABORT queue's unfinished command comes to at the boundary (R36-R38): OVERRUN with the cycles charged to it and
DEADLINE_MISS; a WAIT that the boundary's own tick satisfies, OK; a CARRY queue's work goes on as it was. -/
def Obligations.OverrunPolicy : Prop :=
  ∀ (s0 s : State) (q : Nat),
    (s.onF (F.STK_QPOL_POLICY q) = false → State.overrunQueue s0 s q = s)
    ∧ (∀ c rest, (s.q q).cmds = c :: rest → s.onF (F.STK_QPOL_POLICY q) = true → s0.unfinished q = true → s.waitMet q = true →
        State.overrunQueue s0 s q = s.complete q Status.ok 1)
    ∧ (∀ c rest r, (s.q q).cmds = c :: rest → (s.q q).cur = some r → s.onF (F.STK_QPOL_POLICY q) = true → s0.unfinished q = true →
        s.waitMet q = false → ∃ (u : State) (rung inst amount : Nat),
          State.overrunQueue s0 s q = u.raise 0x0105
            (payload 16 [(0, 1, 4), (1, 1, q), (2, 1, rung), (3, 1, inst), (4, 4, amount)])
          ∧ u = ((s.missCause q).1.overrunDest q c.bytes |>.complete q Status.overrun r.charged).skipRest q)

/-! ## Wellhead intake (chapter 03) -/

/-- A part of a frame arriving on a lit link goes into its standpipe, its codewords counted; on a link that is not lit it does nothing.
A whole frame on a MODE 1 link with an empty standpipe stands there with its end good and every byte as received, if it is 64 bytes
long at least, at most WH_STP_MAXLEN, and fits; one whose FCS fails is aborted and counted; a first part of one stands there open.
FLUSH empties a standpipe and counts what it discards; MODE is written only while the link is down, and to or from 1 only while its
pair is in bypass (R93, R99, R101, R105, R106). HEAD_DEAL deals the head that is next, to the lane that is next: a first pass opens
a reorder entry with the link's next sequence number under the rule, ensemble and feature epochs in force; a second pass runs under
its frame's entry (R119-R121). -/
def Obligations.FramesComeInAndAreDealt : Prop :=
  (∀ (s : State) (n : Fin 24) (bs : List Byte) (m : Fin 4),
    (∀ first fin fec, s.live = true → s.lit n = true →
      exec (.frameReceive n first ⟨bs, fec⟩ fin) s = .next ((s.countWords n fec).receive n first bs fin))
    ∧ (∀ first fin fec, s.lit n = false → exec (.frameReceive n first ⟨bs, fec⟩ fin) s = .next s)
    ∧ (∀ fec, (s.countWords n fec).get (F.LK_FEC_CORR n) = (s.get (F.LK_FEC_CORR n) + (fec.filter id).length) % 2 ^ (F.LK_FEC_CORR n).w
        ∧ s.countWords n fec = { s with regs := (s.countWords n fec).regs })
    ∧ (s.mode n = 1 → s.pipe n = [] → s.rx n = [] → sget false s.intake.discarding n = false → s.lagging n = 0 →
      64 ≤ bs.length → bs.length ≤ s.get (F.WH_STP_MAXLEN_BYTES n) → bs.length ≤ 196608 →
      (∃ f, (s.receive n true bs none).pipe n = [f] ∧ f.id = s.intake.nextId ∧ f.bytes = bs ∧ f.stat = .opening
        ∧ (s.receive n true bs none).rx n = bs)
      ∧ (∃ f, (s.receive n true bs (some true)).pipe n = [f] ∧ f.id = s.intake.nextId ∧ f.bytes = bs ∧ f.stat = .good
        ∧ (s.receive n true bs (some true)).intake.nextId = s.intake.nextId + 1 ∧ (s.receive n true bs (some true)).rx n = []
        ∧ ∀ k : Nat, k ≠ n → (s.receive n true bs (some true)).pipe k = s.pipe k)
      ∧ (∀ f ∈ (s.receive n true bs (some false)).pipe n, f.stat = .aborted))
    ∧ (s.takesWrite (R.WH_STP_CTRL n) = true → ∃ (u : State) (rest : Bool), exec (.standpipeFlush n) s
          = .next (((u.setPipe n []).bump (F.WH_STP_FLUSH_DROPS n)
            ((s.pipe n).filter fun f => !f.released && f.stat != .aborted).length).setDiscard n rest)
        ∧ (s.flush n).pipe n = [] ∧ ((s.openFrame n).isSome = true → rest = true))
    ∧ (s.takesWrite (R.WH_LINK_CTRL n) = true → s.linkUp n = false → m.val ≠ 3 →
      (s.get (F.LK_PAIR_STATUS_STATE (n.val / 2)) = 0 ∨ s.ethernet n = false ∨ (s.mode n = 1 ↔ m.val = 1)) →
      ∃ t, exec (.linkModeWrite n m) s = .next t ∧ t.mode n = m.val ∧ t = { s with regs := t.regs })
    ∧ (s.linkUp n = true ∨ m.val = 3 ∨ (s.get (F.LK_PAIR_STATUS_STATE (n.val / 2)) ≠ 0 ∧ s.ethernet n = true
        ∧ ¬(s.mode n = 1 ↔ m.val = 1)) → exec (.linkModeWrite n m) s = .next s))
  ∧ (∀ (s : State) (n l : Nat), s.live = true → ¬(s.clk.strokes = true ∧ s.clk.cycle = s.clk.openCycle) → s.nextLane = some l →
    (∀ f, s.nextHead = some (n, .inr f) →
      exec .headDeal s = .next (s.dealFirst n l f)
      ∧ ∃ e, (s.dealFirst n l f).reorder n = s.reorder n ++ [e] ∧ e.seq = sget 0 s.intake.nextSeq n ∧ e.frame = f.id ∧ e.lane = l
          ∧ e.rEpoch = s.raw R.WH_RBANK_EPOCH ∧ e.eEpoch = s.raw R.WH_EBANK_EPOCH ∧ e.fEpoch = s.raw R.WH_FBANK_EPOCH
          ∧ e.dealt = s.clk.cycle ∧ e.verdict = none
          ∧ sget 0 (s.dealFirst n l f).intake.nextSeq n = (sget 0 s.intake.nextSeq n + 1) % 4096)
    ∧ (∀ e, s.nextHead = some (n, .inl e) → exec .headDeal s = .next (s.dealSecond n l e)))

/-! ## Flows, features, classification, verdicts (chapters 04 and 05) -/

/-- The flow stage: the pass that comes next is looked up, once the cycles of its lookup have passed and no move lock holds its context;
it hits, goes to the insert port or goes on without a context. The insert port takes the pass that has waited longest, four in a cycle
at most; one that has waited 65 cycles, its key not served by the relocator, goes on without a context, counted by what it waited for;
a free relocator that finds a free slot for the pass that has waited longest inserts it, and otherwise holds a chain for it, planned in
25 core cycles a move (log 24); each of its moves copies a slot, the last one of the plan first, and holds the move lock on the moved
context for 8 cycles; after the last the key is inserted, or the chain is counted as failed (R130, R131, R133-R135). -/
def Obligations.PassesGoThroughTheFlowStage : Prop :=
  ∀ (s : State) (r : PassRef) (p : Pass) (ps : List Pass), s.live = true →
    (s.lookupOrder = p :: ps → p.is r = true →
      let found := p.key.map fun key => (s.lookup p.keyspace key).2
      let takes := if found == some .miss && s.on F.WH_FT_CTRL_LEARN then 27 else 52
      let lock := match found with
        | some (.hit i) | some (.poisoned i) => s.lockEnd i
        | _ => 0
      ∀ u, s.reach (max (p.dealt + 12 + takes) lock) = some u →
        exec (.flowLookup r) s = .next ((u.giveWay wellheadUse (u.rungKey p.link) u.clk.cycle 1).lookupPass p))
    ∧ (∀ u : State, let v := (u.senderStep p).current p
        (v.key = none → u.lookupPass p = (u.senderStep p).noCtx v)
        ∧ (∀ key t i, v.key = some key → (u.senderStep p).lookup v.keyspace key = (t, .hit i) → u.lookupPass p = t.hitCtx v i)
        ∧ (∀ key t, v.key = some key → (u.senderStep p).lookup v.keyspace key = (t, .miss) → u.lookupPass p
            = if t.on F.WH_FT_CTRL_LEARN then t.putPass { v with flow := .waitPort, waitFrom := v.dealt + 40 } else t.noCtx v))
    ∧ (s.waiting .waitPort = p :: ps → p.waitFrom ≤ s.clk.cycle → s.flow.portCycle ≠ s.clk.cycle ∨ s.flow.portCount < 4 →
      exec .flowInsertPort s = .next ({ s with flow := { s.flow with
        portCycle := s.clk.cycle
        portCount := if s.flow.portCycle = s.clk.cycle then s.flow.portCount + 1 else 1 } }.portStep p))
    ∧ (s.pass? r = some p → p.flow = .waitPort → p.waitFrom + 65 ≤ s.clk.cycle →
      exec (.insertWaitTimeout r) s = .next ((s.bump F.WH_FT_INSERT_BUSY).noCtx p))
    ∧ (s.pass? r = some p → p.flow = .waitReloc → s.served p = false → p.waitFrom + 65 ≤ s.clk.cycle →
      exec (.insertWaitTimeout r) s = .next ((s.bump F.WH_FT_RELOC_BUSY).noCtx p))
    ∧ (s.flow.chain = none → s.waiting .waitReloc = p :: ps → p.waitFrom ≤ s.clk.cycle → ∀ s1,
      (∀ pos, s.freeSlot s.insertSet p.keyspace (p.key.getD []) = (s1, some pos) → exec .relocationChain s = .next (s1.chainDone p pos))
      ∧ (s.freeSlot s.insertSet p.keyspace (p.key.getD []) = (s1, none) → exec .relocationChain s = .next (s1.startChain p)))
    ∧ (∀ s2 vs dst v key, v = s.insertSet → key = p.key.getD [] →
      s.planChain v.set 16 1 (v.fp p.keyspace key) 0 (v.b0 p.keyspace key) [] = (s2, vs, dst) →
      ∃ c : Chain, (s.startChain p).flow.chain = some c ∧ c.pass = p ∧ c.set = v.set ∧ c.victims = vs ∧ c.dst = dst
        ∧ c.due = s2.clk.cycle + 25 * vs.length ∧ c.moves = (dst.map (chainMoves vs)).getD [] ∧ c.lock = none
        ∧ (s.startChain p).on F.WH_FT_STATUS_RELOC_BUSY = true)
    ∧ (∀ c, s.flow.chain = some c → c.due ≤ s.clk.cycle → exec .relocationChain s = .next s.chainStep)
    ∧ (∀ c : Chain, s.endLock.flow.chain = some c →
      (c.dst = none → s.chainStep = s.endLock.endChain.chainFailed (s.endLock.current c.pass))
      ∧ (∀ m ms, c.dst ≠ none → c.moves = m :: ms → ∃ d : Chain, s.chainStep.flow.chain = some d ∧ d.moves = ms
          ∧ d.due = (s.endLock.copySlot c.set m).1.clk.cycle + 8 ∧ d.last = some m.1
          ∧ (d.lock.isSome = true ↔ slotValid (s.endLock.copySlot c.set m).2 = true))
      ∧ (c.dst ≠ none → c.moves = [] → s.chainStep = (s.endLock.endChain.wrPos c.set (c.victims.headD (0, 0, 0)) 0).chainDone
          (s.endLock.current c.pass) (c.victims.headD (0, 0, 0))))
    ∧ (s.endChain.on F.WH_FT_STATUS_RELOC_BUSY = false ∧ s.endChain.flow.chain = none)

/-- A lookup reads both buckets of the new set, and those of the old set unless both old bucket indices are below the cursor; the new
set comes first. Outside a rehash it reads the two buckets of the set in use. -/
def Obligations.RehashLookups : Prop :=
  ∀ (s : State) (ks : Nat) (key : List Byte),
    let of : SetSeeds → List (Nat × Nat × Nat × Nat) := fun v => [(v.set, 0, v.bucket ks key 0, v.fp ks key), (v.set, 1, v.bucket ks key 1, v.fp ks key)]
    let below := s.oldSet.bucket ks key 0 < s.get F.WH_FT_CURSOR ∧ s.oldSet.bucket ks key 1 < s.get F.WH_FT_CURSOR
    (s.rehashing = true → ¬below → s.lookupBuckets ks key = of s.newSet ++ of s.oldSet)
    ∧ (s.rehashing = true → below → s.lookupBuckets ks key = of s.newSet)
    ∧ (s.rehashing = false → s.lookupBuckets ks key = of s.oldSet)

/-- A freed context index is not given out again for 4,096 core cycles, and freed indices are given out in the order of their freeing.
-/
def Obligations.FreedIndicesRest : Prop :=
  ∀ (s : State) (i c : Nat) (rest : List (Nat × Nat)), 8388608 ≤ s.flow.fresh → s.flow.freed = (i, c) :: rest →
    (s.clk.cycle < c + 4096 → s.nextIndex = none)
    ∧ (c + 4096 ≤ s.clk.cycle → s.nextIndex = some i ∧ s.takeIndex.flow.freed = rest)
    ∧ ∀ j, (s.freeIndex j).flow.freed = s.flow.freed ++ [(j, s.clk.cycle)]

/-- The aging scan looks at its context, after those in use that come before it in its order, and goes on to the next; the flow end
whose second step is due first ends, its context no longer ending, cleared where it was lost, and its index freed; the flow-end ring
is enabled where its base is aligned and its end inside the Cistern, and refused elsewhere (R139, R140). -/
def Obligations.FlowsEnd : Prop :=
  ∀ (s : State) (ctx : Fin 8388608) (e : FlowEnding), s.live = true →
    (s.on F.WH_FT_CTRL_AGE = true → exec (.agingScan ctx) s = .next (s.agingScan ctx))
    ∧ (s.flow.scan % 8388608 = ctx → s.agingScan ctx = s.scanCtx ctx)
    ∧ (s.on F.WH_FT_CTRL_AGE = false → exec (.agingScan ctx) s = .next s)
    ∧ (∀ es, sortBy (·.due) s.flow.endings = e :: es → e.due ≤ s.clk.cycle → exec .flowEnd s = .next (s.finishFlow e))
    ∧ (e.lost = true → e.queue = none → ∃ u : State, s.finishFlow e = (u.wrCtx e.ctx (zeros 128)).freeIndex e.ctx
        ∧ ∀ x ∈ u.flow.endings, x.ctx ≠ e.ctx)
    ∧ (e.lost = false → e.queue = none → ∃ u : State, s.finishFlow e = u.freeIndex e.ctx)
    ∧ (s.get64 R.WH_FE_BASE_LO % 4096 = 0 → s.get64 R.WH_FE_BASE_LO + 128 * 2 ^ s.get F.WH_FE_CTRL_LOG2 ≤ 0xA0000000 →
      ∃ t, exec .flowEndRingEnable s = .next t ∧ t.on F.WH_FE_CTRL_EN = true ∧ t = { s with regs := t.regs })
    ∧ (s.get64 R.WH_FE_BASE_LO % 4096 ≠ 0 → exec .flowEndRingEnable s = .next s)

/-- The rule stage gives a pass its result 12 cycles and the stage's own after its dealing; its feature program gives it its features
32 cycles after its flow stage; neither changes a register but the counters the rules name (R147, R157, R160). A word of any image
fetched again while a pass waits for it (R161): counted as a repair, written into the image where it can be read; a poisoned one gives
the pass its link's default action. How long the pass waits is a free value of at most 64 cycles (log 13). -/
def Obligations.PassesAreClassified : Prop :=
  (∀ (s : State) (r : PassRef) (p : Pass) (e : RoEntry), s.live = true → s.pass? r = some p →
    (∀ res miss t, s.classifies p = some e → s.ruleStage (s.img .rule e.rBank) p = (res, miss, t) →
      p.dealt + 12 + t + p.waited ≤ s.clk.cycle →
      exec (.ruleClassify r) s = .next ((if miss then s.bump (F.WH_RULE_MISS p.link) else s).ruleResult p e res))
    ∧ (s.entry? p.link p.seq = some e → s.entered p.link e = false → p.flow = .done → p.result ≠ .dflt → p.feats = none →
      p.flowAt + 32 ≤ s.clk.cycle →
      exec (.featureProgram r) s = .next (s.putPass
        ({ p with feats := some (runProgram p (s.fbWord p.epoch 0) (s.program p.epoch p.profile)) }.readyAt s.clk.cycle))))
  ∧ (∀ (s : State) (r : PassRef) (p : Pass) (e : RoEntry) (mem : RuleMem) (word : Nat), s.live = true → s.pass? r = some p →
    (mem ≠ .tree → s.classifies p = some e) →
    (mem = .tree → (∃ x c m sc, p.result = .vote x c m sc) ∧ s.entry? p.link p.seq = some e ∧ s.entered p.link e = false) →
    8 * word < (regionOf (e.imageOf mem).1 (e.imageOf mem).2).2 →
    let o := (regionOf (e.imageOf mem).1 (e.imageOf mem).2).1
    let rd := (s.bump F.WH_RULE_REPAIR).rdTab (o + 8 * word) 8
    let d := 1 + rd.1.free.1 % 64
    (rd.2.2.any id = false → exec (.ruleWordRefetch r mem word) s
      = .next ((rd.1.free.2.setImg (e.imageOf mem).1 (e.imageOf mem).2
          (Memory.write (rd.1.free.2.img (e.imageOf mem).1 (e.imageOf mem).2) (8 * word) rd.2.1)).putPass
            (if mem = .tree then { p with resultAt := p.resultAt + d } else { p with waited := p.waited + d })))
    ∧ (rd.2.2.any id = true → exec (.ruleWordRefetch r mem word) s
      = .next ((rd.1.free.2.bump F.WH_RULE_POISON).putPass { p with result := .dflt, resultAt := s.clk.cycle + d })))

/-- A group issues the oldest ready pass of a privileged link, or else the oldest other: its ensemble's vote stands 8 cycles later, 9
for a wide one (R172-R174, R177). A tree group that fails takes its lane out of service, and a free spare is to be loaded for it, with
UNIT_FAILED kind 2, action 1, or action 2 where none is free; a failing spare is lost; once loaded the spare serves the lane, which is
in service again, and no spare is left (R171). -/
def Obligations.TreesVote : Prop :=
  (∀ (s : State) (lane : Fin 24) (c : Nat) (p : Pass), s.live = true → s.issueCycle lane = some c → c ≤ s.clk.cycle →
    s.nextIssue lane s.clk.cycle = some p →
    exec (.treeIssue lane) s = .next (s.issue lane p)
    ∧ ∀ w e m v, p.result = .rule w → s.entry? p.link p.seq = some e → s.entered p.link e = false → s.ensembleOf p e w = some (m, v) →
        ∃ (u : State) (cls margin score : Nat), s.issue lane p = u.putPass { p with
            ready := none, result := .vote w cls margin score, resultAt := s.clk.cycle + if ensWide v then 9 else 8 }
          ∧ (s.clk.cycle ≠ s.planeAt lane → sget 0 u.intake.treeFree lane = s.clk.cycle + if ensWide v then 2 else 1))
  ∧ (∀ (s : State) (g : Fin 25) (l : Nat), s.live = true → l < 24 →
    (s.groupLane g = some l → s.on F.WH_TG_SPARE_NONE = false → s.banks.spareFor = none →
      ∃ u : State, exec (.treeGroupFail g) s = .next (u.unitFailed 2 g 1 0) ∧ u.banks.spareFor = some l)
    ∧ (s.groupLane g = some l → s.on F.WH_TG_SPARE_NONE = true ∨ s.banks.spareFor ≠ none →
      ∃ u : State, exec (.treeGroupFail g) s = .next (u.unitFailed 2 g 2 0) ∧ u.banks.spareFor = s.banks.spareFor)
    ∧ (s.groupLane g = none → g.val = s.get F.WH_TG_SPARE_GROUP → s.on F.WH_TG_SPARE_NONE = false →
      ∃ u : State, exec (.treeGroupFail g) s = .next (u.unitFailed 2 g 2 0) ∧ u.on F.WH_TG_SPARE_NONE = true
        ∧ u.banks.spareFor = none)
    ∧ (s.banks.spareFor = some l → ∃ t, exec .spareGroupLoaded s = .next t ∧ t.banks.spareFor = none
        ∧ sget l t.banks.laneGroup l = s.get F.WH_TG_SPARE_GROUP ∧ t.on ⟨R.WH_LANES, l, 1⟩ = true ∧ t.on F.WH_TG_SPARE_NONE = true))

/-- The verdict stage issues a pass's verdict to its reorder entry, and its features go to the capture bank unless it is the default's;
at 1,600 cycles after the first dealing a frame without one takes its link's default action, late, counted; the reorder stage
releases from the front; a full verdict frame goes out at once, another after HOLD (R118, R121, R158, R178, R185, R274). An issued
verdict stands in its frame's entry, and the frame asks for no second pass any more (R121, R166). -/
def Obligations.VerdictsAreIssued : Prop :=
  (∀ (s : State) (r : PassRef) (p : Pass) (e : RoEntry) (n : Fin 24) (seq : Fin 4096), s.live = true →
    (∀ v, s.pass? r = some p → s.entry? p.link p.seq = some e → s.passVerdict p e = some v → e.issued = false →
      p.resultAt + 1 ≤ e.dealt + 1591 → (p.second = true ∨ e.two = false) → s.preceded p.link e = false →
      p.resultAt + 8 ≤ s.clk.cycle →
      let u := s.issueVerdict p.link e { v with twoPass := p.second, conflict := p.ctxConflict } (p.resultAt + 9)
      exec (.verdictStage r) s = .next (if v.dflt = true ∨ e.aborted = true then u else u.deposit e p))
    ∧ (s.entry? n seq = some e → e.issued = false → s.resultInTime n e = false → s.preceded n e = false →
      e.dealt + 1599 ≤ s.clk.cycle → ∃ (v : Verdict) (u : State), v.late = true ∧ v.dflt = true
        ∧ u = (s.bump (F.WH_VERDICT_LATE n)).issueVerdict n e v (e.dealt + 1600)
        ∧ exec (.verdictDeadline n seq) s = .next (if s.behindPriv n e = true then
            { u with intake := { u.intake with lateBehind := bumpMap u.intake.lateBehind n 1 } } else u))
    ∧ (∀ rest, s.reorder n = e :: rest → e.verdict.isSome = true → e.arrived + 1 ≤ s.clk.cycle →
      sget 0 s.intake.relNext n ≤ s.clk.cycle → ∃ u : State, u = (s.sendFull n 4096).releaseUpTo n 4 ∧ exec (.reorderRelease n) s
        = .next ({ u with intake := { u.intake with relNext := sset 0 u.intake.relNext n (u.clk.cycle + 1) } }).sweep)
    ∧ (∀ c, s.reorder n = [] → s.fullAt n = some c → c ≤ s.clk.cycle → exec (.reorderRelease n) s = .next (s.sendFull n 4096))
    ∧ (∀ x rest, s.verdictQ n = x :: rest → x.at_ + max 1 (s.get (F.WH_VF_CTRL_HOLD n)) ≤ s.clk.cycle →
      exec (.verdictFrameHoldExpiry n) s = .next (s.sendVerdicts n)))
  ∧ (∀ (s : State) (n : Nat) (e : RoEntry) (v : Verdict) (at_ : Nat), e ∈ s.reorder n →
    ∃ x ∈ (s.issueVerdict n e v at_).reorder n, x.seq = e.seq ∧ x.issued = true ∧ x.arrived = at_ ∧ x.second = none
      ∧ x.verdict.isSome = true)

/-! ## Egress (chapter 06) -/

/-- MODE 1 and MODE 2 of a policer: an entry's buckets are brought up to date and a frame of `len` bytes is coloured, with b its
charged size, all in 1/65,536 byte; nothing fills a bucket beyond its burst. -/
def Obligations.PolicersMeter : Prop :=
  ∀ (e : List Byte) (b : Bucket) (now len : Nat),
    let sz : Nat := 65536 * (len + polOverhead e)
    let cbs : Nat := 65536 * polCbs e
    let top : Nat := 65536 * polBurst2 e
    let addC := (credit (polCir e) (now - b.last) b.remC).1
    let addP := (credit (polPir e) (now - b.last) b.remP).1
    let u := b.refresh e now
    let m := u.meter e len
    (polMode e = 1 → b.tc ≤ (cbs : Int) → b.te ≤ top →
      u.tc = min (b.tc + addC) cbs
      ∧ (u.te : Int) = (if (cbs : Int) < b.tc + addC then min (top : Int) (b.te + (b.tc + addC - cbs)) else b.te)
      ∧ u.tc ≤ (cbs : Int) ∧ u.te ≤ top
      ∧ ((sz : Int) ≤ u.tc → m.2 = .green ∧ m.1.tc = u.tc - sz ∧ m.1.te = u.te)
      ∧ (u.tc < (sz : Int) → sz ≤ u.te → m.2 = .yellow ∧ m.1.te = u.te - sz ∧ m.1.tc = u.tc)
      ∧ (u.tc < (sz : Int) → u.te < sz → m.2 = .red ∧ m.1.te = u.te ∧ m.1.tc = u.tc))
    ∧ (polMode e = 2 →
      u.tc = min (b.tc + addC) cbs ∧ u.te = min (b.te + addP) top
      ∧ (u.te < sz → m.2 = .red ∧ m.1.te = u.te ∧ m.1.tc = u.tc)
      ∧ (sz ≤ u.te → u.tc < (sz : Int) → m.2 = .yellow ∧ m.1.te = u.te - sz ∧ m.1.tc = u.tc)
      ∧ (sz ≤ u.te → (sz : Int) ≤ u.tc → m.2 = .green ∧ m.1.te = u.te - sz ∧ m.1.tc = u.tc - sz))

/-- Egress: a frame ready for a lit link is metered, joins its class while that is under its LIMIT, and the classes' new heads are
tagged; one that its policer drops, or for a dark link, is dropped and counted; one over the LIMIT is dropped; the transmitter takes a
frame of the class picked, and what it has sent leaves whole, its space and the transmitter free, counted; an originated frame of a
link under its cap joins its class, one over it is refused (R191-R193, R199, R201-R203, R210, R404). -/
def Obligations.FramesLeave : Prop :=
  ∀ (s : State) (n : Fin 24) (r : Ready) (t0 : Tx) (bs : List Byte), s.live = true →
    (s.nextReady = some r → s.lit r.dst = false → ∃ u : State, exec .egressEnqueue s = .next u
      ∧ u.get (F.EG_DOWN_DROPS r.dst r.tc) = (s.get (F.EG_DOWN_DROPS r.dst r.tc) + 1) % 2 ^ 32 ∧ r ∉ u.egress.ready
      ∧ u.egress.queues = s.egress.queues)
    ∧ (∀ s1 col mark, s.nextReady = some r → s.lit r.dst = true →
        ({ s with egress := { s.egress with ready := s.egress.ready.filter (· != r) } } : State).meter r = (s1, some (col, mark)) →
        s1.classBytes r.dst r.tc + (s1.entryLen { src := r.src, frame := r.frame, mark := mark }).1
          ≤ 256 * s1.getF (F.EG_TC_LIMIT r.dst r.tc) →
      ∃ u : State, exec .egressEnqueue s = .next (u.newHeads r.dst) ∧ r ∉ u.egress.ready
        ∧ u.classQ r.dst r.tc = s.classQ r.dst r.tc ++ [{ src := r.src, frame := r.frame, mark := mark }]
        ∧ u.regs = (if col = .yellow then s1.bump (F.EG_POL_YELLOW r.dst r.tc) else s1).regs)
    ∧ (∀ s1 col mark, s.nextReady = some r → s.lit r.dst = true →
        ({ s with egress := { s.egress with ready := s.egress.ready.filter (· != r) } } : State).meter r = (s1, some (col, mark)) →
        256 * s1.getF (F.EG_TC_LIMIT r.dst r.tc)
          < s1.classBytes r.dst r.tc + (s1.entryLen { src := r.src, frame := r.frame, mark := mark }).1 →
      ∃ u : State, exec .egressEnqueue s = .next (u.newHeads r.dst)
        ∧ u = (s1.bump (F.EG_TAIL_DROPS r.dst r.tc)).releaseEntry { src := r.src, frame := r.frame, mark := mark })
    ∧ (∀ s1, s.nextReady = some r → s.lit r.dst = true →
        ({ s with egress := { s.egress with ready := s.egress.ready.filter (· != r) } } : State).meter r = (s1, none) →
      exec .egressEnqueue s
        = .next ((s1.bump (F.EG_POL_DROPS r.dst r.tc)).releaseEntry { src := r.src, frame := r.frame, mark := 0 }))
    ∧ (s.tx n = some t0 → t0.entry.own = some bs → t0.start + s.wireTicks n bs.length ≤ s.clk.time →
      ∃ u : State, exec (.egressFrameEnd n) s = .next u ∧ u.tx n = none
        ∧ u.out = .frame n (sentBytes bs t0.rewrite) false :: s.out)
    ∧ (∀ f, s.tx n = some t0 → t0.entry.own = none → s.frame? t0.entry.src t0.entry.frame = some f → f.stat = .good →
        t0.start + s.wireTicks n f.bytes.length ≤ s.clk.time →
      ∃ u : State, exec (.egressFrameEnd n) s = .next u ∧ u.tx n = none
        ∧ u.out = .frame n (sentBytes f.bytes t0.rewrite) false :: s.out)
    ∧ (∀ f rest, s.lit n = true → s.tx n = none → s.mode n = 2 → sget [] (s.sendFull n 4096).egress.aside n = f :: rest →
      ∃ u : State, exec (.egressSelect n) s = .next u ∧ sget [] u.egress.aside n = rest
        ∧ u.tx n = some { entry := { src := n, frame := 0, mark := 0, own := some f }, tc := 0, start := (s.sendFull n 4096).clk.time })
    ∧ (∀ u, s.lit n = true → s.tx n = none → s.mode n ≠ 2 → u = (List.range 8).foldl (fun t c => State.barClass t n c) (s.newHeads n) →
      exec (.egressSelect n) s = .next (match u.pickClass n with
        | some c => u.startFrame n c
        | none => u))
    ∧ (s.clk.cycle < s.egress.origFrom + 2500000 → sget 0 s.egress.origSent n < s.get (F.RV_ORIG_CAP n) → s.lit n = true →
        s.mode n = 2 → ∃ u : State, exec (.originatedFrameSend n bs) s = .next u
          ∧ sget [] u.egress.aside n = sget [] s.egress.aside n ++ [withFcs (bs ++ zeros (60 - bs.length))])
    ∧ (∀ c, c = s.getF (F.EG_LINK_CTRL_ORIG_TC n) → s.clk.cycle < s.egress.origFrom + 2500000 →
        sget 0 s.egress.origSent n < s.get (F.RV_ORIG_CAP n) → s.lit n = true → s.mode n ≠ 2 →
        s.classBytes n c + (withFcs (bs ++ zeros (60 - bs.length))).length ≤ 256 * s.getF (F.EG_TC_LIMIT n c) →
        ∃ u : State, exec (.originatedFrameSend n bs) s = .next (u.newHeads n) ∧ u.classQ n c
          = s.classQ n c ++ [{ src := n, frame := 0, mark := 0, own := some (withFcs (bs ++ zeros (60 - bs.length))) }])
    ∧ (s.clk.cycle < s.egress.origFrom + 2500000 → s.get (F.RV_ORIG_CAP n) ≤ sget 0 s.egress.origSent n →
        ∃ u : State, exec (.originatedFrameSend n bs) s = .next u ∧ u.egress.aside = s.egress.aside
          ∧ u.egress.queues = s.egress.queues ∧ sget 0 u.egress.origRefused n = sget 0 s.egress.origRefused n + 1)

/-- Gate lists (R202, R206-R209): COMMIT sends the staged list to its validation; the validation stages it or refuses it with its
reason; a pending list takes over at its time; an entry's end gives the classes that it opens or closes their tags; the windows of
R403 and R404 close when they are over. -/
def Obligations.GateListsAndWindows : Prop :=
  ∀ (s : State) (n : Fin 24),
    (s.takesWrite (R.EG_GCL_CTRL n) = true → ∃ t, exec (.gclCommit n) s = .next t ∧ (t.gates n).validating = true
      ∧ t.on (F.EG_GCL_STATUS_STAGED n) = false ∧ t.on (F.EG_GCL_STATUS_REFUSED n) = false ∧ (t.gates n).oper = (s.gates n).oper)
    ∧ (s.live = true → (s.gates n).validating = true → gclRefusal (s.stagedList n) = none →
      ∃ t, exec (.gclValidationDone n) s = .next t ∧ (t.gates n).validating = false ∧ t.on (F.EG_GCL_STATUS_STAGED n) = true)
    ∧ (∀ x, s.live = true → (s.gates n).validating = true → gclRefusal (s.stagedList n) = some x → x < 16 →
      ∃ t, exec (.gclValidationDone n) s = .next t ∧ (t.gates n).validating = false ∧ t.on (F.EG_GCL_STATUS_REFUSED n) = true
        ∧ t.get (F.EG_GCL_STATUS_REASON n) = x)
    ∧ (∀ l st, s.live = true → (s.gates n).pending = some (l, st) → nsTick st ≤ s.clk.time →
      ∃ u : State, exec (.gateListTakeover n) s = .next (u.newHeads n) ∧ (u.gates n).oper = some (l, st)
        ∧ (u.gates n).pending = none ∧ u.on (F.EG_GCL_STATUS_PENDING n) = false)
    ∧ (∀ l st, s.live = true → (s.gates n).oper = some (l, st) → l.entries ≠ [] → ∀ u, s.reachTick (l.at_ st s.clk.time).2.2 = some u →
      exec (.gateEntryChange n) s = .next (u.tagClasses n))
    ∧ (s.live = true → s.clk.strokes = false → s.intake.windowFrom + 250000 ≤ s.clk.cycle →
      exec .dropBudgetWindow s = .next (s.closeBudget s.priv))
    ∧ (∀ priv, (s.closeBudget priv).intake.budgetV = [] ∧ (s.closeBudget priv).intake.budgetD = []
        ∧ (s.closeBudget priv).intake.converted = [] ∧ (s.closeBudget priv).intake.windowFrom = s.clk.cycle)
    ∧ (s.live = true → s.egress.origFrom + 2500000 ≤ s.clk.cycle → exec .originationWindowEnd s = .next s.closeOrigin)

/-! ## Banks of the packet path (R151-R153, R170, R175) -/

/-- ARM of a bank that is not retiring starts its validation afresh; DISARM clears ARMED alone; COPY of a free staging bank disarms it
and starts the copy. Validation arms the bank or refuses it with its reason; a copy that is done leaves the staging bank as the active
one; RETIRING ends when no frame holds the former bank. A write to the staging feature bank disarms it, one of a descriptor with a
reserved value is rejected, and one while it retires or is copied is discarded (R151-R153, R170, R175; where those rules leave an order
open, log 12). -/
def Obligations.BanksAreArmed : Prop :=
  ∀ (s : State) (b : BankKind),
    let arm : Instr := match b with | .feature => .fbankArm | .rule => .rbankArm | .ensemble => .ebankArm
    let disarm : Instr := match b with | .feature => .fbankDisarm | .rule => .rbankDisarm | .ensemble => .ebankDisarm
    let copy : Instr := match b with | .feature => .fbankCopy | .rule => .rbankCopy | .ensemble => .ebankCopy
    s.live = true →
    (s.on b.retiring = false → ∃ t, exec arm s = .next t ∧ t.on b.validating = true ∧ t.on b.armed = false ∧ t.on b.refused = false
      ∧ t = { s with regs := t.regs })
    ∧ (∃ t, exec disarm s = .next t ∧ t.on b.armed = false ∧ t.on b.validating = s.on b.validating ∧ t = { s with regs := t.regs })
    ∧ (s.stagingBusy b = false → ∃ t, exec copy s = .next t ∧ t.on b.copying = true ∧ t.on b.armed = false
        ∧ t.on b.validating = false ∧ t = { s with regs := t.regs })
    ∧ (s.stagingBusy b = true → exec copy s = .next s)
    ∧ (s.on b.validating = true → b = .feature → s.featureRefusal = none →
        ∃ t, exec (.bankValidationDone b) s = .next t ∧ t.on b.validating = false ∧ t.on b.armed = true)
    ∧ (∀ x p, s.on b.validating = true → b = .feature → s.featureRefusal = some (x, p) → ∃ u : State, u.on b.validating = false ∧
        exec (.bankValidationDone b) s = .next (u.refuseArm b x 0 p))
    ∧ (s.on b.validating = true → b = .rule → exec (.bankValidationDone b) s
        = .next (match s.ruleRefusal (s.img .rule (s.stagingOf .rule)) with
          | some (x, i, p) => (s.putB b.validating false).refuseArm b x i p
          | none => (s.putB b.validating false).putB b.armed true))
    ∧ (s.on b.validating = true → b = .ensemble → exec (.bankValidationDone b) s
        = .next (match ensRefusal (s.img .ensemble (s.stagingOf .ensemble)) with
          | some (x, p) => (s.putB b.validating false).refuseArm b x 0 p
          | none => (s.putB b.validating false).putB b.armed true))
    ∧ (s.on b.copying = true → b = .feature → exec (.bankCopyDone b) s
        = .next (((s.putB b.copying false).disarm b).setStaging s.banks.fActive))
    ∧ (s.on b.copying = true → b ≠ .feature → ∃ (o : Nat) (bs : List Byte), exec (.bankCopyDone b) s
        = .next (((((s.putB b.copying false).disarm b).wrTabAll o bs).setImg b (1 - s.get b.active) (s.img b (s.get b.active))).showBytes))
    ∧ (s.on b.retiring = true → s.bankFree b = true → ∃ t, exec (.bankRetired b) s = .next t ∧ t.on b.retiring = false
        ∧ t = { s with regs := t.regs })
    ∧ (∀ (off : Nat) (v : Word), s.stagingBusy .feature = true → exec (.stagingBankWrite off v) s = .next s)
    ∧ (∀ (off : Nat) (v : Word) row ix, stagingOff off = true → s.stagingBusy .feature = false → findRow regRows off = some (row, ix) →
        let v1 := if row.base = R.WH_PROF_FIELD_0 0 0 then v.toNat % 2 ^ 17 else v.toNat
        (wordRefused row.base v.toNat = false → exec (.stagingBankWrite off v) s
          = .next ((s.store row off (fun _ _ => true) v1).disarm .feature))
        ∧ (wordRefused row.base v.toNat = true → exec (.stagingBankWrite off v) s
          = .next (s.putB F.WH_INTAKE_STATUS_DESC_REJECT true)))
    ∧ (exec .fbankArm s = .next (s.armBank .feature) ∧ exec .rbankArm s = .next (s.armBank .rule)
      ∧ exec .ebankArm s = .next (s.armBank .ensemble) ∧ exec .fbankDisarm s = .next (s.putB BankKind.feature.armed false)
      ∧ exec .rbankDisarm s = .next (s.putB BankKind.rule.armed false) ∧ exec .ebankDisarm s = .next (s.putB BankKind.ensemble.armed false)
      ∧ exec .fbankCopy s = .next (s.copyBank .feature) ∧ exec .rbankCopy s = .next (s.copyBank .rule)
      ∧ exec .ebankCopy s = .next (s.copyBank .ensemble))
    ∧ (s.on b.retiring = true → ∃ u : State, s.armBank b = u.refuseArm b b.busyReason 0 0)

/-! ## The table engine -/

/-- Every command of the table engine that may complete does so with its effect on the state it completes in, its status and the cycles
charged to it (one at least where the spec gives no length: log 5); a load has first what the host stored in its own memory (R75, R154,
R169, R213, R278-R282, R298-R309, R374). FLOW_DELETE begins the end of the flow it finds, which completes it with OK when it is over;
with none it completes NOT_FOUND (R139). -/
def Obligations.TableCommandsComplete : Prop :=
  (∀ (s : State) (q : Fin 16) (c : List Byte) (r : Run) (stores : List (Nat × List Byte)),
    let Q := 64 + q.val
    let may := fun op => CanComplete s Q op (leastCycles r) c r
    let ends := fun op => s.finish Q (leastCycles r) c r (tblEffect op)
    let u := s.hostStores stores
    let mayLoad := fun op => CanComplete u Q op (leastCycles r) c r
    let loaded := fun op => u.finish Q (leastCycles r) c r (tblEffect op)
    (may 0x20 → exec (.flowInsert q) s = ends 0x20) ∧ (may 0x22 → exec (.flowRead q) s = ends 0x22)
    ∧ (may 0x23 → exec (.devWrite q) s = ends 0x23) ∧ (may 0x24 → exec (.rehashStart q) s = ends 0x24)
    ∧ (may 0x25 → exec (.rehashStep q) s = ends 0x25) ∧ (may 0x26 → exec (.senderRead q) s = ends 0x26)
    ∧ (may 0x27 → exec (.senderWrite q) s = ends 0x27) ∧ (may 0x28 → exec (.senderDelete q) s = ends 0x28)
    ∧ (may 0x29 → exec (.tableClear q) s = ends 0x29) ∧ (mayLoad 0x30 → exec (.ruleLoad q stores) s = loaded 0x30)
    ∧ (mayLoad 0x31 → exec (.ensLoad q stores) s = loaded 0x31)
    ∧ (mayLoad 0x40 → exec (.policerWrite q stores) s = loaded 0x40)
    ∧ (may 0x41 → exec (.policerRead q) s = ends 0x41) ∧ (may 0x50 → exec (.capCtrl q) s = ends 0x50)
    ∧ (mayLoad 0x51 → exec (.capMapLoad q stores) s = loaded 0x51) ∧ (may 0x52 → exec (.ctxOpen q) s = ends 0x52)
    ∧ (may 0x53 → exec (.ctxClose q) s = ends 0x53) ∧ (may 0x54 → exec (.ctxRead q) s = ends 0x54)
    ∧ (may 0x55 → exec (.ctxAdvance q) s = ends 0x55) ∧ (may 0x60 → exec (.modelCfg q) s = ends 0x60)
    ∧ (mayLoad 0x61 → exec (.prime q stores) s = u.finish Q (leastCycles r) c r fun b t => t.prime b)
    ∧ (may 0x62 → exec (.commit q) s = ends 0x62) ∧ (may 0x63 → exec (.abandon q) s = ends 0x63)
    ∧ (may 0x64 → exec (.modelSelect q) s = ends 0x64) ∧ (may 0x65 → exec (.modelRead q) s = ends 0x65)
    ∧ (may 0x66 → exec (.retire q) s = ends 0x66) ∧ (mayLoad 0x70 → exec (.routeWrite q stores) s = loaded 0x70)
    ∧ (may 0x71 → exec (.routeRead q) s = ends 0x71))
  ∧ (∀ (s : State) (q : Fin 16) (c : List Byte) (r : Run), s.live = true → s.running (64 + q) 0x21 = some (c, r) →
    (s.flow.endings.any fun e => e.queue == some (64 + q.val)) = false →
    (∀ t i slot, s.deleteTarget c = (t, some (i, slot)) →
      exec (.flowDelete q) s = .next (t.endFlow i 1 slot (bit (byteAt c 18) 2) false (some (64 + q.val))))
    ∧ (∀ t, s.deleteTarget c = (t, none) → CanComplete s (64 + q) 0x21 (leastCycles r) c r →
      exec (.flowDelete q) s = s.finish (64 + q) (leastCycles r) c r fun _ t => (t, Status.notFound)))

/-- What the flow and sender commands do where nothing refuses them: FLOW_INSERT gives its key a context, or finds the one it has, and
tells the host both; FLOW_READ and SENDER_READ send the records they read; REHASH_START takes the seeds it names, cursor 0;
REHASH_STEP migrates; SENDER_DELETE clears its entry and lowers USED; TABLE_CLEAR clears what its bits name; DEV_WRITE writes its
records, a poisoned word's skipped and counted (R130, R137, R144, R150, R154). -/
def Obligations.FlowAndSenderEffects : Prop :=
  ∀ (t : State) (c : List Byte),
    (∀ u i ex, (fieldAt c 24 8 = 0 ∨ t.grant [(true, fieldAt c 24 8, 8)] = none) →
      t.insertKey (byteAt c 16) (cmdKey c) (bit (byteAt c 18) 0) (byteAt c 19) = (u, some (i, ex)) →
      tblEffect 0x20 c t
        = (if fieldAt c 24 8 = 0 then u else u.dataWrite (fieldAt c 24 8) (natBytes 4 i ++ natBytes 4 (b2n ex)), Status.ok))
    ∧ (∀ u, (fieldAt c 24 8 = 0 ∨ t.grant [(true, fieldAt c 24 8, 8)] = none) →
      t.insertKey (byteAt c 16) (cmdKey c) (bit (byteAt c 18) 0) (byteAt c 19) = (u, none) → tblEffect 0x20 c t = (u, Status.tableFull))
    ∧ (∀ u ws, t.grant [(true, fieldAt c 24 8, 128 * fieldAt c 20 4)] = none →
      t.readRecords ctxOff 128 ((List.range (fieldAt c 20 4)).map (fieldAt c 16 4 + ·)) = (u, ws) →
      tblEffect 0x22 c t = ((u.sendHost (fieldAt c 24 8) ws).1, if anyMark ws then Status.poison else Status.ok))
    ∧ (∀ u ws, t.grant [(true, fieldAt c 24 8, 32 * fieldAt c 20 4)] = none →
      t.readRecords sndOff 32 ((List.range (fieldAt c 20 4)).map (fieldAt c 16 4 + ·)) = (u, ws) →
      tblEffect 0x26 c t = ((u.sendHost (fieldAt c 24 8) ws).1, if anyMark ws then Status.poison else Status.ok))
    ∧ (t.rehashing = false → fieldAt c 16 4 ≠ 0 → fieldAt c 20 4 ≠ 0 →
        let v := (t.free.2.free.2.put F.WH_FT_NEW_SEEDB (fieldAt c 16 4)).put F.WH_FT_NEW_SEEDF (fieldAt c 20 4)
        let base := bucketOff (1 - t.get F.WH_FT_STATUS_ACTIVE_SET) 0 0
        let u := ((v.dropChain.clearTab base (base + 0x04000000)).put F.WH_FT_CURSOR 0).putB F.WH_FT_STATUS_REHASH true
        tblEffect 0x24 c t = (u, Status.ok) ∧ v.get F.WH_FT_NEW_SEEDB = fieldAt c 16 4 % 2 ^ 32
          ∧ v.get F.WH_FT_NEW_SEEDF = fieldAt c 20 4 % 2 ^ 32 ∧ u.get F.WH_FT_CURSOR = 0 ∧ u.rehashing = true)
    ∧ (t.rehashing = true → tblEffect 0x24 c t = (t, Status.badCommand))
    ∧ (∀ u, t.rehashing = true → t.migrate (fieldAt c 16 4) = (u, true) → tblEffect 0x25 c t = (u, Status.ok))
    ∧ (∀ u, t.rehashing = true → t.migrate (fieldAt c 16 4) = (u, false) → tblEffect 0x25 c t = (u, Status.tableFull))
    ∧ (∀ u ws, t.rdMarked .cis (fieldAt c 16 8) (16 * ((fieldAt c 24 4 + 1) / 2)) = (u, ws) → tblEffect 0x23 c t
        = (u.devRecords (fieldAt c 28 4) (fieldAt c 24 4) ws, if anyMark ws then Status.poison else Status.ok))
    ∧ (∀ u es w, t.rdSenders (t.sndSet (byteAt c 16) (cmdAddr c)) = (u, es) → senderAt es (byteAt c 16) (cmdAddr c) = some w →
        tblEffect 0x28 c t
          = ((u.wrTab (sndOff (4 * t.sndSet (byteAt c 16) (cmdAddr c) + w)) (zeros 32)).lessSenders, Status.ok))
    ∧ t.lessSenders = t.put F.WH_SND_USED (t.get F.WH_SND_USED - 1)
    ∧ (∀ u es, t.rdSenders (t.sndSet (byteAt c 16) (cmdAddr c)) = (u, es) → senderAt es (byteAt c 16) (cmdAddr c) = none →
        tblEffect 0x28 c t = (u, Status.notFound))
    ∧ (bit (byteAt c 16) 0 = true → bit (byteAt c 16) 1 = false → tblEffect 0x29 c t = (t.clearFlows, Status.ok))
    ∧ (bit (byteAt c 16) 0 = false → bit (byteAt c 16) 1 = true → tblEffect 0x29 c t = (t.clearSenders, Status.ok))

/-- What the loads, the policer, capture and route commands do where nothing refuses them, with status OK (R169, R194, R213, R273,
R278, R374). -/
def Obligations.LoadsAndSettings : Prop :=
  ∀ (t : State) (c : List Byte),
    let granted := fun n => byteAt c 24 ≠ 0 ∨ t.grant [(false, fieldAt c 16 8, n)] = none
    (∀ b u ws, granted (fieldAt c 28 4) → t.stagingBusy b = false →
      t.readSpace (byteAt c 24) (fieldAt c 16 8) (fieldAt c 28 4) = (u, ws) →
      anyMark ws = false → imageStatus b (Memory.write [] 0 (wordBytesOf ws)) (fieldAt c 28 4) = Status.ok →
      State.loadBank b c t = (u.loadImage b (wordBytesOf ws), Status.ok))
    ∧ (∀ b, granted (fieldAt c 28 4) → t.stagingBusy b = true → State.loadBank b c t = (t, Status.primeBusy))
    ∧ (let n := fieldAt c 30 2 + 1
      ∀ u ws, granted (32 * n) → t.readSpace (byteAt c 24) (fieldAt c 16 8) (32 * n) = (u, ws) → anyMark ws = false →
        let entry := fun i => ((wordBytesOf ws).drop (32 * i)).take 32
        ((List.range n).any fun i => polBad (entry i)) = false → State.policerWrite c t
          = ((List.range n).foldl (fun v i => v.writePolicer (fieldAt c 28 2 + i) (entry i) (bit (byteAt c 25) 0)) u, Status.ok))
    ∧ (t.past (fieldAt c 36 8) = false → ∃ u, tblEffect 0x50 c t = (u, Status.ok)
        ∧ u.capture.pendingCfg = some (capSetting c, fieldAt c 36 8) ∧ u.capture.cfg = t.capture.cfg
        ∧ u = { t with capture := u.capture })
    ∧ (t.past (fieldAt c 36 8) = true → tblEffect 0x50 c t = (t, Status.strokePassed))
    ∧ (∀ u ws, granted 2048 → t.readSpace (byteAt c 24) (fieldAt c 16 8) 2048 = (u, ws) → anyMark ws = false →
        ((List.range 64).any fun p => capDescBad (capDesc (wordBytesOf ws) p)) = false → u.past (fieldAt c 25 7) = false →
        tblEffect 0x51 c t
          = ({ u with capture := { u.capture with pendingMap := some (wordBytesOf ws, fieldAt c 25 7, none) } }, Status.ok))
    ∧ (let n := fieldAt c 30 2 + 1
      ∀ u ws, granted (2 * n) → t.readSpace (byteAt c 24) (fieldAt c 16 8) (16 * ceilDiv (2 * n) 16) = (u, ws) → anyMark ws = false →
        tblEffect 0x70 c t = ({ u with routes := (List.range n).foldl (fun m i =>
          let v := fieldAt (wordBytesOf ws) (2 * i) 2
          sset 0 m (fieldAt c 28 2 + i) (v % 64 + 2 ^ 14 * (v / 2 ^ 14))) u.routes }, Status.ok))
    ∧ (byteAt c 24 = 0 → t.grant [(true, fieldAt c 16 8, 2 * (fieldAt c 30 2 + 1))] = none →
        tblEffect 0x71 c t = (t.dataWrite (fieldAt c 16 8)
          ((List.range (fieldAt c 30 2 + 1)).map fun i => natBytes 2 (sget 0 t.routes (fieldAt c 28 2 + i))).flatten, Status.ok))

/-- Sequence contexts (R280-R282): CTX_OPEN opens a free context, COLD, on the active model bank, and refuses one that is not free;
CTX_CLOSE frees its range and no other context; CTX_READ writes the entries; CTX_ADVANCE of contexts of one model advances them all. -/
def Obligations.SequenceContexts : Prop :=
  ∀ (t : State) (c : List Byte) (i : Nat),
    let at_ := fun (u : State) j => sget ({} : SeqCtx) u.seqs j
    (∀ b, (at_ t (byteAt c 16)).state = 0 → fieldAt c 32 8 + fieldAt c 40 4 ≤ 0xA0000000 →
        t.regionTaken (fieldAt c 32 8) (fieldAt c 40 4) = false → fieldAt c 20 4 + fieldAt c 24 4 ≤ 524288 → t.activeBank = some b →
        ∃ u, tblEffect 0x52 c t = (u, Status.ok) ∧ (at_ u (byteAt c 16)).state = 1 ∧ (at_ u (byteAt c 16)).bank = b
          ∧ (at_ u (byteAt c 16)).addr = fieldAt c 32 8 ∧ (at_ u (byteAt c 16)).steps = 0
          ∧ (i ≠ byteAt c 16 → at_ u i = at_ t i) ∧ u = { t with seqs := u.seqs })
    ∧ ((at_ t (byteAt c 16)).state ≠ 0 → tblEffect 0x52 c t = (t, Status.badCommand))
    ∧ (∃ u, tblEffect 0x53 c t = (u, Status.ok) ∧ (i ∈ ctxRange c → (at_ u i).state = 0) ∧ (i ∉ ctxRange c → at_ u i = at_ t i)
        ∧ u = { t with seqs := u.seqs })
    ∧ (t.grant [(true, fieldAt c 24 8, 64 * (ctxRange c).length)] = none →
        tblEffect 0x54 c t = (t.dataWrite (fieldAt c 24 8) ((ctxRange c).map fun j => (at_ t j).entry).flatten, Status.ok))
    ∧ ((∀ j ∈ ctxRange c, (at_ t j).state ≠ 0 ∧ (at_ t j).model = fieldAt c 20 4) → (ctxRange c).Nodup →
        ∃ u, tblEffect 0x55 c t = (u, Status.ok) ∧ (i ∈ ctxRange c → at_ u i = (at_ t i).advance (fieldAt c 24 8))
          ∧ (i ∉ ctxRange c → at_ u i = at_ t i) ∧ u = { t with seqs := u.seqs })

/-- Model banks (R298, R303-R309): MODEL_CFG sets an EMPTY bank's region; COMMIT, MODEL_SELECT, RETIRE want the states the spec gives
them; ABANDON returns a PRIMED bank to EMPTY, an ARMED one too with its per-frame banks disarmed and its capture map withdrawn, and is
refused in any other state. -/
def Obligations.ModelBanks : Prop :=
  ∀ (t : State) (c : List Byte),
    let b := byteAt c 16
    let k := t.model b
    let answered := fun o => t.grant [(true, fieldAt c o 8, if fieldAt c o 8 = 0 then 0 else 1280)] = none
    (b ≤ 1 → k.st = .empty → byteAt c 17 + (t.model (1 - b)).quota ≤ 16 → fieldAt c 24 8 + fieldAt c 32 8 ≤ 384 * 2 ^ 30 →
        aqOverlap (fieldAt c 24 8) (fieldAt c 32 8) (t.model (1 - b)).aqBase (t.model (1 - b)).aqSize = false →
        ∃ u, tblEffect 0x60 c t = (u, Status.ok) ∧ (u.model b).quota = byteAt c 17 ∧ (u.model b).aqBase = fieldAt c 24 8
          ∧ (u.model b).aqSize = fieldAt c 32 8 ∧ (u.model b).st = .empty ∧ u.model (1 - b) = t.model (1 - b)
          ∧ u = { t with models := u.models })
    ∧ (k.st ≠ .empty → tblEffect 0x60 c t = (t, Status.primeBusy))
    ∧ (∀ sel, answered 40 → k.st = .primed → t.pastAtStart (fieldAt c 24 8) = false → t.pastAtStart (fieldAt c 32 8) = false →
        ([BankKind.feature, BankKind.ensemble].any fun x => k.img.carries x && t.stagingTaken x) = false →
        t.selectMap k.img (byteAt c 17) = some sel →
        let d := t.commitArm b (byteAt c 17) (fieldAt c 24 8) (fieldAt c 32 8) sel
        tblEffect 0x62 c t = (if d.2 = Status.badCommand then d else (d.1.putBankRecord (fieldAt c 40 8) b (d.1.model b), d.2)))
    ∧ (answered 40 → k.st ≠ .primed → tblEffect 0x62 c t = (t, Status.badCommand))
    ∧ (k.st = .primed → tblEffect 0x63 c t = (t.setModel b k.emptied, Status.ok))
    ∧ (k.st = .armed → tblEffect 0x63 c t = ((t.undoCommit b).setModel b k.emptied, Status.ok))
    ∧ (k.st ≠ .primed → k.st ≠ .armed → tblEffect 0x63 c t = (t, Status.badCommand))
    ∧ k.emptied.st = .empty
    ∧ (∀ sel, answered 24 → k.st ≠ .empty → k.st ≠ .loading → t.selectMap k.img (byteAt c 17) = some sel → tblEffect 0x64 c t
        = ((t.setModel b { k with mapping := sel }).putBankRecord (fieldAt c 24 8) b { k with mapping := sel }, Status.ok))
    ∧ (t.grant [(true, fieldAt c 24 8, 1280)] = none →
        tblEffect 0x65 c t = (t.dataWrite (fieldAt c 24 8) (t.bankRecord b k), Status.ok))
    ∧ (k.st = .draining → fieldAt c 24 8 ≠ 0 → t.past (fieldAt c 24 8) = false →
        tblEffect 0x66 c t = (t.setModel b { k with retireAt := fieldAt c 24 8 }, Status.ok))
    ∧ (k.st ≠ .draining → tblEffect 0x66 c t = (t, Status.badCommand))
    ∧ (k.st ≠ .loading → t.grant [(true, fieldAt c 40 8, if fieldAt c 40 8 = 0 then 0 else 1280)] = none → byteAt c 25 = b →
        t.prime c = (t.putBankRecord (fieldAt c 40 8) b k, Status.primeBusy))

/-! ## The array, the vector units, the tree units, the pump -/

/-- The commands of the array, the vector units, the tree units in batch use and the pump complete with their effect, their status and
the cycles charged: a MATMUL and a CONV after the cycles of R237, whatever mismatches strike their tiles, a MOVE one per 512 bytes, a
vector command after those of R268, ENSEMBLE_RUN after those of R183, a TRANSPOSE after those of R286, COPY when its work is done; a
COPY whose stream has no link up waits, and only a DMA queue runs the last two (R76, R232-R241, R255-R268). COPY between memories that
are not the same: where the windows grant both ends, every word read goes where it is told; a refused end trips valve 4 and nothing is
copied; a destination that no route leads to answers UNREACHABLE (R75, R86, R374). -/
def Obligations.EngineCommandsComplete : Prop :=
  (∀ (s : State) (q : Fin 16) (c : List Byte) (r : Run) (faults : List (Fin 4 × List Nat)),
    let vec := fun op => CanComplete s (16 + q) op (s.cyclesLeft (16 + q) (vecCycles c) r) c r
    let veced := s.finish (16 + q) (s.cyclesLeft (16 + q) (vecCycles c) r) c r (State.vecRun q)
    let matN := s.cyclesDue q r (matTime q faults c s)
    let mated := s.finish q matN c r (State.matEffect q faults)
    let moveN := s.cyclesLeft q (ceilDiv (fieldAt c 32 4) 512) r
    let treeN := s.cyclesDue (32 + q) r (ensembleCycles c s)
    (CanComplete s q 0x11 matN c r → exec (.matmul q faults) s = mated)
    ∧ (CanComplete s q 0x12 matN c r → exec (.conv q faults) s = mated)
    ∧ (faultsOn faults c = [] → matTime q faults c s = some (matCycles c)
        ∧ State.matEffect q faults c s = s.matFinish q (fun _ => .exact) false c)
    ∧ (CanComplete s q 0x13 moveN c r → exec (.move q) s = s.finish q moveN c r (State.moveRun q none))
    ∧ (vec 0x10 → exec (.quant q) s = veced) ∧ (vec 0x11 → exec (.requant q) s = veced)
    ∧ (vec 0x12 → exec (.map q) s = veced) ∧ (vec 0x13 → exec (.reduce q) s = veced)
    ∧ (CanComplete s (32 + q) 0x10 treeN c r → exec (.ensembleRun q) s = s.finish (32 + q) treeN c r State.ensembleRun))
  ∧ (∀ (s : State) (q : Fin 80) (c : List Byte) (r : Run) (stores : List (Nat × List Byte)),
    let u := s.hostStores stores
    let turnN := s.cyclesLeft q (transposeCycles (fieldAt c 32 4) (fieldAt c 36 4) (2 ^ byteAt c 40)) r
    (q.val / 16 = 3 → u.copyWaits c = false → CanComplete u q 0x10 (leastCycles r) c r →
      exec (.copy q stores) s = u.finish q (leastCycles r) c r State.copy)
    ∧ (u.copyWaits c = true → u.running q 0x10 = some (c, r) → exec (.copy q stores) s = .next u)
    ∧ (q.val / 16 = 3 → CanComplete s q 0x11 turnN c r → exec (.transpose q) s = s.finish q turnN c r State.transpose)
    ∧ (q.val / 16 ≠ 3 → exec (.copy q stores) s = .next u ∧ exec (.transpose q) s = .next s))
  ∧ (∀ (t : State) (c : List Byte),
    let src := fieldAt c 16 8
    let dst := fieldAt c 24 8
    let len := fieldAt c 32 4
    let there := t.copyLocal c
    let grants := t.grant ((if byteAt c 36 = 0 then [(false, src, len)] else []) ++ if there = 0 then [(true, dst, len)] else [])
    (grants = none → there ≠ 3 → byteAt c 36 ≠ there → ∀ u ws, t.readSpace (byteAt c 36) src len = (u, ws) →
      let v := u.writeSpace there dst ws
      State.copy c t
        = (if byteAt c 37 = 3 ∧ bit (fieldAt c 44 4) 31 = true then v.1.addFloat (fieldAt c 44 4 % 2 ^ 17) (fieldAt c 42 2) else v.1,
          if v.2 || (byteAt c 36 == 2 && t.lostUnder src len) then Status.poison else Status.ok))
    ∧ (grants = none → there = 3 → t.copyRoute c = none → State.copy c t = (t, Status.unreachable))
    ∧ (∀ u, grants = some u → State.copy c t = (u, Status.dmaFault))
    ∧ (∀ a, byteAt c 36 = 0 → there ≠ 0 → t.host.granted = false → t.dmaRefused false src len = some a → grants = some (t.trip 4 0 a)))

/-! ## Spares of the array, the capture ring (chapters 07 and 09) -/

/-- A tile that fails is out of service, UNIT_FAILED says so, and the lowest free spare is to take its logical position; a failing
spare leaves the spares; MX_RETIRE does the same to an active tile and nothing to another. The spare is ready 4,096 cycles after the
failure, a mirror 4,864 after its start; a vector unit that fails takes its partition with it (R244, R246). A sealed capture bank is
written to its slot of the ring, and then 1 is added to the capture float; the bank is gone, and a word of it that cannot be read is
written as a poisoned word (R275, R277). -/
def Obligations.TilesAreSparedAndCapturesDrain : Prop :=
  (∀ (s : State) (tile : Fin 68) (p : Fin 16), s.live = true →
    let l := s.get (F.MX_TILE_LOGICAL tile)
    exec (.tileFail tile) s = .next (s.tileFail tile) ∧ exec (.vectorUnitFail p) s = .next (s.vectorFail p)
    ∧ (s.get (F.MX_TILE_STATE tile) = 0 → (s.q (l / 4)).cur = none → (s.q (16 + l / 4)).cur = none →
      ∃ (u : State) (spare : Option Nat) (action left : Nat), exec (.tileFail tile) s = .next (u.unitFailed 1 tile action left)
        ∧ u.get (F.MX_TILE_STATE tile) = 2 ∧ u.matrix.swaps = s.matrix.swaps ++ [⟨l, spare, s.clk.cycle, spare.isNone⟩]
        ∧ (action = 1 ↔ spare.isSome = true) ∧ ∀ i, spare = some i → s.get (F.MX_TILE_STATE i) = 1 ∧ i < 68)
    ∧ (s.get (F.MX_TILE_STATE tile) = 1 → ∃ u : State, exec (.tileFail tile) s = .next (u.unitFailed 1 tile 2 u.freeSpares.length)
        ∧ u.get (F.MX_TILE_STATE tile) = 2 ∧ ∀ x ∈ u.matrix.swaps, x.spare ≠ some tile.val)
    ∧ (∀ any : Fin 128, s.takesWrite R.MX_RETIRE = true → s.pcieUp = true → exec (.mxRetire any) s
        = .next (if any < 68 && s.get (F.MX_TILE_STATE any) == 0 then (s.put F.MX_RETIRE_TILE any).tileFail any else s))
    ∧ (∀ x u, s.matrix.swaps.find? (fun y => !y.ready) = some x → s.reach (x.since + 4096) = some u → exec .spareTileReady s
        = .next { u with matrix := { u.matrix with
            swaps := u.matrix.swaps.map fun y => if y = x then { y with ready := true } else y } })
    ∧ (∀ m u, s.matrix.mirror = some m → m.done = false → s.reach (m.since + 4864) = some u →
        exec .tileMirrorDone s = .next { u with matrix := { u.matrix with mirror := some { m with done := true } } })
    ∧ (∀ due, due ≤ s.clk.cycle → s.reach due = some s)
    ∧ (∀ due, s.clk.cycle < due → s.canElapse (due - s.clk.cycle) = true → s.reach due = some (s.elapse (due - s.clk.cycle)))
    ∧ (s.on (F.MX_VEC_STATUS_FAILED p) = false → (s.q (16 + p)).cur = none →
        ∃ u : State, exec (.vectorUnitFail p) s = .next (u.unitFailed 3 p 3 0) ∧ u.on (F.MX_VEC_STATUS_FAILED p) = true
          ∧ u.on (F.MX_PART_STATUS_FAILED p) = true ∧ u = { s with regs := u.regs }))
  ∧ (∀ (s v : State) (b0 : CapBank) (rest : List CapBank), s.live = true → s.capture.closed = b0 :: rest →
    s.reach (b0.sealedAt + 1600 + 256 + ceilDiv b0.cfg.slotBytes 1536) = some v →
    let b : CapBank := { b0 with hold := if b0.gen = v.capture.gen then v.capture.hold else b0.hold }
    ∃ u : State, exec .captureDrain s
        = .next ((u.wrMarked .cis (b.cfg.base + b.sealNo % 2 ^ b.cfg.log2 * b.cfg.slotBytes) b.words).addFloat b.cfg.float 1)
      ∧ u.capture.closed = rest ∧ u.capture.hold = (if b0.gen = v.capture.gen then b.held else v.capture.hold)
      ∧ u = { v with capture := u.capture })

/-! ## The memories (chapter 11) -/

/-- Corrections, scrub, remaps and retirement of words, pages, banks and channels, and the arming of an injection (R325, R333, R334,
R336-R339, R470). A word of a capture bank that cannot be corrected is marked (R277; that PAGE_CORRECTION brings it: log 37). CI_REMAP_CMD and AQ_REMAP_CMD (R337-R339): a word whose bank has a spare word is remapped, REMAP_USED says how many
are left; a bank with a spare bank in its bay starts its copy into it; a page goes to a spare page of its channel. -/
def Obligations.MemoriesAreKept : Prop :=
  (∀ (s : State) (mem : Fin 2) (us : List (Nat × Nat × Bool)),
    let m := memNo mem
    (∀ page, s.live = true → page < m.pages →
      exec (.pageCorrection mem.castSucc page us) s = .next ((s.upsets m page us).correctPage m page))
    ∧ (∀ b rest, s.live = true → s.capture.closed = b :: rest → exec (.pageCorrection 2 0 us) s
        = .next { s with capture := { s.capture with closed := { b with marks := b.marks ++ us.map (·.1) } :: rest } })
    ∧ (∀ page, let v := s.readCode m page
        failedWords (v.coded m) m page = [] → (∀ j < m.columns, codeLost (v.coded m) m page j = false) → s.correctPage m page = v)
    ∧ (s.live = true → s.scrubOn m = false → ∀ columns, exec (.scrubRead mem us columns) s = .next s)
    ∧ (s.live = true → s.scrubOn m = true → ∀ columns, let page := s.scrubAt m
        exec (.scrubRead mem us columns) s
          = .next ((((s.upsets m page us).damageColumns m page columns).scrubPage m page).scrubNext m))
    ∧ (∀ u : State, (u.scrubNext m).scrubAt m = if m.pages ≤ u.scrubAt m + 1 then 0 else u.scrubAt m + 1)
    ∧ (∀ bank : Fin 2048, s.live = true → ∀ c0 v, (s.bank bank).retireFrom = some c0 → s.reach (c0 + 163840) = some v →
        let u := v.spareTakes bank
        exec (.bankRetireCopyDone bank) s = .next
          (if globalBank (u.get F.CI_REMAP_CMD_ADDR) = bank ∧ u.on F.CI_REMAP_CMD_RETIRE = true then u.putB F.CI_REMAP_CMD_GO false else u)
        ∧ ∃ (v : State) (left : Nat), u = v.unitFailed 5 bank 1 left ∧ v.bank bank = { spare := true })
    ∧ (∀ ch : Fin 48, s.live = true → s.on (F.AQ_CHAN_RETIRED ch) = false →
        (∃ u : State, exec (.aquiferChannelRetire ch) s = .next (u.unitFailed 5 (0x8000 + ch) 2 0)
          ∧ u.on (F.AQ_CHAN_RETIRED ch) = true ∧ u = { s with regs := u.regs, mems := u.mems })
        ∧ (∀ ecc, ∃ t, exec (.aquiferZqTracking ch true ecc) s = .next t ∧ sget 0 t.mems.linkFails ch = 0
          ∧ t.get (F.AQ_CHAN_LINK_ECC ch) = min (2 ^ (F.AQ_CHAN_LINK_ECC ch).w - 1) (s.get (F.AQ_CHAN_LINK_ECC ch) + ecc)
          ∧ t.on (F.AQ_CHAN_RETIRED ch) = false)
        ∧ (∀ ecc, sget 0 s.mems.linkFails ch < 2 → ∃ t, exec (.aquiferZqTracking ch false ecc) s = .next t
            ∧ sget 0 t.mems.linkFails ch = sget 0 s.mems.linkFails ch + 1 ∧ t.on (F.AQ_CHAN_RETIRED ch) = false)
        ∧ (∀ ecc, 2 ≤ sget 0 s.mems.linkFails ch →
          ∃ u : State, exec (.aquiferZqTracking ch false ecc) s = .next (u.unitFailed 5 (0x8000 + ch) 2 0)
            ∧ u.on (F.AQ_CHAN_RETIRED ch) = true))
    ∧ (∀ value : Word, s.takesWrite (injMode m).reg = true → s.pcieUp = true → ∃ t, exec (.faultInjectArm mem value) s = .next t
        ∧ t.get (injMode m) = value.toNat % 4 ∧ t.get (injPersist m) = value.toNat / 4 % 2 ∧ t = { s with regs := t.regs }))
  ∧ (∀ (s : State) (addr : Fin 268435456), s.takesWrite R.CI_REMAP_CMD = true → s.takesWrite R.AQ_REMAP_CMD = true → s.pcieUp = true →
    let b := globalBank addr
    exec (.ciRemapWord addr) s = .next (((s.put F.CI_REMAP_CMD_ADDR addr).putB F.CI_REMAP_CMD_RETIRE false).remapWord addr)
    ∧ (∃ t, exec (.ciRetireBank addr) s = .next (t.putB F.CI_REMAP_CMD_GO (t.bank b).retireFrom.isSome)
        ∧ t = ((s.put F.CI_REMAP_CMD_ADDR addr).putB F.CI_REMAP_CMD_RETIRE true).retireBank addr)
    ∧ ((s.mems.cis.outcome .cis addr = .clean ∨ s.mems.cis.outcome .cis addr = .poison) → (s.bank b).left ≠ 0 →
      ∃ u : State, exec (.ciRemapWord addr) s = .next (u.raise 0x0403 (memPayload .cis addr ((s.bank b).left - 1)))
        ∧ (u.bank b).left = (s.bank b).left - 1 ∧ bankWord addr ∈ (u.bank b).entries
        ∧ u.get F.CI_REMAPS = (s.get F.CI_REMAPS + 1) % 2 ^ F.CI_REMAPS.w)
    ∧ ((s.bank b).retireFrom = none → s.sparesFree (bayOf addr) ≠ 0 →
      ∃ t, exec (.ciRetireBank addr) s = .next t ∧ (t.bank b).retireFrom = some s.clk.cycle ∧ t.on F.CI_REMAP_CMD_GO = true)
    ∧ (addr.val < MemId.aq.pages → exec (.aqRemapPage addr) s
        = .next ((s.put F.AQ_REMAP_CMD_PAGE addr).remapPage (64 * addr)))
    ∧ (MemId.aq.pages ≤ addr.val → exec (.aqRemapPage addr) s = .next (s.put F.AQ_REMAP_CMD_PAGE addr))
    ∧ (∀ u : State, addr.val < MemId.aq.pages → u.get (F.AQ_CHAN_REMAP_LEFT (channelOf (64 * addr))) ≠ 0 →
        (∀ i < 64, u.mems.aq.outcome .aq (64 * addr + i) = .clean ∨ u.mems.aq.outcome .aq (64 * addr + i) = .poison) →
        ∃ v : State, u.remapPage (64 * addr)
            = v.raise 0x0403 (memPayload .aq (64 * addr) (u.get (F.AQ_CHAN_REMAP_LEFT (channelOf (64 * addr))) - 1))
          ∧ v.get (F.AQ_CHAN_REMAP_LEFT (channelOf (64 * addr))) = u.get (F.AQ_CHAN_REMAP_LEFT (channelOf (64 * addr))) - 1))

/-! ## Links and in-line pairs (chapter 12) -/

/-- Enabling, parking and recalibrating a link: an allowed link takes the state its conditions give it, one that is not allowed goes
down and trips valve 7 (log 19 for what a lost link forgets); a parked link that was not UP is PARKED with no wavelength dark; a
recalibrated one has its masks cleared (R341, R352, R355, R405). A training link whose partner matches is UP at its rate and LINK_UP
says so; an UP link that is to go is no longer UP and LINK_DOWN gives the reason, lock lost where no other is given. Frames to send of
its own and verdict records are then gone (R210, R342, R472). Each of these commands ends in what it names in every state it may act
in. -/
def Obligations.LinksRun : Prop :=
  (∀ (s : State) (n : Fin 40), s.takesWrite (R.LK_CTRL n) = true → s.pcieUp = true →
    let on := (s.putB (F.LK_CTRL_ENABLE n) true).modLink n fun l => { l with been := false }
    (exec (.linkEnable n) s = .next (s.enableLink n) ∧ exec (.linkDisable n) s = .next (s.disableLink n)
      ∧ exec (.park n) s = .next (s.disableLink n) ∧ exec (.recal n) s = .next (s.recalLink n))
    ∧ (s.on (F.LK_CTRL_ENABLE n) = true → s.disableLink n = s.parkLink n ∧ (s.parkLink n).on (F.LK_CTRL_ENABLE n) = false)
    ∧ (s.on (F.LK_CTRL_ENABLE n) = false → on.allowed n = true → exec (.linkEnable n) s = .next (on.evalLink n))
    ∧ (s.on (F.LK_CTRL_ENABLE n) = false → on.allowed n = false → exec (.linkEnable n) s = .next ((on.linkDown n 3).trip 7 n 0))
    ∧ (s.on (F.LK_CTRL_ENABLE n) = true → exec (.linkEnable n) s = .next s)
    ∧ (s.on (F.LK_CTRL_ENABLE n) = false → exec (.linkDisable n) s = .next s ∧ exec (.park n) s = .next s)
    ∧ (s.on (F.LK_CTRL_ENABLE n) = true → s.get (F.LK_STATUS_STATE n) ≠ 4 → ∃ t, exec (.linkDisable n) s = .next t
        ∧ exec (.park n) s = .next t ∧ t.on (F.LK_CTRL_ENABLE n) = false ∧ t.get (F.LK_STATUS_STATE n) = 5
        ∧ t.get (F.LK_LANE_DARK n) = 0 ∧ t = { s with regs := t.regs, links := t.links })
    ∧ (s.get (F.LK_STATUS_STATE n) ≠ 4 → ∃ t, exec (.recal n) s = .next t ∧ (t.link n).recalFrom = some s.clk.cycle
        ∧ t = { s with regs := t.regs, links := t.links })
    ∧ (∀ codes fails, s.live = true → exec (.recalDone n codes fails) s = .next (s.recalDone n codes fails))
    ∧ (∀ codes c0, s.live = true → (s.link n).recalFrom = some c0 → ∃ t, exec (.recalDone n codes []) s = .next t
        ∧ (t.link n).recalFrom = none ∧ t.get (F.LK_LANE_DARK n) = 0 ∧ t.get (F.LK_LANE_CAL_FAIL n) = 0
        ∧ (∀ w : Fin 8, t.get (F.LK_RING_TX_CODE n w) = codes.getD w 0 % 4096 ∧ t.get (F.LK_RING_RX_CODE n w) = codes.getD (8 + w) 0 % 4096)
        ∧ t = { s with regs := t.regs, links := t.links })
    ∧ ((s.link n).recalFrom = none → ∀ codes fails, exec (.recalDone n codes fails) s = .next s))
  ∧ (∀ (s : State) (n : Fin 40), s.live = true →
    (∀ code mask, s.on (F.LK_CTRL_PERS n) = false → s.get (F.LK_STATUS_STATE n) = 1 → s.trainable n = true →
      s.chooseRate n = some (code, mask) →
      ∃ u : State, u.get (F.LK_STATUS_STATE n) = 4 ∧ u.get (F.LK_STATUS_RATE_NOW n) = code ∧ u.get (F.LK_LANE_IN_USE n) = mask
        ∧ (u.link n).been = true
        ∧ exec (.linkUp n) s = .next (let v := u.raise 0x0601 (payload 16 [(0, 1, n), (1, 1, 0), (2, 1, code)])
            if n.val < 24 then v.pairUp (n.val / 2) else v))
    ∧ (s.get (F.LK_STATUS_STATE n) ≠ 1 → exec (.linkUp n) s = .next s)
    ∧ (s.get (F.LK_STATUS_STATE n) = 4 → exec (.linkDown n) s = .next (s.linkDown n ((s.link n).going.getD 2)))
    ∧ (s.get (F.LK_STATUS_STATE n) = 4 → 24 ≤ n.val → ∃ u : State, u.get (F.LK_STATUS_STATE n) ≠ 4 ∧ u.get (F.LK_STATUS_RATE_NOW n) = 7
        ∧ (u.link n).downAt = s.clk.cycle
        ∧ exec (.linkDown n) s = .next (u.raise 0x0602 (payload 16 [(0, 1, n), (1, 1, (s.link n).going.getD 2)])))
    ∧ (s.get (F.LK_STATUS_STATE n) = 4 → n.val < 24 → ∃ t, exec (.linkDown n) s = .next t
        ∧ t.verdictQ n = [] ∧ sget [] t.egress.aside n = [])
    ∧ (s.get (F.LK_STATUS_STATE n) ≠ 4 → exec (.linkDown n) s = .next s))

/-- Light and inlets: LOS sets LOS, sends an UP link down with reason 1 and, with APR_EN, drives its inlet's APR_N with APR_REQUEST;
light back clears it, but not of a link whose pair is in bypass; APR_N is released 10 ms after the last of its APR-enabled links
cleared; an inlet below +19.0 dBm is LOW and its links go down (R347, R348, R360). -/
def Obligations.LightComesAndGoes : Prop :=
  ∀ (s : State) (n : Fin 40) (i : Fin 10) (power : BitVec 16), s.live = true →
    (s.on (F.LK_STATUS_LOS n) = false →
      let dark := ((s.putB (F.LK_STATUS_LOS n) true).put (F.LK_TOTAL_RX n) power.toNat).linkDown n 1
      exec (.lossOfLight n power) s = .next
        (if s.on (F.LK_CTRL_APR_EN n) = true ∧ s.on (F.LK_INLET_APR (n.val / 4)) = false then
          (dark.putB (F.LK_INLET_APR (n.val / 4)) true).raise 0x0606 (payload 16 [(0, 1, n.val / 4), (1, 1, n)])
        else dark))
    ∧ (s.on (F.LK_STATUS_LOS n) = false → s.get (F.LK_STATUS_STATE n) ≠ 4 →
      (s.on (F.LK_CTRL_APR_EN n) = false → ∃ t, exec (.lossOfLight n power) s = .next t ∧ t.on (F.LK_STATUS_LOS n) = true
        ∧ t.get (F.LK_TOTAL_RX n) = power.toNat ∧ t.out = s.out)
      ∧ (s.on (F.LK_CTRL_APR_EN n) = true → s.on (F.LK_INLET_APR (n.val / 4)) = false →
        ∃ u : State, exec (.lossOfLight n power) s = .next (u.raise 0x0606 (payload 16 [(0, 1, n.val / 4), (1, 1, n)]))
          ∧ u.on (F.LK_STATUS_LOS n) = true ∧ u.on (F.LK_INLET_APR (n.val / 4)) = true))
    ∧ (s.on (F.LK_STATUS_LOS n) = true → exec (.lossOfLight n power) s = .next s)
    ∧ (s.on (F.LK_STATUS_LOS n) = true → (24 ≤ n.val ∨ s.joined n = true) → ∃ t, exec (.losClear n power) s = .next t
        ∧ t.on (F.LK_STATUS_LOS n) = false ∧ t.get (F.LK_TOTAL_RX n) = power.toNat
        ∧ sget 0 t.losClear (n.val / 4)
          = if s.on (F.LK_CTRL_APR_EN n) = true then s.clk.cycle else sget 0 s.losClear (n.val / 4))
    ∧ (s.on (F.LK_STATUS_LOS n) = false ∨ (n.val < 24 ∧ s.joined n = false) → exec (.losClear n power) s = .next s)
    ∧ (∀ u, s.on (F.LK_INLET_APR i) = true →
        (∀ k < 4, s.on (F.LK_CTRL_APR_EN (4 * i + k)) = true → s.on (F.LK_STATUS_LOS (4 * i + k)) = false) →
        s.reach (sget 0 s.losClear i + 25000000) = some u → exec (.aprRelease i) s = .next (u.putB (F.LK_INLET_APR i) false))
    ∧ (∀ k < 4, s.on (F.LK_CTRL_APR_EN (4 * i + k)) = true → s.on (F.LK_STATUS_LOS (4 * i + k)) = true → exec (.aprRelease i) s = .next s)
    ∧ (let t := s.setInlet i power.toNat
      t.get (F.LK_INLET_POWER i) = power.toNat ∧ (t.on (F.LK_INLET_LOW i) = true ↔ power.toInt < 1900)
        ∧ t = { s with regs := t.regs }
        ∧ (power.toInt < 1900 → exec (.inletLow i power) s = .next ((List.range 4).foldl (fun u k => State.linkDown u (4 * i + k) 2) t))
        ∧ (1900 ≤ power.toInt → exec (.inletPowerRestored i power) s
            = .next ((List.range 4).foldl (fun u k => State.evalLink u (4 * i + k)) t)))

/-- Wavelengths and rings: a wavelength in use of an UP Ethernet link that loses its signal is dark, the link goes down with reason 2
and settles; after 2 ms without change LANE_LOST gives the rate it goes on at. A ring that hops keeps its link and is counted; a ring
that cannot fails its lane. A codeword failure before the link has been UP is none (R351, R352, R355, R356). The output clamp: a trip
of a link that transmits sets CLAMPED, raises OPTICAL_CLAMP and trips valve 0, and the link goes down; CLAMP_CLR clears CLAMPED and
starts the relighting, one feed ring each 1 ms; a link that does not transmit is untouched. The lanes of a training Luapo link lock one
by one, each when 3 of its codewords decode with headers that agree; with all of them deskewed it is in INIT and says so to its
partner (R353, R354, R366, R375). -/
def Obligations.LanesFailAndLock : Prop :=
  (∀ (s : State) (n : Fin 40) (w : Fin 8), s.live = true →
    (∀ fault, exec (.laneFail n w fault) s = .next (s.laneFail n w fault))
    ∧ (s.on (F.LK_CTRL_PERS n) = false → bit (s.link n).use w = true → s.on (F.LK_STATUS_LOS n) = false → bit (s.dark n) w = false →
      ∃ u : State, exec (.laneFail n w .signal) s = .next (u.linkDown n 2) ∧ bit (u.dark n) w = true
        ∧ (u.link n).settleFrom = some s.clk.cycle ∧ (u.link n).last = w ∧ u = { s with regs := u.regs, links := u.links })
    ∧ (bit (s.link n).use w = false → exec (.laneFail n w .signal) s = .next s)
    ∧ ((s.link n).been = false → exec (.laneFail n w .codeword) s = .next s)
    ∧ (∀ rx, bit (s.dark n) w = true → exec (.laneFail n w (.ring rx)) s = .next (s.ringFails n w rx))
    ∧ (∀ rx, bit (s.dark n) w = false → exec (.laneFail n w (.ring rx)) s = .next ((s.ringFails n w rx).darken n w))
    ∧ (∀ c0 v code mask, (s.link n).settleFrom = some c0 → s.reach (c0 + 5000000) = some v → v.chooseRate n = some (code, mask) →
        ∃ u : State, exec (.laneSettleExpiry n) s = .next ((u.laneLost n (s.link n).last code).evalLink n)
          ∧ (u.link n).settleFrom = none ∧ u = { v with links := u.links })
    ∧ (∀ c0 v, (s.link n).settleFrom = some c0 → s.reach (c0 + 5000000) = some v → v.chooseRate n = none →
        ∃ u : State, exec (.laneSettleExpiry n) s = .next (u.evalLink n)
          ∧ (u.link n).settleFrom = none ∧ (u.link n).dead = true ∧ u = { v with links := u.links })
    ∧ (∀ rx (c : Fin 4096), ∃ t, exec (.ringHop n w rx (some c)) s = .next t ∧ t.get (ringCode n w rx) = c
        ∧ t.get (ringHops n w rx) = min 15 (s.get (ringHops n w rx) + 1) ∧ t = { s with regs := t.regs })
    ∧ (∀ rx, exec (.ringHop n w rx none) s = .next ((s.bumpSat (ringHops n w rx)).laneFail n w (.ring rx))))
  ∧ (∀ (s : State) (n : Fin 40) (power : BitVec 16) (w : Fin 8), s.live = true →
    (s.restState n ≠ 5 → ∃ u : State, u.on (F.LK_STATUS_CLAMPED n) = true ∧ exec (.opticalClampTrip n power) s
        = .next (((u.raise 0x0605 (payload 16 [(0, 1, n), (4, 4, uInt 32 (sInt 16 power.toNat))])).trip 0 n 0).linkDown n 2))
    ∧ (s.restState n = 5 → exec (.opticalClampTrip n power) s = .next s)
    ∧ (s.pcieUp = true → s.on (F.LK_STATUS_CLAMPED n) = true → ∃ t, exec (.clampClr n) s = .next t
        ∧ t.on (F.LK_STATUS_CLAMPED n) = false ∧ (t.link n).relight = some (1, s.clk.cycle)
        ∧ t = { s with regs := t.regs, links := t.links })
    ∧ (s.pcieUp = true → s.on (F.LK_STATUS_CLAMPED n) = false → exec (.clampClr n) s = .next s)
    ∧ (∀ k c0 v, (s.link n).relight = some (k, c0) → s.reach (c0 + 2500000) = some v → ∃ u : State,
        exec (.clampRelightStep n) s = .next (u.evalLink n) ∧ u = { v with links := u.links }
          ∧ (u.link n).relight = if k < 7 then some (k + 1, v.clk.cycle) else none)
    ∧ (∀ levels, let t := s.laneLock n w levels
        exec (.laneLock n w levels) s = .next (if t.get (F.LK_STATUS_STATE n) = 3 ∧ s.get (F.LK_STATUS_STATE n) ≠ 3
          then (t.clearLuapo n).sendInit n else t))
    ∧ (∀ levels, s.on (F.LK_CTRL_PERS n) = true → (s.get (F.LK_STATUS_STATE n) = 1 ∨ s.get (F.LK_STATUS_STATE n) = 2) →
        bit (s.link n).use w = true → s.trainable n = true →
        let ds := ((wordsIn (s.on (F.LK_CTRL_PRECODE n)) 3 (sget {} (s.link n).lanesIn w).level levels).1.map laneDecode).filterMap
          fun d => d.map (·.1)
        let t := s.laneLock n w levels
        (ds.length = 3 → headersAgree w ((s.link n).use != 255) ds = true →
          (t.link n).locked = (s.link n).locked ||| 2 ^ w.val
          ∧ ((t.link n).locked = (s.link n).use →
              t.get (F.LK_STATUS_STATE n) = if (t.link n).deskewed s.clk.cycle = true then 3 else 2))
        ∧ (ds.length ≠ 3 ∨ headersAgree w ((s.link n).use != 255) ds = false → t = { s with regs := t.regs })))

/-- An in-line pair (R361, R362, R364, R471): ENGAGE of a pair fit for it starts the move to in-line or to direct attachment, else it
sets REFUSED; the end of a move to in-line leaves it TRAINING, of a move to direct DIRECT with BYPASS_CHANGE, of a move to bypass
BYPASS with BYPASS_CHANGE and its cause; RELEASE, TIMEOUT and AUTO_REVERT leave with cause 0 (the reason of their LINK_DOWN: log 19); a
move not confirmed in 200 µs is repeated once. A move's end and its missing confirmation come in every phase but internal reset. -/
def Obligations.PairsMove : Prop :=
  (∀ (s : State) (p : Fin 12), s.frozen = false → s.phase ≠ .reset →
    exec (.bypassMoveDone p) s = .next (s.moveDone p) ∧ exec (.bypassSenseTimeout p) s = .next (s.senseTimeout p))
  ∧ (∀ (s : State) (p : Fin 12), s.live = true →
    (s.takesWrite (R.LK_PAIR_CTRL p) = true → s.pcieUp = true →
      (∀ st, s.engageTarget p = some st → (st = 1 ∨ st = 6) ∧ ∃ t, exec (.engage p) s = .next t ∧ t.get (F.LK_PAIR_STATUS_STATE p) = st
        ∧ (t.pair p).moveFrom = s.clk.cycle ∧ t = { s with regs := t.regs, pairs := t.pairs })
      ∧ (s.engageTarget p = none → exec (.engage p) s = .next (s.putB (F.LK_PAIR_STATUS_REFUSED p) true))
      ∧ (s.get (F.LK_PAIR_STATUS_STATE p) = 1 → (s.link (2 * p)).going = none → (s.link (2 * p + 1)).going = none →
        (s.pair p).reverse = none → ∃ t, exec (.release p) s = .next t ∧ (t.pair p).reverse = some (0, 3) ∧ t = { s with pairs := t.pairs })
      ∧ ((s.get (F.LK_PAIR_STATUS_STATE p) = 1 ∨ s.get (F.LK_PAIR_STATUS_STATE p) = 6) → exec (.release p) s
          = .next ((s.modPair p fun x => { x with reverse := some (x.reverse.getD (0, 3)) }).settlePair p))
      ∧ ((s.get (F.LK_PAIR_STATUS_STATE p) = 2 ∨ s.get (F.LK_PAIR_STATUS_STATE p) = 3 ∨ s.get (F.LK_PAIR_STATUS_STATE p) = 5) →
          exec (.release p) s = .next ((s.toBypass p 0 3).settlePair p))
      ∧ ((s.get (F.LK_PAIR_STATUS_STATE p) = 0 ∨ s.get (F.LK_PAIR_STATUS_STATE p) = 4) → exec (.release p) s = .next (s.settlePair p)))
    ∧ (∀ cause reason, (s.get (F.LK_PAIR_STATUS_STATE p) = 1 ∨ s.get (F.LK_PAIR_STATUS_STATE p) = 6) →
        (s.pair p).reverse = some (cause, reason) →
        exec (.bypassMoveDone p) s = .next (((s.putB (F.LK_PAIR_STATUS_SENSE p) true).toBypass p cause reason).settlePair p))
    ∧ (s.get (F.LK_PAIR_STATUS_STATE p) = 1 → (s.pair p).reverse = none → ∃ u : State, exec (.bypassMoveDone p) s
        = .next ((u.evalLink (2 * p)).evalLink (2 * p + 1)) ∧ u.get (F.LK_PAIR_STATUS_STATE p) = 2
        ∧ u.on (F.LK_PAIR_STATUS_SENSE p) = true ∧ (u.pair p).trainFrom = s.clk.cycle ∧ u = { s with regs := u.regs, pairs := u.pairs })
    ∧ (s.get (F.LK_PAIR_STATUS_STATE p) = 6 → (s.pair p).reverse = none → ∃ u : State, exec (.bypassMoveDone p) s
        = .next (((u.bypassChange p 2 0).evalLink (2 * p)).evalLink (2 * p + 1)) ∧ u.get (F.LK_PAIR_STATUS_STATE p) = 5
        ∧ u.on (F.LK_PAIR_STATUS_SENSE p) = true)
    ∧ (s.get (F.LK_PAIR_STATUS_STATE p) = 4 → ∃ u : State, exec (.bypassMoveDone p) s
        = .next (u.bypassChange p 0 (s.get (F.LK_PAIR_STATUS_CAUSE p))) ∧ u.get (F.LK_PAIR_STATUS_STATE p) = 0
        ∧ u.on (F.LK_PAIR_STATUS_SENSE p) = false)
    ∧ (∀ u, s.get (F.LK_PAIR_STATUS_STATE p) = 2 →
        s.reach ((s.pair p).trainFrom + 2500000 * s.get (F.LK_PAIR_CTRL_TIMEOUT p)) = some u →
        exec (.pairTrainingTimeout p) s = .next ((u.leavePair p 0 1).settlePair p))
    ∧ (s.get (F.LK_PAIR_STATUS_STATE p) = 2 → s.leavePair p 0 1 = s.toBypass p 0 1)
    ∧ (∀ (a b : Nat) u, s.get (F.LK_PAIR_STATUS_STATE p) = 3 → s.on (F.LK_PAIR_CTRL_AUTO_REVERT p) = true →
        ((a = 2 * p.val ∧ b = a + 1) ∨ (b = 2 * p.val ∧ a = b + 1)) → s.linkUp a = false → s.linkUp b = true →
        s.reach ((s.link a).downAt + 2500000) = some u → exec (.autoRevert p) s = .next ((u.leavePair p 0 1).settlePair p))
    ∧ (s.get (F.LK_PAIR_STATUS_STATE p) = 3 → s.leavePair p 0 1 = s.toBypass p 0 1)
    ∧ ((s.get (F.LK_PAIR_STATUS_STATE p) = 1 ∨ s.get (F.LK_PAIR_STATUS_STATE p) = 4 ∨ s.get (F.LK_PAIR_STATUS_STATE p) = 6) →
        s.on (F.LK_PAIR_STATUS_STUCK p) = false → (s.pair p).moveFrom + 500000 ≤ s.clk.cycle → (s.pair p).repeated = false →
        ∃ t, exec (.bypassSenseTimeout p) s = .next t ∧ (t.pair p).repeated = true ∧ (t.pair p).moveFrom = s.clk.cycle
          ∧ t = { s with pairs := t.pairs })
    ∧ (s.get (F.LK_PAIR_STATUS_STATE p) = 4 → s.on (F.LK_PAIR_STATUS_STUCK p) = false → (s.pair p).moveFrom + 500000 ≤ s.clk.cycle →
        (s.pair p).repeated = true → let u := (s.putB (F.LK_PAIR_STATUS_STUCK p) true).trip 1 (2 * p) 0
        exec (.bypassSenseTimeout p) s = .next (match (u.pair p).reverse with
          | none => u
          | some (cause, reason) => u.toBypass p cause reason)))

/-! ## The Luapo fabric (chapter 12) -/

/-- Flits (R365-R367, R371, R375): one that fails its CRC or has a reserved TYPE is counted and, on an UP link, answered with a NAK; a
good one on an UP link brings its ACK and credit and takes effect by its TYPE; a DATA flit out of order is answered with a NAK. The
rows NAK, STROKE_MARKER_RECEIVE, INIT and DELAY_RESP are such an arrival of their own TYPE; codewords bring the flits their lanes
decode to. A first flit after the partner's INIT brings the link up. Times finer than a tick are free values (logs 10 and 20).
Messages, retry and delays (R369, R371, R376): the oldest complete message of a link is written, then its signal takes effect, or it
is discarded and counted; its buffers are freed. A replay buffer with no ACK for 2,000 ns goes out again, counted. An UP link sends
its DELAY_REQ each 1 ms. -/
def Obligations.LuapoCarriesMessages : Prop :=
  (∀ (s : State) (n : Fin 40) (f : List Byte), s.live = true →
    let body := (f.drop 8).take 240
    let h := fieldAt f 0 8
    let in_ := fun (u : State) => u.modLua n fun l => l.header h s.clk.cycle
    (exec (.flitReceive n (.flit f)) s = .next (s.rxFlit n f)
      ∧ (flitIs 2 f = true → exec (.nak n f) s = .next (s.rxFlit n f))
      ∧ (flitIs 3 f = true → exec (.strokeMarkerReceive n f) s = .next (s.rxFlit n f))
      ∧ (flitIs 4 f = true → exec (.init n f) s = .next (s.rxFlit n f))
      ∧ (flitIs 6 f = true → exec (.delayResp n f) s = .next (s.rxFlit n f)))
    ∧ (∀ levels, exec (.flitReceive n (.words levels)) s = .next (s.rxWords n levels))
    ∧ (∀ levels, s.flitLink n = true →
        let ws := lanesOf (s.link n).use
        let k := wordPeriod ws.length
        levels.length = ws.length →
        let lanes := ws.zipIdx.map fun (w, i) =>
          (w, (sget ({} : LaneIn) (s.link n).lanesIn w).take (s.on (F.LK_CTRL_PRECODE n)) k (levels.getD i 0))
        let u := (s.countWords n ((lanes.map fun x => x.2.2.1).flatten)).modLink n fun l => { l with
          lanesIn := lanes.foldl (fun m x => sset {} m x.1 x.2.2.2) l.lanesIn }
        s.rxWords n levels = (flitsOf (lanes.map fun x => x.2.1)).foldl (fun t x => State.rxFlit t n x) u)
    ∧ (s.flitLink n = false → s.rxFlit n f = s)
    ∧ (s.flitLink n = true → flitOk f = false → s.rxFlit n f
        = (if s.linkUp n = true then (s.bump (F.LK_LUAPO_CRC n)).nakNow n else s.bump (F.LK_LUAPO_CRC n)))
    ∧ (s.flitLink n = true → s.linkUp n = true → flitOk f = true → fhType h ≠ 4 → s.rxFlit n f = ((in_ s).takeFlit n f).pump n)
    ∧ (s.flitLink n = true → s.get (F.LK_STATUS_STATE n) = 3 → (s.lua n).init = true → flitOk f = true → fhType h ≠ 4 →
        (s.linkComesUp n).linkUp n = true → s.rxFlit n f = ((in_ (s.linkComesUp n)).takeFlit n f).pump n)
    ∧ (∀ u : State, (fhType h = 1 → fhSeq h ≠ (u.lua n).rxSeq → u.takeFlit n f = u.nakNow n)
        ∧ (fhType h = 1 → fhSeq h = (u.lua n).rxSeq → u.takeFlit n f
            = (u.modLua n fun l => { l with rxSeq := (l.rxSeq + 1) % 4096, nakAt := none }).takeData n
                ⟨fhVc h, fhPoison h, bit h 55, bit h 56, body⟩)
        ∧ (fhType h = 2 → (u.lua n).replayAt ≠ some u.clk.cycle → u.takeFlit n f = u.resend n (fieldAt body 0 2 % 4096))
        ∧ (fhType h = 3 → u.get F.STK_CTRL_ROLE ≠ 2 → u.takeFlit n f = u)
        ∧ (fhType h = 6 → ∃ (d : Int) (v : State), u.takeFlit n f = v.addDelay n d ∧ v = { u with fresh := v.fresh }))
    ∧ (∀ (u : State) (d : Int), let ds := (d :: (u.lua n).delays).take 16
        (u.addDelay n d).get (F.LK_DELAY n) = uInt 32 (ds.sum / ds.length) ∧ ((u.addDelay n d).lua n).delays = ds)
    ∧ (flitIs 4 f = true → s.flitLink n = true → s.get (F.LK_STATUS_STATE n) = 3 → byteAt body 2 = 1 →
        ∃ t, exec (.init n f) s = .next t ∧ t.get (F.LK_PEER_DEVID n) = fieldAt body 0 2 ∧ t.on (F.LK_PEER_VALID n) = true
          ∧ (t.lua n).init = true ∧ (∀ v < 4, sget 0 (t.lua n).credit v = fieldAt body (4 + 2 * v) 2)
          ∧ t.get (F.LK_STATUS_STATE n) = 3))
  ∧ (∀ (s : State) (n : Fin 40), s.live = true →
    (∀ v parts rest, (s.lua n).inbox = (v, parts) :: rest → ∃ u : State, exec (.messageWrite n) s = .next (u.writeMessage n parts)
      ∧ (u.lua n).inbox = rest ∧ sget 0 (u.lua n).freed v = sget 0 (s.lua n).freed v + parts.length
      ∧ u = { s with luapo := u.luapo })
    ∧ ((s.lua n).inbox = [] → exec (.messageWrite n) s = .next s)
    ∧ (∀ (u : State) (f : Flit) (fs : List Flit),
        let ws := messageWords (f :: fs)
        let sp := byteAt f.payload 6
        let addr := fieldAt f.payload 8 8
        let len := fieldAt f.payload 16 2
        let w := u.wrMarked (spaceMem sp) addr (ws.take (len / 16))
        byteAt f.payload 5 = 1 → (sp = 1 ∨ sp = 2) → addr % 16 = 0 → len % 16 = 0 → 16 ≤ len → len ≤ 4096 → addr + len ≤ spaceEnd sp →
        len / 16 ≤ ws.length →
        (bit (byteAt f.payload 7) 0 = false → u.writeMessage n (f :: fs) = w)
        ∧ (bit (byteAt f.payload 7) 0 = true →
          u.writeMessage n (f :: fs) = w.addFloat (fieldAt f.payload 20 4 % 2 ^ 17) (fieldAt f.payload 18 2)))
    ∧ (∀ (u : State) (f : Flit) (fs : List Flit), spaceEnd (byteAt f.payload 6) < fieldAt f.payload 8 8 + fieldAt f.payload 16 2 →
        u.writeMessage n (f :: fs) = u.bump (F.LK_LUAPO_BADADDR n))
    ∧ (∀ e es u, (s.lua n).replay = e :: es → s.luaUp n = true → s.reach ((s.lua n).ackAt + 5000) = some u →
        exec (.replayTimeout n) s = .next (u.resend n e.1))
    ∧ (∀ e es, (s.lua n).replay = e :: es →
        (s.resend n e.1).get (F.LK_LUAPO_REPLAY n) = (s.get (F.LK_LUAPO_REPLAY n) + 1) % 2 ^ (F.LK_LUAPO_REPLAY n).w
        ∧ ((s.resend n e.1).lua n).replay = (s.lua n).replay ∧ ((s.resend n e.1).lua n).ackAt = s.clk.cycle)
    ∧ ((s.lua n).replay = [] → exec (.replayTimeout n) s = .next s)
    ∧ (∀ u, s.luaUp n = true → s.reach ((s.lua n).reqAt + 2500000) = some u → exec (.delayReq n) s
        = .next ((u.fineTime.2.modLua n fun l => { l with reqAt := u.clk.cycle }).sendControl n 5 (natBytes 8 u.fineTime.1)))
    ∧ (∀ type body, ∃ flit before, (s.sendControl n type body).out = .flit n flit :: before)
    ∧ (s.luaUp n = false → exec (.delayReq n) s = .next s))

/-! ## Control cores, firmware, life cycle, attestation, locks (chapter 13) -/

/-- A replacement (R387-R392): GO stages the module from the Cistern and is BUSY, and is discarded while BUSY; a module that fails its
check is refused with the code of the check and FW_HANDOVER result 1; an accepted one waits for its stroke, or with no strokes begins;
its core then runs it and it goes to the store, result 0 (which step does which part: log 25); past its limits it ends with result 2;
the store write ends it. -/
def Obligations.FirmwareIsReplaced : Prop :=
  ∀ (s : State), s.live = true →
    let j := s.sec.fw
    let c := modRole j.mod
    (∀ cold body, (s.pcieUp = true → exec (.fwReplace cold) s = .next (s.stageModule cold) ∧ exec .fwRecoveryLoad s = .next s.recoveryLoad)
      ∧ exec .fwCheckDone s = .next s.checkDone ∧ exec (.fwHandover body) s = .next (s.handover body)
      ∧ exec .fwStart s = .next s.fwStarted ∧ exec .fwQuiesceTimeout s = .next s.quiesceTimeout
      ∧ exec .fwStartTimeout s = .next s.startTimeout ∧ exec .fwStoreWriteDone s = .next s.storeDone)
    ∧ (∀ cold, s.pcieUp = true → s.on F.SEC_FW_STATUS_BUSY = true → exec (.fwReplace cold) s = .next s ∧ exec .fwRecoveryLoad s = .next s)
    ∧ (∀ cold, s.pcieUp = true → s.on F.SEC_FW_STATUS_BUSY = false → s.get64 R.SEC_FW_ADDR_LO % 16 = 0 →
        s.get64 R.SEC_FW_ADDR_LO + s.get F.SEC_FW_LEN ≤ 2 ^ 32 → s.get F.SEC_FW_LEN ≤ 1048576 →
        ∃ u : State, u.on F.SEC_FW_STATUS_BUSY = true ∧ u.get F.SEC_FW_STATUS_RESULT = 0 ∧ u = { s with regs := u.regs }
          ∧ (let r := u.rdRange .cis (s.get64 R.SEC_FW_ADDR_LO) (s.get F.SEC_FW_LEN)
            exec (.fwReplace cold) s = .next (r.1.modFw fun _ =>
              { stage := .staged, mod := r.2.1, poisoned := r.2.2.contains true, cold := cold, since := s.clk.cycle })))
    ∧ (j.stage = .staged → j.poisoned = true → exec .fwCheckDone s = .next (s.refuseModule Status.poison))
    ∧ (j.stage = .staged → j.poisoned = false → s.moduleCheck j.mod ≠ 0 →
        exec .fwCheckDone s = .next (s.refuseModule (checkCode (s.moduleCheck j.mod))))
    ∧ (∀ code, ∃ u : State, s.refuseModule code = u.fwEvent c 1 (modVersion j.mod) ∧ u.on F.SEC_FW_STATUS_BUSY = false
        ∧ u.get F.SEC_FW_STATUS_RESULT = 3 ∧ u.get F.SEC_FW_STATUS_CODE = code % 256 ∧ u.sec.fw = {} ∧ u.sec.cores = s.sec.cores)
    ∧ (j.stage = .staged → j.poisoned = false → s.moduleCheck j.mod = 0 → c ≠ 8 → s.compatible j.mod = true →
        ∃ t, exec .fwCheckDone s = .next t ∧ t.get F.SEC_FW_STATUS_RESULT = 1
          ∧ t.sec.fw.stage = (if s.on F.STK_CTRL_ENABLE then .pending else .begun))
    ∧ (j.stage = .staged → j.poisoned = false → s.moduleCheck j.mod = 0 → c = 8 →
        ∃ t, exec .fwCheckDone s = .next t ∧ t.get F.SEC_FW_STATUS_RESULT = 2 ∧ t.sec.fw.stage = .storing
          ∧ t.on F.SEC_FW_STATUS_STORING = true)
    ∧ (∀ body, j.stage = .begun → s.clk.cycle ≤ j.since + 125000 → ∃ t, exec (.fwHandover body) s = .next t
        ∧ t.sec.fw.stage = .loaded ∧ (t.core c).mod = modBody j.mod ∧ t.regs = s.regs
        ∧ (t.core c).block = if j.cold || j.wasDown then s.coldBlock j.mod
            else stateBlock (modState (s.core c).mod) c 0 (modVersion (s.core c).mod) s.strokeOr0 body)
    ∧ (j.stage = .loaded → s.clk.cycle ≤ j.since + 475000 → c < 8 → ∃ u : State, exec .fwStart s = .next (u.fwEvent c 0 (modVersion j.mod))
        ∧ u.sec.fw.stage = .storing ∧ u.coreState c = 1 ∧ u.get F.SEC_FW_STATUS_RESULT = 2
        ∧ u.get (F.SEC_MODVER_MODULE_VERSION c) = modVersion j.mod ∧ (u.core c).mod = modBody j.mod)
    ∧ (j.stage = .begun → j.wasDown = false → c < 8 → j.since + 125000 ≤ s.clk.cycle → ∃ u : State,
        exec .fwQuiesceTimeout s = .next (u.fwEvent c 2 (modVersion j.mod)) ∧ u.coreState c = 1 ∧ u.sec.fw = {}
          ∧ u.on F.SEC_FW_STATUS_BUSY = false ∧ u.get F.SEC_FW_STATUS_RESULT = 4 ∧ u.nv = s.nv)
    ∧ (j.stage = .loaded → j.since + 475000 ≤ s.clk.cycle → c < 8 → ∃ u : State,
        exec .fwStartTimeout s = .next ((u.fwEvent c 2 (modVersion j.mod)).watchdogEvent c 1) ∧ u.coreState c = 1 ∧ u.sec.fw = {}
          ∧ (u.core c).mod = modBody (sget [] s.nv.slots c) ∧ u.nv = s.nv)
    ∧ (j.stage = .storing → ∃ t, exec .fwStoreWriteDone s = .next t ∧ sget [] t.nv.slots c = j.mod
        ∧ (∀ k, k ≠ c → sget [] t.nv.slots k = sget [] s.nv.slots k) ∧ t.on F.SEC_FW_STATUS_BUSY = false
        ∧ t.on F.SEC_FW_STATUS_STORING = false ∧ t.sec.fw = {})

/-- Recovery, watchdogs and restarts (R386, R393, R394): the mailbox gathers words; a module that fails its check is refused and its
slot kept, one that passes goes to its slot, and with no bad slot left start-up goes on. A core's watchdog stops it for its cold
restart, and at a second expiry within 1,000 ms it fails. -/
def Obligations.CoresRecover : Prop :=
  ∀ (s : State) (core : Fin 8) (v : Word),
    (s.takesWrite R.SEC_REC_CTRL = true → s.pcieUp = true →
      exec .recStart s = .next { s with sec := { s.sec with recovery := [] } })
    ∧ (s.takesWrite R.SEC_REC_DATA = true → s.pcieUp = true → s.sec.recovery.length < 1048576 →
      exec (.recData v) s = .next { s with sec := { s.sec with recovery := s.sec.recovery ++ natBytes 4 v.toNat } })
    ∧ (s.phase = .recovery → s.takesWrite R.SEC_FW_CTRL = true → s.pcieUp = true → s.on F.SEC_FW_STATUS_BUSY = false →
      (s.moduleCheck s.sec.recovery ≠ 0 → ∃ t, exec .fwRecoveryLoad s = .next t ∧ t.get F.SEC_FW_STATUS_RESULT = 3
        ∧ t.get F.SEC_FW_STATUS_CODE = checkCode (s.moduleCheck s.sec.recovery) ∧ t = { s with regs := t.regs })
      ∧ (s.moduleCheck s.sec.recovery = 0 → ∃ t, exec .fwRecoveryLoad s = .next t
        ∧ t.get F.SEC_FW_STATUS_RESULT = 2 ∧ sget [] t.nv.slots (modRole s.sec.recovery) = s.sec.recovery
        ∧ (t.badSlot = none → t.phase = .startup ∧ t.on F.GLB_STATUS_FAULT_HOLD = false)
        ∧ (∀ role why, t.badSlot = some (role, why) → t.phase = .recovery ∧ t.get F.SEC_BOOT_STATUS_ROLE = role % 16
            ∧ t.get F.SEC_BOOT_STATUS_REASON = why % 16)))
    ∧ (s.live = true → exec (.watchdog core) s = .next (s.watchdog core))
    ∧ (s.live = true → ∀ u, (s.coreState core = 1 ∨ s.coreState core = 3) →
        s.reach ((s.core core).startedAt + 2500 * s.get (F.RV_WDT core)) = some u → ∃ v : State,
        let again := match (u.core core).expired with
          | some t0 => decide (u.clk.cycle ≤ t0 + 2500000000)
          | none => false
        exec (.watchdog core) s = .next (if again = true
            then (v.watchdogEvent core (if core.val ≤ 1 then 2 else 1)).unitFailed 6 core 2 0
            else v.watchdogEvent core (if core.val ≤ 1 then 2 else 1))
          ∧ v.coreState core = (if again = true then 4 else 3) ∧ (v.core core).expired = some u.clk.cycle
          ∧ (2 ≤ core.val → v = { u with regs := v.regs, sec := v.sec }))
    ∧ (s.live = true → 2 ≤ core.val → (s.coreState core = 1 ∨ s.coreState core = 3) →
        (s.core core).startedAt + 2500 * s.get (F.RV_WDT core) ≤ s.clk.cycle →
        ((∀ t0, (s.core core).expired = some t0 → t0 + 2500000000 < s.clk.cycle) → ∃ u : State,
          exec (.watchdog core) s = .next (u.watchdogEvent core 1) ∧ u.coreState core = 3 ∧ (u.core core).expired = some s.clk.cycle)
        ∧ (∀ t0, (s.core core).expired = some t0 → s.clk.cycle ≤ t0 + 2500000000 → ∃ u : State,
          exec (.watchdog core) s = .next ((u.watchdogEvent core 1).unitFailed 6 core 2 0) ∧ u.coreState core = 4))
    ∧ (s.live = true → s.coreState core ≠ 3 → exec (.coreRestarted core) s = .next s)
    ∧ (s.live = true → s.coreState core = 3 → ∃ t, exec (.coreRestarted core) s = .next t ∧ t.coreState core = 1
        ∧ (t.core core).mod = modBody (sget [] s.nv.slots core) ∧ (t.core core).startedAt = s.clk.cycle)

/-- The life cycle and the owner's key (R395-R400): GO with a token that is refused gives its reason and burns nothing; an accepted one
starts the burn, which a transition of R396 alone can; the fuses then hold the new state and LIFECYCLE_CHANGE says so, while the state
in force stays until reset; RETIRED erases the seed; a failed health test burns nothing. Every GO uses up a consent. A key is enrolled
once. -/
def Obligations.LifecycleMoves : Prop :=
  ∀ (s : State) (target : Fin 8) (v : Word), s.live = true →
    (s.pcieUp = true → exec (.lcGo target) s = .next (s.lcGo target) ∧ exec (.ownerEnrol v) s = .next (s.enrol v.toNat))
    ∧ (∀ h, exec (.lifecycleChange h) s = .next (s.lifecycleChange h))
    ∧ (s.pcieUp = true → exec (.lcConsent 0xC05E0880#32) s = .next { s with sec := { s.sec with consent := true } }
      ∧ (v ≠ 0xC05E0880#32 → exec (.lcConsent v) s = .next s))
    ∧ (s.pcieUp = true → (s.on F.SEC_LC_STATUS_BUSY = true ∨ s.on F.SEC_FW_STATUS_BUSY = true) → ∃ t, exec (.lcGo target) s = .next t
        ∧ t.get F.SEC_LC_STATUS_RESULT = 2 ∧ t.get F.SEC_LC_STATUS_REASON = 4 ∧ t.sec.burning = s.sec.burning ∧ t.sec.consent = false
        ∧ t.nv = s.nv)
    ∧ (s.pcieUp = true → s.on F.SEC_LC_STATUS_BUSY = false → s.on F.SEC_FW_STATUS_BUSY = false →
        s.get64 R.SEC_LC_ADDR_LO % 16 = 0 → s.get64 R.SEC_LC_ADDR_LO + s.get F.SEC_LC_LEN ≤ 2 ^ 32 → s.get F.SEC_LC_LEN ≤ 64 + 2 * sigLen →
        let r := (s.put F.SEC_LC_CTRL_TARGET target).rdRange .cis (s.get64 R.SEC_LC_ADDR_LO) (s.get F.SEC_LC_LEN)
        let why := r.1.tokenReason target r.2.1 (r.2.2.contains true)
        (transition s.nv.lifecycle target = none → why = 1)
        ∧ ∃ t, exec (.lcGo target) s = .next t ∧ t.sec.consent = false ∧ t.nv = s.nv
          ∧ (why ≠ 0 → t.get F.SEC_LC_STATUS_RESULT = 2 ∧ t.get F.SEC_LC_STATUS_REASON = why % 16 ∧ t.sec.burning = r.1.sec.burning)
          ∧ (why = 0 → t.on F.SEC_LC_STATUS_BUSY = true ∧ t.get F.SEC_LC_STATUS_RESULT = 0 ∧ t.sec.burning = some target.val))
    ∧ (∀ h, s.sec.burning = some target.val → (s.nv.lifecycle = 0 ∧ target.val = 1 → h = true) →
        ∃ u : State, exec (.lifecycleChange h) s
            = .next (u.raise 0x0804 (payload 16 [(0, 1, s.nv.lifecycle), (1, 1, target)]))
          ∧ u.nv.lifecycle = target ∧ (target.val = 4 → u.nv.seed = none) ∧ (s.nv.lifecycle ≠ 0 → target.val ≠ 4 → u.nv.seed = s.nv.seed)
          ∧ u.sec.burning = none ∧ u.get F.SEC_LC_STATUS_RESULT = 1
          ∧ u.get F.GLB_STATUS_LIFECYCLE = s.get F.GLB_STATUS_LIFECYCLE)
    ∧ (s.sec.burning = some 1 → s.nv.lifecycle = 0 → ∃ t, exec (.lifecycleChange false) s = .next t ∧ t.nv = s.nv
        ∧ t.sec.burning = none ∧ t.get F.SEC_LC_STATUS_RESULT = 2 ∧ t.get F.SEC_LC_STATUS_REASON = 6)
    ∧ (s.pcieUp = true → (s.get F.GLB_STATUS_LIFECYCLE = 1 ∨ s.get F.GLB_STATUS_LIFECYCLE = 2) →
        s.on F.SEC_OWNER_STATUS_ENROLLED = false → s.sec.enrolling = none → s.on F.SEC_FW_STATUS_BUSY = false →
        exec (.ownerEnrol 0x0E200880#32) s = .next
          { s with sec := { s.sec with enrolling := some (shake256 64 (s.regBytes (R.SEC_OWNER_PUB 0) 16)) } })
    ∧ (s.pcieUp = true → (v ≠ 0x0E200880#32 ∨ s.on F.SEC_OWNER_STATUS_ENROLLED = true) →
        exec (.ownerEnrol v) s = .next (s.putB F.SEC_OWNER_STATUS_REFUSED true))
    ∧ (∀ d, s.sec.enrolling = some d → ∃ t, exec .ownerKeyBurnt s = .next t ∧ t.nv.owner = some d
        ∧ t.on F.SEC_OWNER_STATUS_ENROLLED = true ∧ t.sec.enrolling = none)

/-- Attestation and locks (R401, R405, R406): GO in a state that attests, with a good address, is BUSY and with no strokes takes its
snapshot at once, and else is refused with ERR; the report and its signature are written and DONE set; RV_LOCK sets for good until
reset; a write of RV_LINK_ALLOW's high half takes effect with the low half written before it, and is discarded once locked. -/
def Obligations.AttestationAndLocks : Prop :=
  ∀ (s : State) (v w : Word), s.live = true → s.pcieUp = true →
    (exec .attestationGo s = .next s.attGo ∧ exec .attestationDone s = .next s.attDone)
    ∧ (s.on F.SEC_ATT_STATUS_BUSY = true → exec .attestationGo s = .next s)
    ∧ (s.on F.SEC_ATT_STATUS_BUSY = false → (s.get F.GLB_STATUS_LIFECYCLE = 0 ∨ s.get F.GLB_STATUS_LIFECYCLE = 4) →
        exec .attestationGo s = .next (s.putB F.SEC_ATT_STATUS_ERR true))
    ∧ (s.on F.SEC_ATT_STATUS_BUSY = false → s.get F.GLB_STATUS_LIFECYCLE ≠ 0 → s.get F.GLB_STATUS_LIFECYCLE ≠ 4 →
        s.get64 R.SEC_ATT_ADDR_LO % 16 = 0 → s.get64 R.SEC_ATT_ADDR_LO + 9968 ≤ 0xA0000000 →
        ∃ t, exec .attestationGo s = .next t ∧ t.on F.SEC_ATT_STATUS_BUSY = true ∧ t.sec.attAddr = s.get64 R.SEC_ATT_ADDR_LO
          ∧ (t.sec.report.isSome = true ↔ s.clk.strokes = false) ∧ t = { s with regs := t.regs, sec := t.sec })
    ∧ (∀ r, s.sec.report = some r → s.on F.SEC_ATT_STATUS_BUSY = true →
        let sig := slhSign slh128s (s.nv.seed.getD []) (s.freeBytes 16).1 r
        ∃ t, exec .attestationDone s = .next t ∧ t.on F.SEC_ATT_STATUS_BUSY = false ∧ t.on F.SEC_ATT_STATUS_DONE = true
          ∧ t.sec.report = none ∧ t.mems = ((s.freeBytes 16).2.wrRange .cis s.sec.attAddr (r ++ sig)).mems)
    ∧ (∃ t, exec .rvLock s = .next t ∧ t.on F.RV_LOCK_LOCK = true ∧ t = { s with regs := t.regs })
    ∧ (∃ u : State, u = { s with host := u.host }
        ∧ let held := sget 0 s.host.writeHold R.RV_LINK_ALLOW_LO
          exec (.linkAllowWrite true w) s = .next (u.setAllow
            ((if held = 0 then s.get F.RV_LINK_ALLOW_LO else held % 2 ^ 32) + 2 ^ 32 * (w.toNat % 256))))
    ∧ (s.on F.RV_LOCK_LOCK = true → exec (.linkAllowWrite false v) s = .next s)
    ∧ (s.on F.RV_LOCK_LOCK = false → ∃ t, exec (.linkAllowWrite false v) s = .next t ∧ t.regs = s.regs
        ∧ ∃ u : State, exec (.linkAllowWrite true w) t = .next (u.setAllow (v.toNat + 2 ^ 32 * (w.toNat % 256)))
          ∧ u = { s with host := u.host })

/-! ## Resets, power, self-test (chapters 02, 14 and 16) -/

/-- Resets (R55, R414, R423, R449, R457, R463): each, out of any phase but the safe state, leaves the part just reset with its cause,
every pair in bypass, what is non-volatile, host memory, the endpoint and the waiting commands as they were; a wrong key changes
nothing. A rail at its reset level and a lost CLK_REF hold the reset; a RESET_N pulse under 1 µs resets or is ignored (log 26). A write
to configuration space sets the control it names and nothing else of it; MSI-X enabled or unmasked sends what is pending, but not while
the part is frozen (R55-R57, R62, R77, R84, R86, R441). -/
def Obligations.ResetsRestart : Prop :=
  (∀ (s : State) (key : Word) (low mv : Nat) (rail : Fin 9), s.phase ≠ .safe → s.sec.fw.stage ≠ .storing →
    let after := fun (t : State) (cause : Nat) => JustReset t ∧ t.get F.PWR_RESET_CAUSE_CAUSE = cause ∧ t.nv = s.nv
      ∧ t.host.mem = s.host.mem ∧ t.pending = s.pending ∧ t.mgmt = s.mgmt ∧ ∀ p : Fin 12, t.get (F.LK_PAIR_STATUS_STATE p) = 0
    (JustReset (s.resetWith 2 .startup) ∧ JustReset (s.resetWith 3 .startup))
    ∧ (s.takesWrite R.GLB_RESET = true → s.pcieUp = true →
      (∃ t, exec (.glbReset 0xC0DE0880#32) s = .next t ∧ t.phase = .startup ∧ after t 3)
      ∧ (key ≠ 0xC0DE0880#32 → exec (.glbReset key) s = .next s))
    ∧ (s.phase ≠ .reset → s.pcieUp = true → (∃ t, exec .functionLevelReset s = .next t ∧ t.phase = .startup ∧ after t 2)
      ∧ exec .functionLevelReset s = .next (s.resetWith 2 .startup)
      ∧ ∀ v, v % 2 = 1 → exec (.configSpaceWrite .initiateFlr v) s = .next (s.resetWith 2 .startup))
    ∧ (1000 ≤ low → ∃ t, exec (.resetN low) s = .next t ∧ t.phase = .startup ∧ after t 1)
    ∧ (low < 1000 → ∃ t, exec (.resetN low) s = .next t ∧ (t = { s with fresh := s.fresh + 1 } ∨ JustReset t))
    ∧ (s.takesWrite R.DBG_RELEASE = true → s.pcieUp = true →
      (s.frozen = true → ∃ t, exec (.dbgRelease 0xF12E0880#32) s = .next t ∧ t.phase = .startup ∧ after t 3)
      ∧ (s.frozen = false ∨ key ≠ 0xF12E0880#32 → exec (.dbgRelease key) s = .next s))
    ∧ (s.atReset rail mv = true → s.phase ≠ .reset → ∃ t, exec (.railResetLevel rail mv) s = .next t ∧ t.phase = .reset ∧ after t 4
        ∧ t.get F.PWR_RESET_CAUSE_RAIL = rail ∧ t.power.holdRails = true ∧ rail.val ∈ t.power.lowRails ∧ t.release = none)
    ∧ (s.atReset rail mv = true → s.phase = .reset → ∃ t, exec (.railResetLevel rail mv) s = .next t
        ∧ t = { s with power := t.power, pins := t.pins } ∧ t.power.holdRails = true ∧ rail.val ∈ t.power.lowRails)
    ∧ (s.atReset rail mv = false → exec (.railResetLevel rail mv) s = .next s)
    ∧ (s.phase = .reset → exec .clkRefLoss s = .next { s with power := { s.power with clkRef := false, holdClock := true } })
    ∧ (s.power.clkRef = true → exec .clkRefRestored s = .next s)
    ∧ (s.phase ≠ .reset → ∃ t, exec .clkRefLoss s = .next t ∧ t.phase = .reset ∧ after t 7 ∧ t.power.clkRef = false ∧ t.release = none)
    ∧ (s.power.clkRef = false → exec .clkRefRestored s
        = .next { s with power := { s.power with clkRef := true, clkAt := s.clk.real } })
    ∧ (∃ t, exec .powerOn s = .next t ∧ t.phase = .reset ∧ JustReset t ∧ t.nv = s.nv ∧ t.host.mem = s.host.mem ∧ t.regs = State.reset.regs)
    ∧ (∃ t, exec .peRefclkLoss s = .next t ∧ t.pcieUp = false ∧ t.get F.GLB_CAP_PCIE_WIDTH = 0
        ∧ t = { s with regs := t.regs, host := t.host })
    ∧ exec .dbgClkLoss s = .next { s with dbgClock := false })
  ∧ (∀ (s : State) (low : Nat), s.phase = .safe ∨ s.sec.fw.stage = .storing →
    (∃ t, exec .powerOn s = .next t ∧ t.phase = .reset ∧ JustReset t)
    ∧ (1000 ≤ low → ∃ t, exec (.resetN low) s = .next t ∧ JustReset t)
    ∧ (s.phase ≠ .reset → s.pcieUp = true → exec .functionLevelReset s = .next (s.resetWith 2 .startup))
    ∧ (s.phase = .safe → (s.resetWith 2 .startup).phase = .reset ∧ (s.resetWith 2 .startup).get F.PWR_RESET_CAUSE_CAUSE = 5)
    ∧ JustReset (s.resetWith 2 .startup))
  ∧ (∀ (s : State) (v : Nat) (i : Fin 6), s.phase ≠ .reset → s.pcieUp = true →
    let set := fun c => { s with host := { s.host with config := c } }
    exec (.configSpaceWrite .maxPayload v) s = .next (set { s.host.config with maxPayload := min 512 (128 * 2 ^ (v % 8)) })
    ∧ exec (.configSpaceWrite .maxReadRequest v) s = .next (set { s.host.config with maxRead := min 4096 (128 * 2 ^ (v % 8)) })
    ∧ exec (.configSpaceWrite .tag14 v) s = .next (set { s.host.config with tag14 := v % 2 == 1 })
    ∧ exec (.configSpaceWrite .aerStatus v) s
        = .next (set { s.host.config with aer := s.host.config.aer - (s.host.config.aer &&& v) })
    ∧ exec (.configSpaceWrite (.bar i) v) s = .next (set (s.host.config.writeBar i v))
    ∧ exec (.configSpaceWrite .relaxedOrdering v) s = .next (set { s.host.config with relaxed := v % 2 == 1 })
    ∧ exec (.configSpaceWrite .completionTimeout v) s = .next (set { s.host.config with timeout := v % 16 })
    ∧ exec (.configSpaceWrite .msixEnable v) s = .next (set { s.host.config with msixEnable := v % 2 == 1 }).firePending
    ∧ exec (.configSpaceWrite .msixMask v) s = .next (set { s.host.config with msixMask := v % 2 == 1 }).firePending
    ∧ (s.frozen = true → s.firePending = s)
    ∧ (v % 2 = 0 → exec (.configSpaceWrite .initiateFlr v) s = .next s))

/-- Start-up (R415-R417, R386): held reset starts nothing; in RETIRED it stops in step 1; a bad slot sends it to recovery; out of range
it stops in step 2; with no failure it ends in READY, BIST passed. -/
def Obligations.StartupEndsInReady : Prop :=
  ∀ (s : State) (f : Findings),
    (s.release = none → exec (.startup f) s = .next s)
    ∧ (∀ u, s.frozen = false → s.release = some u → u.canElapse (min f.cycles 6225000000) = true →
        exec (.startup f) s = .next ((u.elapse (min f.cycles 6225000000)).startup f))
    ∧ (∀ u, s.frozen = false → s.release = some u → u.canElapse (min f.cycles 6225000000) = true →
        let l := (((u.elapse (min f.cycles 6225000000)).loadFuses f).loadSeeds).loadUnits
        (l.nv.lifecycle = 4 → ∃ t, exec (.startup f) s = .next t ∧ t.phase = .hold ∧ t.get F.GLB_STATUS_STAGE = 1
          ∧ t.on F.GLB_STATUS_FAULT_HOLD = true)
        ∧ (∀ role why, l.nv.lifecycle ≠ 4 → l.badSlot = some (role, why) → ∃ t, exec (.startup f) s = .next t ∧ t.phase = .recovery
          ∧ t.on F.SEC_BOOT_STATUS_RECOVERY = true ∧ t.get F.SEC_BOOT_STATUS_ROLE = role % 16
          ∧ t.get F.SEC_BOOT_STATUS_REASON = why % 16)
        ∧ (l.nv.lifecycle ≠ 4 → l.badSlot = none → f.inRange = false → ∃ t, exec (.startup f) s = .next t ∧ t.phase = .hold
          ∧ t.get F.GLB_STATUS_STAGE = 2 ∧ t.on F.PWR_BIST_STATUS_RANGE = true)
        ∧ (l.nv.lifecycle ≠ 4 → l.badSlot = none → f.inRange = true → f.failed = [] → ∃ t, exec (.startup f) s = .next t
          ∧ t.phase = .ready ∧ t.on F.GLB_STATUS_READY = true ∧ t.get F.GLB_STATUS_STAGE = 7))

/-- Rails (R408, R419-R422): a fall below the warning level opens a window that keeps its lowest value and flags the stroke; above it
again the dip is over and its time kept; VDD_CORE or VDD_SRAM below it for 2 µs halves the clock; after 50 µs above it the window
closes and BROWNOUT tells its rail, depth, time and strokes. Package power, set point and heat (R45, R46, R409, R431, R432): a
measurement above the limit takes the array down by 1/8, the tenth in a row under 97 % up by 1/8; at 1/8 for 20 µs and still above,
ALERT and valve 5; the set point moves by 5 mV within its bounds and VID follows; THERMAL_WARN as the junction passes its level; at 115
°C the safe state. -/
def Obligations.RailsPowerAndHeat : Prop :=
  (∀ (s : State) (r : Fin 9) (mv : Nat),
    (s.belowWarn r mv = true → s.atReset r mv = false →
      exec (.railWarnCross r mv) s = .next (if s.clocksRun = true then s.railFalls r mv else s.noteLow r mv))
    ∧ (s.belowWarn r mv = false → exec (.railAboveWarning r mv) s = .next (s.railRises r mv))
    ∧ (∀ tenths : BitVec 16, exec (.junctionSample tenths) s = .next (s.sample tenths.toNat)
        ∧ (s.phase ≠ .reset → s.phase ≠ .safe → 1150 ≤ tenths.toInt →
          exec (.thermalTrip tenths) s = .next (s.thermalTrip tenths.toNat)))
    ∧ (s.live = true → s.power.tests = [] → s.belowWarn r mv = true → s.atReset r mv = false → s.dip r = none →
      ∃ t, exec (.railWarnCross r mv) s = .next t
        ∧ t.dip r = some { low := mv, below := true, since := s.clk.real, first := s.nowReg }
        ∧ t.get (F.PWR_RAIL_MV r) = mv % 65536 ∧ t.on (F.PWR_RAIL_BELOW_WARN r) = true ∧ t.on F.PWR_STATUS_WINDOW = true
        ∧ t.get (F.PWR_RAIL_WINDOWS r) = min 255 (s.get (F.PWR_RAIL_WINDOWS r) + 1)
        ∧ r.val ∈ t.power.lowRails ∧ t.power.flagged = true ∧ t.out = s.out)
    ∧ ((s.belowWarn r mv = false ∨ s.atReset r mv = true) → exec (.railWarnCross r mv) s = .next s)
    ∧ (∀ d, s.belowWarn r mv = false → s.dip r = some d → d.below = true → ∃ t, exec (.railAboveWarning r mv) s = .next t
        ∧ t.dip r = some { d with below := false, since := s.clk.real, total := d.total + (s.clk.real - d.since) }
        ∧ r.val ∉ t.power.lowRails ∧ (s.phase ≠ .reset → t.on (F.PWR_RAIL_BELOW_WARN r) = false)
        ∧ t = { s with regs := t.regs, power := t.power })
    ∧ (∀ d u, s.clocksRun = true → r.val < 2 → s.dip r = some d → d.below = true → d.halved = false →
        s.reachReal (d.since + 5000) = some u →
        exec (.brownoutHalving r) s = .next (u.setDip r (some { d with halved := true })).setClocks)
    ∧ (∀ d u, s.clocksRun = true → s.dip r = some d → d.below = false → s.reachReal (d.since + 125000) = some u →
        exec (.brownout r) s = .next (((u.setDip r none).setClocks).raise 0x0901
          (payload 16 [(0, 1, r), (1, 1, depthOf (u.setPoint r) d.low), (4, 4, sat32 (d.total * 2 / 5)), (8, 8, d.first)])
          [payload 32 [(0, 8, u.nowReg)]]))
    ∧ (∀ d, s.clocksRun = true → r.val < 2 → s.dip r = some d → d.below = true → d.halved = false → d.since + 5000 ≤ s.clk.real →
        ∃ t, exec (.brownoutHalving r) s = .next t ∧ t.dip r = some { d with halved := true } ∧ t.on F.PWR_STATUS_HALVED = true)
    ∧ (∀ d, s.clocksRun = true → s.dip r = some d → d.below = false → d.since + 125000 ≤ s.clk.real → ∃ u : State,
        exec (.brownout r) s = .next (u.raise 0x0901
          (payload 16 [(0, 1, r), (1, 1, depthOf (s.setPoint r) d.low), (4, 4, sat32 (d.total * 2 / 5)), (8, 8, d.first)])
          [payload 32 [(0, 8, s.nowReg)]]) ∧ u.dip r = none))
  ∧ (∀ (s u : State) (w mv : Nat) (rails : List Nat) (tenths : BitVec 16), s.live = true →
    let limit := s.get F.PWR_LIMIT_WATTS
    let f := s.get F.PWR_STATUS_ARRAY_FRACTION
    (s.reach s.nextMeasurement = some u → exec (.powerMeasurement w rails) s = .next (u.measurePower w rails))
    ∧ (exec (.vddcSetMove mv) s = .next (if s.coreState 7 = 1 then s.moveSet mv else s))
    ∧ (limit < w → 2 < f → (s.power.tests = [] ∨ rails = []) → ∃ t, t = s.measurePower w rails
        ∧ t.get F.PWR_STATUS_ARRAY_FRACTION = f - 1
        ∧ t.get F.PWR_NOW_WATTS = min 1023 w ∧ t.get F.PWR_NOW_PEAK = max (min 1023 w) (s.get F.PWR_NOW_PEAK)
        ∧ t = { s with regs := t.regs, power := t.power, clk := t.clk })
    ∧ (100 * w < 97 * limit → f < 8 → s.power.below97 % 10 = 9 → s.power.underLimit < 999 →
        (s.power.tests = [] ∨ rails = []) → (s.measurePower w rails).get F.PWR_STATUS_ARRAY_FRACTION = f + 1)
    ∧ (∀ t0, limit < w → f = 1 → s.power.eighthFrom = some t0 → t0 + 50000 ≤ s.clk.cycle → s.on F.PWR_STATUS_ALERT = false →
        rails = [] → ∃ v : State, s.measurePower w rails = v.trip 5 0 w ∧ v.on F.PWR_STATUS_ALERT = true)
    ∧ (∀ v q x (t : State), rails[0]? = some v → t.outOfRange v = some (q, x) → t.power.tests = [] → t.istAbortAll q x = t)
    ∧ (s.coreState 7 = 1 → s.power.moved = none → 600 ≤ mv → mv ≤ 800 → mv % 5 = 0 → s.nv.coreMv ≤ mv + 20 → mv ≤ s.nv.coreMv + 20 →
        s.coreSet ≤ mv + 5 → mv ≤ s.coreSet + 5 → ∃ t, exec (.vddcSetMove mv) s = .next t ∧ t.get F.PWR_VDDC_SET_SET_MV = mv
          ∧ t.pins.vid = some (vidCode mv) ∧ t.power.moved = some (s.coreSet, s.clk.real)
          ∧ t = { s with regs := t.regs, power := t.power, pins := t.pins })
    ∧ ((mv < 600 ∨ 800 < mv ∨ mv % 5 ≠ 0 ∨ mv + 20 < s.nv.coreMv ∨ s.nv.coreMv + 20 < mv) → exec (.vddcSetMove mv) s = .next s)
    ∧ ((s.get F.PWR_TWARN_LEVEL : Int) < tenths.toInt → s.power.warned = false → ∃ v : State,
        exec (.junctionSample tenths) s = .next (v.raise 0x0904 (payload 16 [(0, 2, tenths.toNat)])) ∧ v.get F.PWR_TJ_NOW = tenths.toNat
          ∧ v.on F.PWR_STATUS_TWARN = true ∧ v.power.warned = true)
    ∧ (tenths.toInt ≤ (s.get F.PWR_TWARN_LEVEL : Int) → ∃ t, exec (.junctionSample tenths) s = .next t
        ∧ t.get F.PWR_TJ_NOW = tenths.toNat ∧ t.on F.PWR_STATUS_TWARN = false ∧ t = { s with regs := t.regs, power := t.power })
    ∧ (1150 ≤ tenths.toInt → ∃ t, exec (.thermalTrip tenths) s = .next t ∧ t.phase = .safe ∧ t.on F.GLB_STATUS_READY = false
        ∧ t.on F.PWR_STATUS_ALERT = true)
    ∧ (tenths.toInt < 1150 → exec (.thermalTrip tenths) s = .next s))

/-- Self-test (R395, R424, R425, R427-R429): a full BIST is refused in FIELD and RETIRED and out of range, and else runs with the part
out of service; its end is an internal reset with cause 6 that its result survives; a wrong key starts none. A unit ready for its
in-service test leaves service; one whose test is over returns; a slice gives way to a request (log 26 for the order of several
conditions). -/
def Obligations.SelfTestsRun : Prop :=
  ∀ (s : State) (key : Word) (mv : Nat) (failed : List (Nat × Nat)) (unit : IstUnit) (b : Fin 19),
    (s.takesWrite R.PWR_BIST_CTRL = true → s.pcieUp = true → s.phase ≠ .safe →
      exec (.fullBistRequest 0xB1570880#32 mv) s = .next (s.requestBist mv))
    ∧ (exec (.fullBistEnd failed mv) s = .next (s.endBist failed mv))
    ∧ (s.live = true → ∀ fault, exec (.istStep unit fault mv) s = .next (s.istStep unit fault mv)
        ∧ exec (.istSliceAbort b) s = .next (s.sliceAbort b))
    ∧ (s.live = true → s.pcieUp = true →
      (key ≠ 0xB1570880#32 → exec (.fullBistRequest key mv) s = .next s)
      ∧ ((s.get F.GLB_STATUS_LIFECYCLE = 2 ∨ s.get F.GLB_STATUS_LIFECYCLE = 4) →
        exec (.fullBistRequest 0xB1570880#32 mv) s = .next (s.putB F.PWR_BIST_STATUS_REFUSED_LC true))
      ∧ (s.get F.GLB_STATUS_LIFECYCLE ≠ 2 → s.get F.GLB_STATUS_LIFECYCLE ≠ 4 →
        (s.outOfRange mv = none → ∃ t, exec (.fullBistRequest 0xB1570880#32 mv) s = .next t ∧ t.phase = .bist
          ∧ t.on F.PWR_BIST_STATUS_RUNNING = true ∧ t.on F.PWR_BIST_STATUS_FULL = true)
        ∧ (∀ q v, s.outOfRange mv = some (q, v) → exec (.fullBistRequest 0xB1570880#32 mv) s
            = .next ((s.putB F.PWR_BIST_STATUS_REFUSED_RANGE true).rangeEvent q v))))
    ∧ (s.phase = .bist → s.frozen = false → s.outOfRange mv = none → s.on F.PWR_BIST_STATUS_REFUSED_RANGE = false →
        ∃ t, exec (.fullBistEnd failed mv) s = .next t ∧ JustReset t ∧ t.get F.PWR_RESET_CAUSE_CAUSE = 6
          ∧ t.on F.PWR_BIST_STATUS_RUNNING = false ∧ t.get F.PWR_BIST_STATUS_RESULT
            = (if failed = [] then 1 else if failed.all (fun x => absorbable x.1 x.2) = true then 2 else 3))
    ∧ (s.phase ≠ .bist → exec (.fullBistEnd failed mv) s = .next s)
    ∧ (s.live = true → s.on F.PWR_IST_CTRL_EN = true → s.outOfRange mv = none →
      (s.istTest unit = none → s.istReady unit = true → ∀ fault, exec (.istStep unit fault mv) s = .next (s.istTake unit))
      ∧ (s.istTest unit = none → s.istReady unit = false → ∀ fault, exec (.istStep unit fault mv) s = .next s)
      ∧ (∀ t u, s.istTest unit = some t → t.unit = unit → s.istOver unit = true → s.reach (t.since + istCycles unit) = some u →
        exec (.istStep unit true mv) s = .next (u.istFail unit)
        ∧ ((∀ k, unit ≠ .bank k ∧ ∀ j, unit ≠ .slice j) → exec (.istStep unit false mv) s = .next ((u.istReturn unit).istCover unit))
        ∧ (∀ k, unit = .bank k → exec (.istStep unit false mv) s = .next (((u.bankSwap k).istReturn unit).istCover unit))
        ∧ (∀ j, unit = .slice j → exec (.istStep unit false mv) s = .next
            ((State.istReturn { u with power := { u.power with aborts := sset (0, 0) u.power.aborts j (0, 0) } } unit).istCover unit)))
      ∧ (s.tended 7 = false → s.istReady unit = false))
    ∧ (s.live = true → s.on F.PWR_IST_CTRL_EN = false → ∀ fault, exec (.istStep unit fault mv) s = .next s)
    ∧ (∀ u : State, (u.istReturn unit).istTest unit = none ∧ (u.istReturn unit).on ⟨R.PWR_IST_STATUS, istBit unit, 1⟩ = false)
    ∧ (∀ t, s.live = true → s.istTest (.slice b) = some t → t.unit = .slice b → (sget (0, 0) s.power.aborts b).1 < 999 →
        ∃ v, exec (.istSliceAbort b) s = .next v ∧ v.istTest (.slice b) = none
          ∧ sget (0, 0) v.power.aborts b = ((sget (0, 0) s.power.aborts b).1 + 1, s.clk.cycle))
    ∧ (∀ t, s.live = true → s.istTest (.slice b) = some t → t.unit = .slice b → 999 ≤ (sget (0, 0) s.power.aborts b).1 →
        ∃ v : State, exec (.istSliceAbort b) s = .next (v.istCover (.slice b)) ∧ v.on F.PWR_IST_STATUS_STARVED = true
          ∧ v.istTest (.slice b) = none ∧ sget (0, 0) v.power.aborts b = (0, 0))

/-! ## Freeze, readout, the debug port (chapter 15) -/

/-- A freeze (R437-R439, R442): its pin where that is enabled, its register or its event trigger stops the clocks 8 core cycles later,
with the source, time and stroke shown and READY gone; with PREBYPASS the pre-freeze step comes first, and 100 µs later stops them. In
the safe state they stop at once. Where no freeze is accepted nothing but the trigger's request goes (log 27). -/
def Obligations.FreezesStopTheClocks : Prop :=
  (∀ (s : State),
    (s.on F.DBG_CTRL_PIN_EN = true → exec .freezePin s = .next (s.freeze 1))
    ∧ (s.takesWrite R.DBG_CTRL = true → exec .freeze s = .next (s.freeze 2))
    ∧ (s.trigger = true → exec .freezeEventTrigger s = .next (s.freeze 3))
    ∧ (s.frozen = false → s.phase ≠ .reset → exec .prefreezeEnd s = .next s.endPrefreeze)
    ∧ (∀ k, s.phase = .safe → s.freezable = true → (s.freeze k).frozen = true ∧ (s.freeze k).clk = s.clk))
  ∧ (∀ (s : State), s.phase ≠ .safe → s.takesWrite R.DBG_CTRL = true →
    let via := fun (c : Instr) (source : Nat) =>
      (s.freezable = true → s.on F.DBG_CTRL_PREBYPASS = false → ∃ t, exec c s = .next t ∧ t.frozen = true
        ∧ t.on F.DBG_STATUS_FROZEN = true ∧ t.get F.DBG_STATUS_SOURCE = source ∧ t.on F.GLB_STATUS_READY = false
        ∧ t.clk.cycle = s.clk.cycle + 8 ∧ t.get64 R.DBG_FREEZE_TIME_LO = t.clk.time % 2 ^ 64
        ∧ t.get64 R.DBG_FREEZE_STROKE_LO = s.nowReg % 2 ^ 64 ∧ t.dbg.frozenRegs = t.regs ∧ t.trigger = false)
      ∧ (s.freezable = true → s.on F.DBG_CTRL_PREBYPASS = true → ∃ t, exec c s = .next t
        ∧ t.dbg.preFrom = some s.clk.cycle ∧ t.on F.DBG_STATUS_PRE = true ∧ t.trigger = false)
      ∧ (s.freezable = false → exec c s = .next { s with trigger := false })
    (s.on F.DBG_CTRL_PIN_EN = true → via .freezePin 1) ∧ (s.on F.DBG_CTRL_PIN_EN = false → exec .freezePin s = .next s)
    ∧ via .freeze 2
    ∧ (s.trigger = true → via .freezeEventTrigger 3) ∧ (s.trigger = false → exec .freezeEventTrigger s = .next s)
    ∧ (∀ c0 u, s.frozen = false → s.phase ≠ .reset → s.dbg.preFrom = some c0 → s.reach (c0 + 250000) = some u →
        ∃ t, exec .prefreezeEnd s = .next t ∧ t.frozen = true ∧ t.dbg.preFrom = none))

/-- Readout (R443, R444): GO of a request that the state forbids is refused with the least reason that applies, and else is BUSY; the
readout sends one record for each 4,096 bytes not sent yet, its bytes and its lines on the port (log 40), and is DONE. A scan dump is
one record (log 30). The debug port (R448): each instruction
is loaded, and its register shifted out; IDCODE has its value; BYPASS is one cell; the boundary register shifts out what it samples and
takes what is shifted in, and drives the pins under EXTEST alone, while the part is frozen or in reset. A register read through
DBG_ACCESS shifts out its value, a write reaches its register, where the life cycle opens the port. -/
def Obligations.ReadoutAndDebugPort : Prop :=
  (∀ (s : State) (chain : Fin 256), s.takesWrite R.DBG_CAP_GO = true → s.pcieUp = true → s.dbgClock = true →
    let space := s.get F.DBG_CAP_SPACE_SPACE
    let inst := s.get F.DBG_CAP_SPACE_INSTANCE
    let ok := capRangeOk space inst (s.get64 R.DBG_CAP_ADDR_LO) (s.get F.DBG_CAP_LEN)
    let refused := fun (why : Nat) => ∃ t, exec .dbgCapGo s = .next t ∧ t.on F.DBG_CAP_STATUS_REFUSED = true
      ∧ t.get F.DBG_CAP_STATUS_REASON = why ∧ t.dbg = s.dbg ∧ t = { s with regs := t.regs }
    (s.frozen = false → refused 1)
    ∧ (s.frozen = true → s.spaceAllowed space = false → refused 2)
    ∧ (s.frozen = true → s.spaceAllowed space = true → ok = false → refused 3)
    ∧ (s.frozen = true → s.spaceAllowed space = true → ok = true → s.on F.DBG_CAP_STATUS_BUSY = true → refused 4)
    ∧ (s.frozen = true → s.spaceAllowed space = true → ok = true → s.on F.DBG_CAP_STATUS_BUSY = false → ∃ t, exec .dbgCapGo s = .next t
        ∧ t.on F.DBG_CAP_STATUS_BUSY = true ∧ t.on F.DBG_CAP_STATUS_REFUSED = false
        ∧ t.dbg.readout = some (space, inst, s.get64 R.DBG_CAP_ADDR_LO, s.get F.DBG_CAP_LEN)
        ∧ t = { s with regs := t.regs, dbg := t.dbg })
    ∧ (∀ sp i a n, s.frozen = true → s.dbg.readout = some (sp, i, a, n) → ∃ t, exec .captureReadoutDone s = .next t
        ∧ t.on F.DBG_CAP_STATUS_BUSY = false ∧ t.on F.DBG_CAP_STATUS_DONE = true ∧ t.dbg.readout = none
        ∧ t.out.length = s.out.length + 2 * (ceilDiv n 4096 - s.dbg.sent))
    ∧ (s.frozen = false → exec .captureReadoutDone s = .next s)
    ∧ (s.frozen = true → s.get F.GLB_STATUS_LIFECYCLE ≠ 2 → s.on F.DBG_CAP_STATUS_BUSY = false →
        ∃ t, exec (.scanDump chain) s = .next t ∧ t.out.length = s.out.length + 2 ∧ t.dbg.instr = 0x21))
  ∧ (∀ (s : State) (levels shift : List Bool) (code : Fin 256) (v : Word) (offset : Fin 65536),
    exec .idcode s = .next ((s.loadInstr 1).emit (.tdo (bitsOf 32 (1 + 2 * (Config.jep106 % 2048) + 0x0880 * 2 ^ 12
      + 2 ^ 28 * (s.get F.GLB_ID_STEPPING % 16)))))
    ∧ (exec (.jtagBypass code shift) s = .next ((s.loadInstr code).emit (.tdo ((false :: shift).take shift.length))))
    ∧ (∀ write, exec (.dbgAccess v offset write) s = .next ((s.loadInstr 0x20).dbgPort v.toNat offset write))
    ∧ exec (.scanDump code) s = .next ((s.loadInstr 0x21).scanDump code)
    ∧ (∃ t, exec (.samplePreload levels shift) s = .next t ∧ t.dbg.instr = 2 ∧ t.pins.driven = none
        ∧ t.out = .tdo ((s.sampled levels ++ shift).take shift.length) :: s.out
        ∧ t.dbg.boundary = (s.sampled levels ++ shift).drop shift.length)
    ∧ (∃ t, exec (.extest levels shift) s = .next t ∧ t.dbg.instr = 0
        ∧ t.out = .tdo ((s.sampled levels ++ shift).take shift.length) :: s.out
        ∧ t.dbg.boundary = (s.sampled levels ++ shift).drop shift.length
        ∧ t.pins.driven = (if s.frozen = true ∨ s.phase = .reset then some t.dbg.boundary else none))
    ∧ (s.dbgClock = true → s.on F.DBG_CTRL_CAPTURE_EN = true → s.retiredHold = false → ∃ u : State, u = s.loadInstr 0x20
        ∧ exec (.dbgAccess v offset true) s = .next (u.writeReg true (R.DBG_CTRL + offset) 15 v.toNat)
        ∧ exec (.dbgAccess v offset false) s = .next ((u.readReg ((R.DBG_CTRL + offset) / 4 * 4)).1.emit
            (.tdo (dbgBits (u.readReg ((R.DBG_CTRL + offset) / 4 * 4)).2 offset false))))
    ∧ (s.dbgClock = true → s.on F.DBG_CTRL_CAPTURE_EN = false → exec (.dbgAccess v offset true) s = .next (s.loadInstr 0x20))
    ∧ (s.dbgClock = false → ∀ write, exec (.dbgAccess v offset write) s = .next (s.loadInstr 0x20)))

/-! ## The management endpoint (chapter 16) -/

/-- The endpoint answers each request it supports with one message and changes nothing else but its own ID, in every phase, while
DBG_CLK runs, and nothing at all without it (R466-R468). The layout of the messages is the model's, after the specifications R466 names
(PRESUMED, log 29). -/
def Obligations.TheEndpointAnswers : Prop :=
  ∀ (s : State) (inst : Fin 32) (op : Fin 4) (eid type flag : BitVec 8) (ver record handle : BitVec 32) (sensor count change : BitVec 16)
    (cmd : BitVec 8),
    let answers := fun (c : Instr) (m : List Byte) => exec c s = .next (s.emit (.mgmt m))
    (s.dbgClock = true →
      (eidAccepted op eid = true → exec (.setEndpointId inst op eid) s
        = .next ({ s with mgmt := { s.mgmt with eid := eid.toNat } }.emit (.mgmt (mctpReply inst 1 0 [0, eid, 0]))))
      ∧ (eidAccepted op eid = false → answers (.setEndpointId inst op eid) (mctpReply inst 1 2 []))
      ∧ answers (.getEndpointId inst) (mctpReply inst 2 0 (natBytes 1 s.mgmt.eid ++ [0, 0]))
      ∧ (type.toNat ≤ 1 → answers (.getMctpVersionSupport inst type)
          (mctpReply inst 4 0 (natBytes 1 1 ++ natBytes 4 (Config.mctpVersion type.toNat).toNat)))
      ∧ (1 < type.toNat → type ≠ 0xFF → answers (.getMctpVersionSupport inst type) (mctpReply inst 4 0x80 []))
      ∧ answers (.getMessageTypeSupport inst) (mctpReply inst 5 0 [1, 1])
      ∧ answers (.gettid inst) (pldmReply inst 0 2 0 [0])
      ∧ (type = 0xFF → answers (.getMctpVersionSupport inst type)
          (mctpReply inst 4 0 (natBytes 1 1 ++ natBytes 4 (Config.mctpVersion type.toNat).toNat)))
      ∧ (type = 0 ∨ type = 2 → flag = 1 → ∃ d, answers (.getpldmversion inst handle flag type) (pldmReply inst 0 3 0 d))
      ∧ (type = 0 ∨ type = 2 → flag ≠ 1 → answers (.getpldmversion inst handle flag type)
          (pldmReply inst 0 3 (if flag = 0 then 0x80 else 0x81) []))
      ∧ (type ≠ 0 → type ≠ 2 → answers (.getpldmversion inst handle flag type) (pldmReply inst 0 3 0x83 [])
          ∧ answers (.getpldmcommands inst type ver) (pldmReply inst 0 5 0x83 []))
      ∧ answers (.getpldmtypes inst) (pldmReply inst 0 4 0 [5, 0, 0, 0, 0, 0, 0, 0])
      ∧ (type = 0 → ver = Config.pldmVersion 0 → answers (.getpldmcommands inst type ver)
          (pldmReply inst 0 5 0 (0x3C :: zeros 31)))
      ∧ (type = 2 → ver = Config.pldmVersion 2 → answers (.getpldmcommands inst type ver)
          (pldmReply inst 0 5 0 (natBytes 32 (2 ^ 0x11 + 2 ^ 0x21 + 2 ^ 0x50 + 2 ^ 0x51))))
      ∧ (type = 0 ∨ type = 2 → ver ≠ Config.pldmVersion type.toNat → answers (.getpldmcommands inst type ver) (pldmReply inst 0 5 0x84 []))
      ∧ ((pldmCommands type.toNat).contains cmd.toNat = false →
          answers (.unsupportedPldmCmd inst type cmd) (pldmReply inst (type.toNat % 64) cmd.toNat 5 []))
      ∧ (∃ d, answers (.getpdrrepositoryinfo inst) (pldmReply inst 2 0x50 0 d))
      ∧ (record.toNat ≤ 38 → flag = 1 → ∃ d, answers (.getpdr inst record handle flag count change) (pldmReply inst 2 0x51 0 d))
      ∧ (record.toNat ≤ 38 → ∃ code d, answers (.getpdr inst record handle flag count change) (pldmReply inst 2 0x51 code d)
          ∧ (1 < flag.toNat → code = 0x81))
      ∧ (∀ x signed, s.numeric sensor.toNat = some (x, signed) → ∃ (rest : List Byte) (t : State),
          exec (.getsensorreading inst sensor) s = .next t ∧ t.regs = s.regs
          ∧ t.out = .mgmt (pldmReply inst 2 0x11 0 (natBytes 1 (if signed = true then 3 else 2)
              ++ natBytes 1 (if s.sensorUp sensor.toNat = true then 0 else 2) ++ rest)) :: s.out)
      ∧ (∀ x n, s.stateOf sensor.toNat = some (x, n) → ∃ (rest : List Byte) (t : State),
          exec (.getstatesensorreadings inst sensor) s = .next t ∧ t.regs = s.regs
          ∧ t.out = .mgmt (pldmReply inst 2 0x21 0 ([1, 0] ++ natBytes 1 x ++ rest)) :: s.out)
      ∧ (38 < record.toNat → answers (.getpdr inst record handle flag count change) (pldmReply inst 2 0x51 0x82 []))
      ∧ (sensor = 2 → s.get F.GLB_STATUS_STAGE ≠ 0 → ∃ (p q : Byte) (t : State), exec (.getsensorreading inst sensor) s = .next t
          ∧ t.out = .mgmt (pldmReply inst 2 0x11 0 ([2, 0, 0] ++ natBytes 1 (if s.get F.PWR_LIMIT_WATTS ≤ s.get F.PWR_NOW_WATTS then 8 else 1)
              ++ [p, q] ++ natBytes 2 (s.get F.PWR_NOW_WATTS))) :: s.out ∧ t.regs = s.regs)
      ∧ (22 < sensor.toNat → answers (.getsensorreading inst sensor) (pldmReply inst 2 0x11 0x80 []))
      ∧ (sensor = 101 → ∃ (p q : Byte) (t : State), exec (.getstatesensorreadings inst sensor) s = .next t
          ∧ t.out = .mgmt (pldmReply inst 2 0x21 0 ([1, 0] ++ natBytes 1 (s.get F.GLB_STATUS_LIFECYCLE) ++ [p, q])) :: s.out
          ∧ t.regs = s.regs)
      ∧ (sensor.toNat < 100 ∨ 115 < sensor.toNat → answers (.getstatesensorreadings inst sensor) (pldmReply inst 2 0x21 0x80 [])))
    ∧ (s.dbgClock = false → exec (.setEndpointId inst op eid) s = .next s ∧ exec (.getEndpointId inst) s = .next s
        ∧ exec (.getMctpVersionSupport inst type) s = .next s ∧ exec (.gettid inst) s = .next s
        ∧ exec (.getMessageTypeSupport inst) s = .next s ∧ exec (.getpldmversion inst handle flag type) s = .next s
        ∧ exec (.getpldmtypes inst) s = .next s ∧ exec (.getpldmcommands inst type ver) s = .next s
        ∧ exec (.unsupportedPldmCmd inst type cmd) s = .next s ∧ exec (.getpdrrepositoryinfo inst) s = .next s
        ∧ (∃ t, exec (.getsensorreading inst sensor) s = .next t ∧ t.out = s.out)
        ∧ (∃ t, exec (.getstatesensorreadings inst sensor) s = .next t ∧ t.out = s.out)
        ∧ exec (.getpdr inst record handle flag count change) s = .next s)

/-! ## Every command -/

/-- Every command is answered with a next state, whatever its operands and in whatever state it comes: no command of the table and no
data ends a run in a fault or a refusal (R416: a command that cannot act changes nothing). -/
def Obligations.EveryCommandAnswers : Prop := ∀ (c : Instr) (s : State), ∃ t, exec c s = .next t

/-- In service, or where its register takes the write, each of these commands completes with its own operation on the state, for every
operand: the packet path's, the queues' and the strokes' (R416, R417, R432). -/
def Obligations.CommandsActInService : Prop :=
  (∀ (s : State) (n : Fin 24) (q : Fin 80) (r : PassRef) (lane : Fin 24) (b : BankKind) (bs : List Byte), s.live = true →
    (∀ first fin fec, s.lit n = true → exec (.frameReceive n first ⟨bs, fec⟩ fin) s = .next ((s.countWords n fec).receive n first bs fin))
    ∧ exec .headDeal s = .next s.deal ∧ exec (.flowLookup r) s = .next (s.flowLookup r)
    ∧ exec .flowInsertPort s = .next s.flowInsertPort ∧ exec (.insertWaitTimeout r) s = .next (s.insertTimeout r)
    ∧ exec .relocationChain s = .next s.relocate ∧ exec .flowEnd s = .next s.flowEnd
    ∧ exec (.featureProgram r) s = .next (s.featureProgram r) ∧ exec (.ruleClassify r) s = .next (s.classify r)
    ∧ (∀ mem word, exec (.ruleWordRefetch r mem word) s = .next (s.refetch r mem word))
    ∧ exec (.treeIssue lane) s = .next (s.treeIssue lane) ∧ (∀ g : Fin 25, exec (.treeGroupFail g) s = .next (s.groupFail g))
    ∧ exec .spareGroupLoaded s = .next s.spareLoaded ∧ exec (.verdictStage r) s = .next (s.verdictStage r)
    ∧ (∀ seq : Fin 4096, exec (.verdictDeadline n seq) s = .next (s.verdictDeadline n seq))
    ∧ exec (.reorderRelease n) s = .next (s.reorderRelease n) ∧ exec (.verdictFrameHoldExpiry n) s = .next (s.holdExpiry n)
    ∧ exec .egressEnqueue s = .next s.egressEnqueue ∧ exec (.egressSelect n) s = .next (s.egressSelect n)
    ∧ exec (.egressFrameEnd n) s = .next (s.frameEnd n) ∧ exec (.gateEntryChange n) s = .next (s.gateChange n)
    ∧ exec (.gateListTakeover n) s = .next (s.gateTakeover n) ∧ exec (.gclValidationDone n) s = .next (s.gclValidated n)
    ∧ exec (.originatedFrameSend n bs) s = .next (s.originate n bs) ∧ exec .originationWindowEnd s = .next s.originEnd
    ∧ exec .dropBudgetWindow s = .next s.budgetWindow ∧ exec (.bankValidationDone b) s = .next (s.validated b)
    ∧ exec (.bankCopyDone b) s = .next (s.copied b) ∧ exec (.bankRetired b) s = .next (s.retired b)
    ∧ exec (.commandAdmit q) s = .next (s.takeHead q) ∧ exec (.completionRecordWrite q) s = .next (s.writeRec q)
    ∧ exec (.hostRequestTimeout q) s = .next (s.hostError q) ∧ exec (.hostCompletionError q) s = .next (s.hostError q)
    ∧ exec .captureDrain s = .next s.drain ∧ exec .spareTileReady s = .next s.spareReady
    ∧ exec .tileMirrorDone s = .next s.mirrorDone
    ∧ (∀ k : Fin 40, exec (.messageWrite k) s = .next (s.messageWrite k) ∧ exec (.replayTimeout k) s = .next (s.replayTimeout k)
        ∧ exec (.delayReq k) s = .next (s.delayReq k) ∧ exec (.laneSettleExpiry k) s = .next (s.settleLink k)
        ∧ exec (.clampRelightStep k) s = .next (s.relightStep k)
        ∧ ∀ power : BitVec 16, exec (.opticalClampTrip k power) s = .next (s.clampTrip k power.toNat))
    ∧ (∀ p : Fin 12, exec (.pairTrainingTimeout p) s = .next (s.trainTimeout p) ∧ exec (.autoRevert p) s = .next (s.autoRevert p))
    ∧ (∀ i : Fin 10, exec (.aprRelease i) s = .next (s.releaseApr i))
    ∧ (∀ bank : Fin 2048, exec (.bankRetireCopyDone bank) s = .next (s.retireDone bank))
    ∧ ∀ k : Fin 48, exec (.aquiferChannelRetire k) s = .next (s.retireChannel k))
  ∧ (∀ (s : State) (q : Fin 80) (stores : List (Nat × List Byte)), (s.hostStores stores).live = true →
    exec (.descriptorFetch q stores) s = .next ((s.hostStores stores).fetchDesc q))
  ∧ (∀ s : State, s.clocked = true → exec .strokeBoundary s = .next s.strokeBoundary
    ∧ exec .openingBoundary s = .next s.openingBoundary ∧ exec .holdoverEntry s = .next s.enterHoldover
    ∧ exec .holdoverExpiry s = .next s.expireHoldover)
  ∧ (∀ (s : State) (n : Fin 24) (mode : Fin 4) (v : Word) (q : Fin 80),
    (s.takesWrite (R.WH_STP_CTRL n) = true → exec (.standpipeFlush n) s = .next (s.flush n))
    ∧ (s.takesWrite (R.WH_LINK_CTRL n) = true → exec (.linkModeWrite n mode) s = .next (s.setMode n mode))
    ∧ (s.takesWrite (R.EG_GCL_CTRL n) = true → exec (.gclCommit n) s = .next (s.gclCommit n))
    ∧ (s.takesWrite R.WH_FE_CTRL = true → exec .flowEndRingEnable s = .next s.enableFlowRing)
    ∧ (∀ off, s.takesWrite off = true → exec (.stagingBankWrite off v) s = .next (s.writeStaging off v.toNat))
    ∧ (s.takesWrite R.STK_PERIOD = true → exec (.stkPeriodWrite v) s = .next (s.writePeriod v.toNat))
    ∧ (s.takesWrite R.STK_CTRL = true → s.pcieUp = true →
      exec .stkEnableSet s = .next s.enableStrokes ∧ exec .stkEnableClear s = .next s.disableStrokes)
    ∧ (s.takesWrite (R.HIF_QCTRL q) = true → exec (.queueEnable q) s = .next (s.enableQueue q)
      ∧ exec (.queueDisable q) s = .next (s.disableQueue q) ∧ exec (.queueStop q) s = .next (s.setStop q)
      ∧ exec (.queueResume q) s = .next (s.clearStop q) ∧ exec (.queueReset q) s = .next (s.resetQueue q))
    ∧ (s.takesWrite R.HIF_EVT_CTRL = true → exec .evtRingEnable s = .next s.enableEvents)
    ∧ (s.frozen = false → exec .eventLoss s = .next s.lossStep)
    ∧ (s.frozen = false → s.barsOpen = true → ∀ ring : Fin 81, exec (.irqHoldoffExpiry ring) s = .next (s.holdoff ring))
    ∧ (∀ vec : Fin 256, s.takesWrite (R.MSIX_CTRL vec) = true → exec (.msixUnmask vec) s = .next (s.unmask vec))
    ∧ (∀ (w : Fin 256) (part : Fin 4), s.takesWrite (R.HIF_DMAW_0 w) = true → s.pcieUp = true →
        exec (.dmaWindowWrite w part v) s = .next (s.rewriteWindow w part v.toNat))
    ∧ (∀ host off enables, (host = true → s.pcieUp = true) → (host = false → s.live = true) →
        exec (.registerWrite host off enables v) s = .next (s.writeReg host off enables.toNat v.toNat))
    ∧ (∀ bar host off size, exec (.registerRead bar host off size) s = .next (s.registerRead bar host off size))
    ∧ ∀ off size, exec (.bar4Read off size) s = .next (s.doBar4Read off size))
end

