-- ==== Sys2Proof/Laws/Table.lean ====
section
/-! SUPPORT. Sparse tables and memories: read after write, and that every operation keeps the canonical form. -/

namespace Sys2Proof.Machine

section
variable {α : Type}

@[simp] theorem sget_sput_same (d : α) (m : SMap α) (k : Nat) (v : α) : sget d (sput m k v) k = v := by
  induction m with
  | nil => simp [sput, sget]
  | cons e m ih =>
    obtain ⟨j, w⟩ := e
    unfold sput
    split
    · simp [sget]
    · split
      · simp [sget]
      · rename_i h; simp [sget, ih, Ne.symm h]

theorem sget_sput_other (d : α) (m : SMap α) {k j : Nat} (v : α) (h : j ≠ k) : sget d (sput m k v) j = sget d m j := by
  induction m with
  | nil => simp [sput, sget, Ne.symm h]
  | cons e m ih =>
    obtain ⟨i, w⟩ := e
    unfold sput
    split
    · simp [sget, Ne.symm h]
    · split
      · rename_i h2; subst h2; simp [sget, Ne.symm h]
      · simp only [sget, ih]

@[simp] theorem sget_filter_same (d : α) (m : SMap α) (k : Nat) : sget d (m.filter fun e => e.1 != k) k = d := by
  induction m with
  | nil => rfl
  | cons e m ih =>
    obtain ⟨j, w⟩ := e
    by_cases hj : j = k
    · simp [hj, ih]
    · simp [hj, sget, ih]

theorem sget_filter_other (d : α) (m : SMap α) {k j : Nat} (h : j ≠ k) :
    sget d (m.filter fun e => e.1 != k) j = sget d m j := by
  induction m with
  | nil => rfl
  | cons e m ih =>
    obtain ⟨i, w⟩ := e
    by_cases hi : i = k
    · simp [hi, ih, sget, Ne.symm h]
    · simp [hi, sget, ih]

/-- A table with every value passed through a function that keeps the default. -/
theorem sget_mapVal (d : α) (f : α → α) (hf : f d = d) (m : SMap α) (k : Nat) :
    sget d (m.map fun e => (e.1, f e.2)) k = f (sget d m k) := by
  induction m with
  | nil => exact hf.symm
  | cons e m ih =>
    obtain ⟨j, v⟩ := e
    show (if j = k then f v else sget d (m.map _) k) = f (if j = k then v else sget d m k)
    by_cases h : j = k
    · rw [if_pos h, if_pos h]
    · rw [if_neg h, if_neg h]; exact ih

variable [DecidableEq α]

/-- What a table reads at the entry just set. -/
@[simp] theorem sget_sset_same (d : α) (m : SMap α) (k : Nat) (v : α) : sget d (sset d m k v) k = v := by
  unfold sset
  split
  · rename_i h; simp [h]
  · simp

/-- What a table reads at every other entry. -/
theorem sget_sset_other (d d' : α) (m : SMap α) {k j : Nat} (v : α) (h : j ≠ k) :
    sget d' (sset d m k v) j = sget d' m j := by
  unfold sset
  split
  · exact sget_filter_other d' m h
  · exact sget_sput_other d' m v h

/-- A table read at any entry after one is set. -/
theorem sget_sset (d : α) (m : SMap α) (k j : Nat) (v : α) : sget d (sset d m k v) j = if j = k then v else sget d m j := by
  split
  · rename_i h; subst h; simp
  · rename_i h; exact sget_sset_other d d m v h

/-- The canonical form, said of the list as a whole. -/
theorem swf_iff (d : α) (m : SMap α) : swf d m = true ↔ (m.map (·.1)).Pairwise (· < ·) ∧ ∀ e ∈ m, e.2 ≠ d := by
  induction m with
  | nil => simp [swf]
  | cons e m ih =>
    cases m with
    | nil => obtain ⟨j, v⟩ := e; simp [swf]
    | cons f m =>
      obtain ⟨j, v⟩ := e
      obtain ⟨k, w⟩ := f
      simp only [swf, Bool.and_eq_true, decide_eq_true_eq, ih]
      simp only [List.map_cons, List.pairwise_cons, List.mem_cons, forall_eq_or_imp, List.mem_map,
        forall_exists_index, and_imp, forall_apply_eq_imp_iff₂]
      constructor
      · rintro ⟨⟨h1, h2⟩, ⟨h3, h4⟩, h5, h6⟩
        exact ⟨⟨⟨h2, fun a ha => Nat.lt_trans h2 (h3 a ha)⟩, h3, h4⟩, h1, h5, h6⟩
      · rintro ⟨⟨⟨h2, _⟩, h3, h4⟩, h1, h5, h6⟩
        exact ⟨⟨h1, h2⟩, ⟨h3, h4⟩, h5, h6⟩

omit [DecidableEq α] in
theorem mem_sput {m : SMap α} {k : Nat} {v : α} {e : Nat × α} (h : e ∈ sput m k v) : e = (k, v) ∨ e ∈ m := by
  induction m with
  | nil => simpa [sput] using h
  | cons f m ih =>
    obtain ⟨j, w⟩ := f
    unfold sput at h
    split at h
    · simpa using h
    · split at h
      · rename_i h2; subst h2
        rcases List.mem_cons.1 h with h | h
        · exact .inl h
        · exact .inr (List.mem_cons_of_mem _ h)
      · rcases List.mem_cons.1 h with h | h
        · exact .inr (h ▸ List.mem_cons_self)
        · rcases ih h with h | h
          · exact .inl h
          · exact .inr (List.mem_cons_of_mem _ h)

omit [DecidableEq α] in
theorem sput_pairwise {m : SMap α} (k : Nat) (v : α) (h : (m.map (·.1)).Pairwise (· < ·)) :
    ((sput m k v).map (·.1)).Pairwise (· < ·) := by
  induction m with
  | nil => simp [sput]
  | cons f m ih =>
    obtain ⟨j, w⟩ := f
    simp only [List.map_cons, List.pairwise_cons, List.mem_map, forall_exists_index, and_imp,
      forall_apply_eq_imp_iff₂] at h
    obtain ⟨h1, h2⟩ := h
    unfold sput
    split
    · rename_i hk
      simp only [List.map_cons, List.pairwise_cons, List.mem_cons, List.mem_map, forall_eq_or_imp,
        forall_exists_index, and_imp, forall_apply_eq_imp_iff₂]
      exact ⟨⟨hk, fun a ha => Nat.lt_trans hk (h1 a ha)⟩, h1, h2⟩
    · split
      · rename_i hk; subst hk
        simp only [List.map_cons, List.pairwise_cons, List.mem_map, forall_exists_index, and_imp,
          forall_apply_eq_imp_iff₂]
        exact ⟨h1, h2⟩
      · rename_i hk1 hk2
        simp only [List.map_cons, List.pairwise_cons, List.mem_map, forall_exists_index, and_imp,
          forall_apply_eq_imp_iff₂]
        refine ⟨fun a ha => ?_, ih h2⟩
        rcases mem_sput ha with ha | ha
        · subst ha; show j < k; omega
        · exact h1 a ha

/-- Setting an entry keeps the canonical form. -/
theorem sset_wf (d : α) (m : SMap α) (k : Nat) (v : α) (h : swf d m = true) : swf d (sset d m k v) = true := by
  rw [swf_iff] at h ⊢
  obtain ⟨h1, h2⟩ := h
  unfold sset
  split
  · refine ⟨?_, fun e he => h2 e (List.mem_filter.1 he).1⟩
    exact h1.sublist ((List.filter_sublist (l := m)).map _)
  · rename_i hv
    refine ⟨sput_pairwise k v h1, fun e he => ?_⟩
    rcases mem_sput he with he | he
    · subst he; exact hv
    · exact h2 e he

end

/-- A byte written is read back; every other byte keeps its value. -/
theorem Memory.byte_setByte (m : Mem) (a b : Nat) (v : Byte) :
    Memory.byte (Memory.setByte m a v) b = if b = a then v else Memory.byte m b := sget_sset 0 m a b v

/-- Writing a byte keeps the canonical form. -/
theorem Memory.setByte_wf (m : Mem) (a : Nat) (v : Byte) (h : Memory.wf m = true) :
    Memory.wf (Memory.setByte m a v) = true := sset_wf 0 m a v h

/-- Writing a run of bytes keeps the canonical form. -/
theorem Memory.write_wf (bs : List Byte) : ∀ (m : Mem) (a : Nat), Memory.wf m = true → Memory.wf (Memory.write m a bs) = true := by
  induction bs with
  | nil => intro m a h; exact h
  | cons b bs ih => intro m a h; exact ih _ _ (Memory.setByte_wf m a b h)

/-- A memory read at any address after a run of bytes is written. -/
theorem Memory.byte_write (bs : List Byte) : ∀ (m : Mem) (a b : Nat),
    Memory.byte (Memory.write m a bs) b = if a ≤ b ∧ b < a + bs.length then bs.getD (b - a) 0 else Memory.byte m b := by
  induction bs with
  | nil =>
    intro m a b
    have h : ¬(a ≤ b ∧ b < a + ([] : List Byte).length) := by
      intro h
      have := h.2
      rw [List.length_nil] at this
      omega
    rw [if_neg h]
    rfl
  | cons v bs ih =>
    intro m a b
    have hl : (v :: bs).length = bs.length + 1 := rfl
    show Memory.byte (Memory.write (Memory.setByte m a v) (a + 1) bs) b = _
    rw [ih, Memory.byte_setByte, hl]
    by_cases h1 : b = a
    · have h2 : ¬(a + 1 ≤ b ∧ b < a + 1 + bs.length) := by omega
      have h3 : a ≤ b ∧ b < a + (bs.length + 1) := by omega
      have h4 : b - a = 0 := by omega
      rw [if_neg h2, if_pos h1, if_pos h3, h4]
      rfl
    · by_cases h2 : a + 1 ≤ b ∧ b < a + 1 + bs.length
      · have h3 : a ≤ b ∧ b < a + (bs.length + 1) := by omega
        have h4 : b - a = (b - (a + 1)) + 1 := by omega
        rw [if_pos h2, if_pos h3, h4]
        rfl
      · have h3 : ¬(a ≤ b ∧ b < a + (bs.length + 1)) := by omega
        rw [if_neg h2, if_neg h1, if_neg h3]

end Sys2Proof.Machine
end

