-- ==== Sys2Proof/Laws/Fields.lean ====
section
/-! SUPPORT. Registers and fields: what reads as what after a write, and what a field's write leaves alone. -/

namespace Sys2Proof.Machine

@[simp] theorem word_setWord_same (s : State) (off : Nat) (v : Word) : (s.setWord off v).word off = v := by
  simp [State.word, State.setWord]

theorem word_setWord_other (s : State) {off o : Nat} (v : Word) (h : o ≠ off) : (s.setWord off v).word o = s.word o := by
  simp [State.word, State.setWord, sget_sset_other _ _ _ _ h]

/-- A field of another register keeps its value. -/
theorem get_setWord_other (s : State) {off : Nat} (f : Fld) (v : Word) (h : f.reg ≠ off) :
    (s.setWord off v).get f = s.get f := by
  simp [State.get, word_setWord_other s v h]

theorem get_put_otherReg (s : State) (f g : Fld) (v : Nat) (h : g.reg ≠ f.reg) : (s.put f v).get g = s.get g :=
  get_setWord_other s g _ h

theorem bits_le (v lo w : Nat) : bits v lo w * 2 ^ lo ≤ v := by
  unfold bits
  have h1 : v / 2 ^ lo % 2 ^ w ≤ v / 2 ^ lo := Nat.mod_le _ _
  calc v / 2 ^ lo % 2 ^ w * 2 ^ lo ≤ v / 2 ^ lo * 2 ^ lo := Nat.mul_le_mul_right _ h1
    _ ≤ v := Nat.div_mul_le_self _ _

theorem bits_lt (v lo w : Nat) : bits v lo w < 2 ^ w := Nat.mod_lt _ (Nat.two_pow_pos w)

/-- The bits of a number below `lo`, those of the field, and those above. -/
theorem split_bits (v lo w : Nat) : v = v % 2 ^ lo + bits v lo w * 2 ^ lo + v / 2 ^ (lo + w) * 2 ^ (lo + w) := by
  unfold bits
  have h1 : v / 2 ^ lo * 2 ^ lo + v % 2 ^ lo = v := Nat.div_add_mod' v (2 ^ lo)
  have h2 : v / 2 ^ lo / 2 ^ w * 2 ^ w + v / 2 ^ lo % 2 ^ w = v / 2 ^ lo := Nat.div_add_mod' _ _
  have h3 : v / 2 ^ (lo + w) = v / 2 ^ lo / 2 ^ w := by rw [Nat.pow_add, Nat.div_div_eq_div_mul]
  rw [h3, Nat.pow_add]
  generalize v / 2 ^ lo / 2 ^ w = p at *
  generalize v / 2 ^ lo % 2 ^ w = q at *
  generalize v / 2 ^ lo = r at *
  subst h2
  have : (p * 2 ^ w + q) * 2 ^ lo = p * (2 ^ lo * 2 ^ w) + q * 2 ^ lo := by
    rw [Nat.add_mul, Nat.mul_comm (2 ^ lo), Nat.mul_assoc]
  omega

theorem setBits_eq (v lo w x : Nat) :
    setBits v lo w x = v % 2 ^ lo + (x % 2 ^ w) * 2 ^ lo + v / 2 ^ (lo + w) * 2 ^ (lo + w) := by
  have h := split_bits v lo w
  unfold setBits
  omega

@[simp] theorem bits_setBits_same (v lo w x : Nat) : bits (setBits v lo w x) lo w = x % 2 ^ w := by
  rw [setBits_eq, bits, Nat.pow_add]
  have h0 : v % 2 ^ lo < 2 ^ lo := Nat.mod_lt _ (Nat.two_pow_pos lo)
  have h1 : v % 2 ^ lo + x % 2 ^ w * 2 ^ lo + v / (2 ^ lo * 2 ^ w) * (2 ^ lo * 2 ^ w)
      = v % 2 ^ lo + 2 ^ lo * (x % 2 ^ w + 2 ^ w * (v / (2 ^ lo * 2 ^ w))) := by
    rw [Nat.mul_add, Nat.mul_comm (2 ^ lo) (x % 2 ^ w), Nat.mul_comm (v / _), Nat.mul_assoc, Nat.add_assoc]
  rw [h1, Nat.add_mul_div_left _ _ (Nat.two_pow_pos lo), Nat.div_eq_of_lt h0, Nat.zero_add, Nat.add_mul_mod_self_left,
    Nat.mod_mod]

theorem bits_testBit (v lo w i : Nat) : (bits v lo w).testBit i = (decide (i < w) && v.testBit (lo + i)) := by
  rw [bits, Nat.testBit_mod_two_pow, Nat.testBit_div_two_pow, Nat.add_comm]

theorem setBits_testBit (v lo w x i : Nat) :
    (setBits v lo w x).testBit i = if lo ≤ i ∧ i < lo + w then x.testBit (i - lo) else v.testBit i := by
  have e : setBits v lo w x = 2 ^ lo * (2 ^ w * (v / 2 ^ (lo + w)) + x % 2 ^ w) + v % 2 ^ lo := by
    rw [setBits_eq, Nat.pow_add, Nat.mul_add, Nat.mul_comm (2 ^ lo) (x % 2 ^ w), Nat.mul_comm (v / _), Nat.mul_assoc]
    omega
  rw [e, Nat.testBit_two_pow_mul_add _ (Nat.mod_lt _ (Nat.two_pow_pos lo)),
    Nat.testBit_two_pow_mul_add _ (Nat.mod_lt _ (Nat.two_pow_pos w))]
  simp only [Nat.testBit_mod_two_pow, Nat.testBit_div_two_pow]
  by_cases h1 : i < lo
  · simp [h1, Nat.not_le.2 h1]
  · by_cases h2 : i - lo < w
    · have h3 : lo ≤ i ∧ i < lo + w := by omega
      simp [h1, h2, h3]
    · have h3 : ¬(lo ≤ i ∧ i < lo + w) := by omega
      have h4 : i - lo - w + (lo + w) = i := by omega
      simp only [h1, h2, h3, if_false, h4]

/-- A field beside the one set keeps its value. -/
theorem bits_setBits_other (v lo w x lo' w' : Nat) (h : lo' + w' ≤ lo ∨ lo + w ≤ lo') :
    bits (setBits v lo w x) lo' w' = bits v lo' w' := by
  apply Nat.eq_of_testBit_eq
  intro i
  rw [bits_testBit, bits_testBit]
  by_cases hi : i < w'
  · rw [setBits_testBit, if_neg]; omega
  · simp [hi]

theorem bits_mod32 (v lo w : Nat) (h : lo + w ≤ 32) : bits (v % 2 ^ 32) lo w = bits v lo w := by
  apply Nat.eq_of_testBit_eq
  intro i
  rw [bits_testBit, bits_testBit, Nat.testBit_mod_two_pow]
  by_cases hi : i < w
  · have : lo + i < 32 := by omega
    simp [this]
  · simp [hi]

/-- A field reads as what was put into it, cut to its width. -/
theorem get_put_same (s : State) (f : Fld) (v : Nat) (h : f.lo + f.w ≤ 32) : (s.put f v).get f = v % 2 ^ f.w := by
  simp only [State.get, State.put, word_setWord_same, BitVec.toNat_ofNat, bits_mod32 _ _ _ h]
  exact bits_setBits_same _ _ _ _

/-- Every other field keeps its value: of another register, or of the same one beside it. -/
theorem get_put_other (s : State) (f g : Fld) (v : Nat) (hg : g.lo + g.w ≤ 32)
    (h : g.reg ≠ f.reg ∨ g.lo + g.w ≤ f.lo ∨ f.lo + f.w ≤ g.lo) : (s.put f v).get g = s.get g := by
  by_cases hr : g.reg = f.reg
  · have h' : g.lo + g.w ≤ f.lo ∨ f.lo + f.w ≤ g.lo := by
      rcases h with h | h
      · exact absurd hr h
      · exact h
    simp only [State.get, State.put, hr, word_setWord_same, BitVec.toNat_ofNat, bits_mod32 _ _ _ hg]
    exact bits_setBits_other _ _ _ _ _ _ h'
  · exact get_put_otherReg s f g v hr

/-- A one-bit field put from a Bool reads as that Bool. -/
theorem on_putB_same (s : State) (f : Fld) (b : Bool) (hw : f.w = 1) (h : f.lo + f.w ≤ 32) : (s.putB f b).on f = b := by
  simp only [State.on, State.putB, get_put_same s f _ h, hw]
  cases b <;> rfl

/-- A 64-bit quantity reads as what was put into it, modulo 2^64. -/
theorem get64_put64 (s : State) (lo v : Nat) : (s.put64 lo v).get64 lo = v % 2 ^ 64 := by
  simp only [State.get64, State.put64, word_setWord_same]
  rw [word_setWord_other _ _ (by omega), word_setWord_same]
  simp only [BitVec.toNat_ofNat]
  omega

/-- A register outside the two halves keeps its word. -/
theorem word_put64_other (s : State) {lo o : Nat} (v : Nat) (h : o ≠ lo) (h' : o ≠ lo + 4) : (s.put64 lo v).word o = s.word o := by
  rw [State.put64, word_setWord_other _ _ h', word_setWord_other _ _ h]

end Sys2Proof.Machine
end

