-- ==== Sys2Proof/Laws/State.lean ====
section
/-! SUPPORT. One lemma per field of the state per named update, and what the fields it changes become. -/

namespace Sys2Proof.Machine

/-! ## setWord -/

@[simp] theorem State.setWord_phase (s : State) (off : Nat) (v : Word) : (s.setWord off v).phase = s.phase := rfl
@[simp] theorem State.setWord_clk (s : State) (off : Nat) (v : Word) : (s.setWord off v).clk = s.clk := rfl
@[simp] theorem State.setWord_inForce (s : State) (off : Nat) (v : Word) : (s.setWord off v).inForce = s.inForce := rfl
@[simp] theorem State.setWord_host (s : State) (off : Nat) (v : Word) : (s.setWord off v).host = s.host := rfl
@[simp] theorem State.setWord_intake (s : State) (off : Nat) (v : Word) : (s.setWord off v).intake = s.intake := rfl
@[simp] theorem State.setWord_flow (s : State) (off : Nat) (v : Word) : (s.setWord off v).flow = s.flow := rfl
@[simp] theorem State.setWord_banks (s : State) (off : Nat) (v : Word) : (s.setWord off v).banks = s.banks := rfl
@[simp] theorem State.setWord_egress (s : State) (off : Nat) (v : Word) : (s.setWord off v).egress = s.egress := rfl
@[simp] theorem State.setWord_mems (s : State) (off : Nat) (v : Word) : (s.setWord off v).mems = s.mems := rfl
@[simp] theorem State.setWord_capture (s : State) (off : Nat) (v : Word) : (s.setWord off v).capture = s.capture := rfl
@[simp] theorem State.setWord_matrix (s : State) (off : Nat) (v : Word) : (s.setWord off v).matrix = s.matrix := rfl
@[simp] theorem State.setWord_seqs (s : State) (off : Nat) (v : Word) : (s.setWord off v).seqs = s.seqs := rfl
@[simp] theorem State.setWord_models (s : State) (off : Nat) (v : Word) : (s.setWord off v).models = s.models := rfl
@[simp] theorem State.setWord_pairs (s : State) (off : Nat) (v : Word) : (s.setWord off v).pairs = s.pairs := rfl
@[simp] theorem State.setWord_links (s : State) (off : Nat) (v : Word) : (s.setWord off v).links = s.links := rfl
@[simp] theorem State.setWord_luapo (s : State) (off : Nat) (v : Word) : (s.setWord off v).luapo = s.luapo := rfl
@[simp] theorem State.setWord_routes (s : State) (off : Nat) (v : Word) : (s.setWord off v).routes = s.routes := rfl
@[simp] theorem State.setWord_losClear (s : State) (off : Nat) (v : Word) : (s.setWord off v).losClear = s.losClear := rfl
@[simp] theorem State.setWord_sec (s : State) (off : Nat) (v : Word) : (s.setWord off v).sec = s.sec := rfl
@[simp] theorem State.setWord_nv (s : State) (off : Nat) (v : Word) : (s.setWord off v).nv = s.nv := rfl
@[simp] theorem State.setWord_power (s : State) (off : Nat) (v : Word) : (s.setWord off v).power = s.power := rfl
@[simp] theorem State.setWord_pins (s : State) (off : Nat) (v : Word) : (s.setWord off v).pins = s.pins := rfl
@[simp] theorem State.setWord_dbg (s : State) (off : Nat) (v : Word) : (s.setWord off v).dbg = s.dbg := rfl
@[simp] theorem State.setWord_mgmt (s : State) (off : Nat) (v : Word) : (s.setWord off v).mgmt = s.mgmt := rfl
@[simp] theorem State.setWord_dbgClock (s : State) (off : Nat) (v : Word) : (s.setWord off v).dbgClock = s.dbgClock := rfl
@[simp] theorem State.setWord_trigger (s : State) (off : Nat) (v : Word) : (s.setWord off v).trigger = s.trigger := rfl
@[simp] theorem State.setWord_out (s : State) (off : Nat) (v : Word) : (s.setWord off v).out = s.out := rfl
@[simp] theorem State.setWord_fresh (s : State) (off : Nat) (v : Word) : (s.setWord off v).fresh = s.fresh := rfl
@[simp] theorem State.setWord_pending (s : State) (off : Nat) (v : Word) : (s.setWord off v).pending = s.pending := rfl

/-! ## put -/

@[simp] theorem State.put_phase (s : State) (f : Fld) (v : Nat) : (s.put f v).phase = s.phase := rfl
@[simp] theorem State.put_clk (s : State) (f : Fld) (v : Nat) : (s.put f v).clk = s.clk := rfl
@[simp] theorem State.put_inForce (s : State) (f : Fld) (v : Nat) : (s.put f v).inForce = s.inForce := rfl
@[simp] theorem State.put_host (s : State) (f : Fld) (v : Nat) : (s.put f v).host = s.host := rfl
@[simp] theorem State.put_intake (s : State) (f : Fld) (v : Nat) : (s.put f v).intake = s.intake := rfl
@[simp] theorem State.put_flow (s : State) (f : Fld) (v : Nat) : (s.put f v).flow = s.flow := rfl
@[simp] theorem State.put_banks (s : State) (f : Fld) (v : Nat) : (s.put f v).banks = s.banks := rfl
@[simp] theorem State.put_egress (s : State) (f : Fld) (v : Nat) : (s.put f v).egress = s.egress := rfl
@[simp] theorem State.put_mems (s : State) (f : Fld) (v : Nat) : (s.put f v).mems = s.mems := rfl
@[simp] theorem State.put_capture (s : State) (f : Fld) (v : Nat) : (s.put f v).capture = s.capture := rfl
@[simp] theorem State.put_matrix (s : State) (f : Fld) (v : Nat) : (s.put f v).matrix = s.matrix := rfl
@[simp] theorem State.put_seqs (s : State) (f : Fld) (v : Nat) : (s.put f v).seqs = s.seqs := rfl
@[simp] theorem State.put_models (s : State) (f : Fld) (v : Nat) : (s.put f v).models = s.models := rfl
@[simp] theorem State.put_pairs (s : State) (f : Fld) (v : Nat) : (s.put f v).pairs = s.pairs := rfl
@[simp] theorem State.put_links (s : State) (f : Fld) (v : Nat) : (s.put f v).links = s.links := rfl
@[simp] theorem State.put_luapo (s : State) (f : Fld) (v : Nat) : (s.put f v).luapo = s.luapo := rfl
@[simp] theorem State.put_routes (s : State) (f : Fld) (v : Nat) : (s.put f v).routes = s.routes := rfl
@[simp] theorem State.put_losClear (s : State) (f : Fld) (v : Nat) : (s.put f v).losClear = s.losClear := rfl
@[simp] theorem State.put_sec (s : State) (f : Fld) (v : Nat) : (s.put f v).sec = s.sec := rfl
@[simp] theorem State.put_nv (s : State) (f : Fld) (v : Nat) : (s.put f v).nv = s.nv := rfl
@[simp] theorem State.put_power (s : State) (f : Fld) (v : Nat) : (s.put f v).power = s.power := rfl
@[simp] theorem State.put_pins (s : State) (f : Fld) (v : Nat) : (s.put f v).pins = s.pins := rfl
@[simp] theorem State.put_dbg (s : State) (f : Fld) (v : Nat) : (s.put f v).dbg = s.dbg := rfl
@[simp] theorem State.put_mgmt (s : State) (f : Fld) (v : Nat) : (s.put f v).mgmt = s.mgmt := rfl
@[simp] theorem State.put_dbgClock (s : State) (f : Fld) (v : Nat) : (s.put f v).dbgClock = s.dbgClock := rfl
@[simp] theorem State.put_trigger (s : State) (f : Fld) (v : Nat) : (s.put f v).trigger = s.trigger := rfl
@[simp] theorem State.put_out (s : State) (f : Fld) (v : Nat) : (s.put f v).out = s.out := rfl
@[simp] theorem State.put_fresh (s : State) (f : Fld) (v : Nat) : (s.put f v).fresh = s.fresh := rfl
@[simp] theorem State.put_pending (s : State) (f : Fld) (v : Nat) : (s.put f v).pending = s.pending := rfl

/-! ## putB -/

@[simp] theorem State.putB_phase (s : State) (f : Fld) (b : Bool) : (s.putB f b).phase = s.phase := rfl
@[simp] theorem State.putB_clk (s : State) (f : Fld) (b : Bool) : (s.putB f b).clk = s.clk := rfl
@[simp] theorem State.putB_inForce (s : State) (f : Fld) (b : Bool) : (s.putB f b).inForce = s.inForce := rfl
@[simp] theorem State.putB_host (s : State) (f : Fld) (b : Bool) : (s.putB f b).host = s.host := rfl
@[simp] theorem State.putB_intake (s : State) (f : Fld) (b : Bool) : (s.putB f b).intake = s.intake := rfl
@[simp] theorem State.putB_flow (s : State) (f : Fld) (b : Bool) : (s.putB f b).flow = s.flow := rfl
@[simp] theorem State.putB_banks (s : State) (f : Fld) (b : Bool) : (s.putB f b).banks = s.banks := rfl
@[simp] theorem State.putB_egress (s : State) (f : Fld) (b : Bool) : (s.putB f b).egress = s.egress := rfl
@[simp] theorem State.putB_mems (s : State) (f : Fld) (b : Bool) : (s.putB f b).mems = s.mems := rfl
@[simp] theorem State.putB_capture (s : State) (f : Fld) (b : Bool) : (s.putB f b).capture = s.capture := rfl
@[simp] theorem State.putB_matrix (s : State) (f : Fld) (b : Bool) : (s.putB f b).matrix = s.matrix := rfl
@[simp] theorem State.putB_seqs (s : State) (f : Fld) (b : Bool) : (s.putB f b).seqs = s.seqs := rfl
@[simp] theorem State.putB_models (s : State) (f : Fld) (b : Bool) : (s.putB f b).models = s.models := rfl
@[simp] theorem State.putB_pairs (s : State) (f : Fld) (b : Bool) : (s.putB f b).pairs = s.pairs := rfl
@[simp] theorem State.putB_links (s : State) (f : Fld) (b : Bool) : (s.putB f b).links = s.links := rfl
@[simp] theorem State.putB_luapo (s : State) (f : Fld) (b : Bool) : (s.putB f b).luapo = s.luapo := rfl
@[simp] theorem State.putB_routes (s : State) (f : Fld) (b : Bool) : (s.putB f b).routes = s.routes := rfl
@[simp] theorem State.putB_losClear (s : State) (f : Fld) (b : Bool) : (s.putB f b).losClear = s.losClear := rfl
@[simp] theorem State.putB_sec (s : State) (f : Fld) (b : Bool) : (s.putB f b).sec = s.sec := rfl
@[simp] theorem State.putB_nv (s : State) (f : Fld) (b : Bool) : (s.putB f b).nv = s.nv := rfl
@[simp] theorem State.putB_power (s : State) (f : Fld) (b : Bool) : (s.putB f b).power = s.power := rfl
@[simp] theorem State.putB_pins (s : State) (f : Fld) (b : Bool) : (s.putB f b).pins = s.pins := rfl
@[simp] theorem State.putB_dbg (s : State) (f : Fld) (b : Bool) : (s.putB f b).dbg = s.dbg := rfl
@[simp] theorem State.putB_mgmt (s : State) (f : Fld) (b : Bool) : (s.putB f b).mgmt = s.mgmt := rfl
@[simp] theorem State.putB_dbgClock (s : State) (f : Fld) (b : Bool) : (s.putB f b).dbgClock = s.dbgClock := rfl
@[simp] theorem State.putB_trigger (s : State) (f : Fld) (b : Bool) : (s.putB f b).trigger = s.trigger := rfl
@[simp] theorem State.putB_out (s : State) (f : Fld) (b : Bool) : (s.putB f b).out = s.out := rfl
@[simp] theorem State.putB_fresh (s : State) (f : Fld) (b : Bool) : (s.putB f b).fresh = s.fresh := rfl
@[simp] theorem State.putB_pending (s : State) (f : Fld) (b : Bool) : (s.putB f b).pending = s.pending := rfl

/-! ## put64 -/

@[simp] theorem State.put64_phase (s : State) (lo v : Nat) : (s.put64 lo v).phase = s.phase := rfl
@[simp] theorem State.put64_clk (s : State) (lo v : Nat) : (s.put64 lo v).clk = s.clk := rfl
@[simp] theorem State.put64_inForce (s : State) (lo v : Nat) : (s.put64 lo v).inForce = s.inForce := rfl
@[simp] theorem State.put64_host (s : State) (lo v : Nat) : (s.put64 lo v).host = s.host := rfl
@[simp] theorem State.put64_intake (s : State) (lo v : Nat) : (s.put64 lo v).intake = s.intake := rfl
@[simp] theorem State.put64_flow (s : State) (lo v : Nat) : (s.put64 lo v).flow = s.flow := rfl
@[simp] theorem State.put64_banks (s : State) (lo v : Nat) : (s.put64 lo v).banks = s.banks := rfl
@[simp] theorem State.put64_egress (s : State) (lo v : Nat) : (s.put64 lo v).egress = s.egress := rfl
@[simp] theorem State.put64_mems (s : State) (lo v : Nat) : (s.put64 lo v).mems = s.mems := rfl
@[simp] theorem State.put64_capture (s : State) (lo v : Nat) : (s.put64 lo v).capture = s.capture := rfl
@[simp] theorem State.put64_matrix (s : State) (lo v : Nat) : (s.put64 lo v).matrix = s.matrix := rfl
@[simp] theorem State.put64_seqs (s : State) (lo v : Nat) : (s.put64 lo v).seqs = s.seqs := rfl
@[simp] theorem State.put64_models (s : State) (lo v : Nat) : (s.put64 lo v).models = s.models := rfl
@[simp] theorem State.put64_pairs (s : State) (lo v : Nat) : (s.put64 lo v).pairs = s.pairs := rfl
@[simp] theorem State.put64_links (s : State) (lo v : Nat) : (s.put64 lo v).links = s.links := rfl
@[simp] theorem State.put64_luapo (s : State) (lo v : Nat) : (s.put64 lo v).luapo = s.luapo := rfl
@[simp] theorem State.put64_routes (s : State) (lo v : Nat) : (s.put64 lo v).routes = s.routes := rfl
@[simp] theorem State.put64_losClear (s : State) (lo v : Nat) : (s.put64 lo v).losClear = s.losClear := rfl
@[simp] theorem State.put64_sec (s : State) (lo v : Nat) : (s.put64 lo v).sec = s.sec := rfl
@[simp] theorem State.put64_nv (s : State) (lo v : Nat) : (s.put64 lo v).nv = s.nv := rfl
@[simp] theorem State.put64_power (s : State) (lo v : Nat) : (s.put64 lo v).power = s.power := rfl
@[simp] theorem State.put64_pins (s : State) (lo v : Nat) : (s.put64 lo v).pins = s.pins := rfl
@[simp] theorem State.put64_dbg (s : State) (lo v : Nat) : (s.put64 lo v).dbg = s.dbg := rfl
@[simp] theorem State.put64_mgmt (s : State) (lo v : Nat) : (s.put64 lo v).mgmt = s.mgmt := rfl
@[simp] theorem State.put64_dbgClock (s : State) (lo v : Nat) : (s.put64 lo v).dbgClock = s.dbgClock := rfl
@[simp] theorem State.put64_trigger (s : State) (lo v : Nat) : (s.put64 lo v).trigger = s.trigger := rfl
@[simp] theorem State.put64_out (s : State) (lo v : Nat) : (s.put64 lo v).out = s.out := rfl
@[simp] theorem State.put64_fresh (s : State) (lo v : Nat) : (s.put64 lo v).fresh = s.fresh := rfl
@[simp] theorem State.put64_pending (s : State) (lo v : Nat) : (s.put64 lo v).pending = s.pending := rfl

/-! ## bump -/

@[simp] theorem State.bump_phase (s : State) (f : Fld) (n : Nat) : (s.bump f n).phase = s.phase := rfl
@[simp] theorem State.bump_clk (s : State) (f : Fld) (n : Nat) : (s.bump f n).clk = s.clk := rfl
@[simp] theorem State.bump_inForce (s : State) (f : Fld) (n : Nat) : (s.bump f n).inForce = s.inForce := rfl
@[simp] theorem State.bump_host (s : State) (f : Fld) (n : Nat) : (s.bump f n).host = s.host := rfl
@[simp] theorem State.bump_intake (s : State) (f : Fld) (n : Nat) : (s.bump f n).intake = s.intake := rfl
@[simp] theorem State.bump_flow (s : State) (f : Fld) (n : Nat) : (s.bump f n).flow = s.flow := rfl
@[simp] theorem State.bump_banks (s : State) (f : Fld) (n : Nat) : (s.bump f n).banks = s.banks := rfl
@[simp] theorem State.bump_egress (s : State) (f : Fld) (n : Nat) : (s.bump f n).egress = s.egress := rfl
@[simp] theorem State.bump_mems (s : State) (f : Fld) (n : Nat) : (s.bump f n).mems = s.mems := rfl
@[simp] theorem State.bump_capture (s : State) (f : Fld) (n : Nat) : (s.bump f n).capture = s.capture := rfl
@[simp] theorem State.bump_matrix (s : State) (f : Fld) (n : Nat) : (s.bump f n).matrix = s.matrix := rfl
@[simp] theorem State.bump_seqs (s : State) (f : Fld) (n : Nat) : (s.bump f n).seqs = s.seqs := rfl
@[simp] theorem State.bump_models (s : State) (f : Fld) (n : Nat) : (s.bump f n).models = s.models := rfl
@[simp] theorem State.bump_pairs (s : State) (f : Fld) (n : Nat) : (s.bump f n).pairs = s.pairs := rfl
@[simp] theorem State.bump_links (s : State) (f : Fld) (n : Nat) : (s.bump f n).links = s.links := rfl
@[simp] theorem State.bump_luapo (s : State) (f : Fld) (n : Nat) : (s.bump f n).luapo = s.luapo := rfl
@[simp] theorem State.bump_routes (s : State) (f : Fld) (n : Nat) : (s.bump f n).routes = s.routes := rfl
@[simp] theorem State.bump_losClear (s : State) (f : Fld) (n : Nat) : (s.bump f n).losClear = s.losClear := rfl
@[simp] theorem State.bump_sec (s : State) (f : Fld) (n : Nat) : (s.bump f n).sec = s.sec := rfl
@[simp] theorem State.bump_nv (s : State) (f : Fld) (n : Nat) : (s.bump f n).nv = s.nv := rfl
@[simp] theorem State.bump_power (s : State) (f : Fld) (n : Nat) : (s.bump f n).power = s.power := rfl
@[simp] theorem State.bump_pins (s : State) (f : Fld) (n : Nat) : (s.bump f n).pins = s.pins := rfl
@[simp] theorem State.bump_dbg (s : State) (f : Fld) (n : Nat) : (s.bump f n).dbg = s.dbg := rfl
@[simp] theorem State.bump_mgmt (s : State) (f : Fld) (n : Nat) : (s.bump f n).mgmt = s.mgmt := rfl
@[simp] theorem State.bump_dbgClock (s : State) (f : Fld) (n : Nat) : (s.bump f n).dbgClock = s.dbgClock := rfl
@[simp] theorem State.bump_trigger (s : State) (f : Fld) (n : Nat) : (s.bump f n).trigger = s.trigger := rfl
@[simp] theorem State.bump_out (s : State) (f : Fld) (n : Nat) : (s.bump f n).out = s.out := rfl
@[simp] theorem State.bump_fresh (s : State) (f : Fld) (n : Nat) : (s.bump f n).fresh = s.fresh := rfl
@[simp] theorem State.bump_pending (s : State) (f : Fld) (n : Nat) : (s.bump f n).pending = s.pending := rfl

/-! ## bumpSat -/

@[simp] theorem State.bumpSat_phase (s : State) (f : Fld) (n : Nat) : (s.bumpSat f n).phase = s.phase := rfl
@[simp] theorem State.bumpSat_clk (s : State) (f : Fld) (n : Nat) : (s.bumpSat f n).clk = s.clk := rfl
@[simp] theorem State.bumpSat_inForce (s : State) (f : Fld) (n : Nat) : (s.bumpSat f n).inForce = s.inForce := rfl
@[simp] theorem State.bumpSat_host (s : State) (f : Fld) (n : Nat) : (s.bumpSat f n).host = s.host := rfl
@[simp] theorem State.bumpSat_intake (s : State) (f : Fld) (n : Nat) : (s.bumpSat f n).intake = s.intake := rfl
@[simp] theorem State.bumpSat_flow (s : State) (f : Fld) (n : Nat) : (s.bumpSat f n).flow = s.flow := rfl
@[simp] theorem State.bumpSat_banks (s : State) (f : Fld) (n : Nat) : (s.bumpSat f n).banks = s.banks := rfl
@[simp] theorem State.bumpSat_egress (s : State) (f : Fld) (n : Nat) : (s.bumpSat f n).egress = s.egress := rfl
@[simp] theorem State.bumpSat_mems (s : State) (f : Fld) (n : Nat) : (s.bumpSat f n).mems = s.mems := rfl
@[simp] theorem State.bumpSat_capture (s : State) (f : Fld) (n : Nat) : (s.bumpSat f n).capture = s.capture := rfl
@[simp] theorem State.bumpSat_matrix (s : State) (f : Fld) (n : Nat) : (s.bumpSat f n).matrix = s.matrix := rfl
@[simp] theorem State.bumpSat_seqs (s : State) (f : Fld) (n : Nat) : (s.bumpSat f n).seqs = s.seqs := rfl
@[simp] theorem State.bumpSat_models (s : State) (f : Fld) (n : Nat) : (s.bumpSat f n).models = s.models := rfl
@[simp] theorem State.bumpSat_pairs (s : State) (f : Fld) (n : Nat) : (s.bumpSat f n).pairs = s.pairs := rfl
@[simp] theorem State.bumpSat_links (s : State) (f : Fld) (n : Nat) : (s.bumpSat f n).links = s.links := rfl
@[simp] theorem State.bumpSat_luapo (s : State) (f : Fld) (n : Nat) : (s.bumpSat f n).luapo = s.luapo := rfl
@[simp] theorem State.bumpSat_routes (s : State) (f : Fld) (n : Nat) : (s.bumpSat f n).routes = s.routes := rfl
@[simp] theorem State.bumpSat_losClear (s : State) (f : Fld) (n : Nat) : (s.bumpSat f n).losClear = s.losClear := rfl
@[simp] theorem State.bumpSat_sec (s : State) (f : Fld) (n : Nat) : (s.bumpSat f n).sec = s.sec := rfl
@[simp] theorem State.bumpSat_nv (s : State) (f : Fld) (n : Nat) : (s.bumpSat f n).nv = s.nv := rfl
@[simp] theorem State.bumpSat_power (s : State) (f : Fld) (n : Nat) : (s.bumpSat f n).power = s.power := rfl
@[simp] theorem State.bumpSat_pins (s : State) (f : Fld) (n : Nat) : (s.bumpSat f n).pins = s.pins := rfl
@[simp] theorem State.bumpSat_dbg (s : State) (f : Fld) (n : Nat) : (s.bumpSat f n).dbg = s.dbg := rfl
@[simp] theorem State.bumpSat_mgmt (s : State) (f : Fld) (n : Nat) : (s.bumpSat f n).mgmt = s.mgmt := rfl
@[simp] theorem State.bumpSat_dbgClock (s : State) (f : Fld) (n : Nat) : (s.bumpSat f n).dbgClock = s.dbgClock := rfl
@[simp] theorem State.bumpSat_trigger (s : State) (f : Fld) (n : Nat) : (s.bumpSat f n).trigger = s.trigger := rfl
@[simp] theorem State.bumpSat_out (s : State) (f : Fld) (n : Nat) : (s.bumpSat f n).out = s.out := rfl
@[simp] theorem State.bumpSat_fresh (s : State) (f : Fld) (n : Nat) : (s.bumpSat f n).fresh = s.fresh := rfl
@[simp] theorem State.bumpSat_pending (s : State) (f : Fld) (n : Nat) : (s.bumpSat f n).pending = s.pending := rfl

/-! ## bump64 -/

@[simp] theorem State.bump64_phase (s : State) (lo n : Nat) : (s.bump64 lo n).phase = s.phase := rfl
@[simp] theorem State.bump64_clk (s : State) (lo n : Nat) : (s.bump64 lo n).clk = s.clk := rfl
@[simp] theorem State.bump64_inForce (s : State) (lo n : Nat) : (s.bump64 lo n).inForce = s.inForce := rfl
@[simp] theorem State.bump64_host (s : State) (lo n : Nat) : (s.bump64 lo n).host = s.host := rfl
@[simp] theorem State.bump64_intake (s : State) (lo n : Nat) : (s.bump64 lo n).intake = s.intake := rfl
@[simp] theorem State.bump64_flow (s : State) (lo n : Nat) : (s.bump64 lo n).flow = s.flow := rfl
@[simp] theorem State.bump64_banks (s : State) (lo n : Nat) : (s.bump64 lo n).banks = s.banks := rfl
@[simp] theorem State.bump64_egress (s : State) (lo n : Nat) : (s.bump64 lo n).egress = s.egress := rfl
@[simp] theorem State.bump64_mems (s : State) (lo n : Nat) : (s.bump64 lo n).mems = s.mems := rfl
@[simp] theorem State.bump64_capture (s : State) (lo n : Nat) : (s.bump64 lo n).capture = s.capture := rfl
@[simp] theorem State.bump64_matrix (s : State) (lo n : Nat) : (s.bump64 lo n).matrix = s.matrix := rfl
@[simp] theorem State.bump64_seqs (s : State) (lo n : Nat) : (s.bump64 lo n).seqs = s.seqs := rfl
@[simp] theorem State.bump64_models (s : State) (lo n : Nat) : (s.bump64 lo n).models = s.models := rfl
@[simp] theorem State.bump64_pairs (s : State) (lo n : Nat) : (s.bump64 lo n).pairs = s.pairs := rfl
@[simp] theorem State.bump64_links (s : State) (lo n : Nat) : (s.bump64 lo n).links = s.links := rfl
@[simp] theorem State.bump64_luapo (s : State) (lo n : Nat) : (s.bump64 lo n).luapo = s.luapo := rfl
@[simp] theorem State.bump64_routes (s : State) (lo n : Nat) : (s.bump64 lo n).routes = s.routes := rfl
@[simp] theorem State.bump64_losClear (s : State) (lo n : Nat) : (s.bump64 lo n).losClear = s.losClear := rfl
@[simp] theorem State.bump64_sec (s : State) (lo n : Nat) : (s.bump64 lo n).sec = s.sec := rfl
@[simp] theorem State.bump64_nv (s : State) (lo n : Nat) : (s.bump64 lo n).nv = s.nv := rfl
@[simp] theorem State.bump64_power (s : State) (lo n : Nat) : (s.bump64 lo n).power = s.power := rfl
@[simp] theorem State.bump64_pins (s : State) (lo n : Nat) : (s.bump64 lo n).pins = s.pins := rfl
@[simp] theorem State.bump64_dbg (s : State) (lo n : Nat) : (s.bump64 lo n).dbg = s.dbg := rfl
@[simp] theorem State.bump64_mgmt (s : State) (lo n : Nat) : (s.bump64 lo n).mgmt = s.mgmt := rfl
@[simp] theorem State.bump64_dbgClock (s : State) (lo n : Nat) : (s.bump64 lo n).dbgClock = s.dbgClock := rfl
@[simp] theorem State.bump64_trigger (s : State) (lo n : Nat) : (s.bump64 lo n).trigger = s.trigger := rfl
@[simp] theorem State.bump64_out (s : State) (lo n : Nat) : (s.bump64 lo n).out = s.out := rfl
@[simp] theorem State.bump64_fresh (s : State) (lo n : Nat) : (s.bump64 lo n).fresh = s.fresh := rfl
@[simp] theorem State.bump64_pending (s : State) (lo n : Nat) : (s.bump64 lo n).pending = s.pending := rfl

/-! ## emit -/

@[simp] theorem State.emit_phase (s : State) (o : Out) : (s.emit o).phase = s.phase := rfl
@[simp] theorem State.emit_clk (s : State) (o : Out) : (s.emit o).clk = s.clk := rfl
@[simp] theorem State.emit_regs (s : State) (o : Out) : (s.emit o).regs = s.regs := rfl
@[simp] theorem State.emit_inForce (s : State) (o : Out) : (s.emit o).inForce = s.inForce := rfl
@[simp] theorem State.emit_host (s : State) (o : Out) : (s.emit o).host = s.host := rfl
@[simp] theorem State.emit_intake (s : State) (o : Out) : (s.emit o).intake = s.intake := rfl
@[simp] theorem State.emit_flow (s : State) (o : Out) : (s.emit o).flow = s.flow := rfl
@[simp] theorem State.emit_banks (s : State) (o : Out) : (s.emit o).banks = s.banks := rfl
@[simp] theorem State.emit_egress (s : State) (o : Out) : (s.emit o).egress = s.egress := rfl
@[simp] theorem State.emit_mems (s : State) (o : Out) : (s.emit o).mems = s.mems := rfl
@[simp] theorem State.emit_capture (s : State) (o : Out) : (s.emit o).capture = s.capture := rfl
@[simp] theorem State.emit_matrix (s : State) (o : Out) : (s.emit o).matrix = s.matrix := rfl
@[simp] theorem State.emit_seqs (s : State) (o : Out) : (s.emit o).seqs = s.seqs := rfl
@[simp] theorem State.emit_models (s : State) (o : Out) : (s.emit o).models = s.models := rfl
@[simp] theorem State.emit_pairs (s : State) (o : Out) : (s.emit o).pairs = s.pairs := rfl
@[simp] theorem State.emit_links (s : State) (o : Out) : (s.emit o).links = s.links := rfl
@[simp] theorem State.emit_luapo (s : State) (o : Out) : (s.emit o).luapo = s.luapo := rfl
@[simp] theorem State.emit_routes (s : State) (o : Out) : (s.emit o).routes = s.routes := rfl
@[simp] theorem State.emit_losClear (s : State) (o : Out) : (s.emit o).losClear = s.losClear := rfl
@[simp] theorem State.emit_sec (s : State) (o : Out) : (s.emit o).sec = s.sec := rfl
@[simp] theorem State.emit_nv (s : State) (o : Out) : (s.emit o).nv = s.nv := rfl
@[simp] theorem State.emit_power (s : State) (o : Out) : (s.emit o).power = s.power := rfl
@[simp] theorem State.emit_pins (s : State) (o : Out) : (s.emit o).pins = s.pins := rfl
@[simp] theorem State.emit_dbg (s : State) (o : Out) : (s.emit o).dbg = s.dbg := rfl
@[simp] theorem State.emit_mgmt (s : State) (o : Out) : (s.emit o).mgmt = s.mgmt := rfl
@[simp] theorem State.emit_dbgClock (s : State) (o : Out) : (s.emit o).dbgClock = s.dbgClock := rfl
@[simp] theorem State.emit_trigger (s : State) (o : Out) : (s.emit o).trigger = s.trigger := rfl
@[simp] theorem State.emit_fresh (s : State) (o : Out) : (s.emit o).fresh = s.fresh := rfl
@[simp] theorem State.emit_pending (s : State) (o : Out) : (s.emit o).pending = s.pending := rfl

/-! ## setPipe -/

@[simp] theorem State.setPipe_phase (s : State) (n : Nat) (fs : List SpFrame) : (s.setPipe n fs).phase = s.phase := rfl
@[simp] theorem State.setPipe_clk (s : State) (n : Nat) (fs : List SpFrame) : (s.setPipe n fs).clk = s.clk := rfl
@[simp] theorem State.setPipe_regs (s : State) (n : Nat) (fs : List SpFrame) : (s.setPipe n fs).regs = s.regs := rfl
@[simp] theorem State.setPipe_inForce (s : State) (n : Nat) (fs : List SpFrame) : (s.setPipe n fs).inForce = s.inForce := rfl
@[simp] theorem State.setPipe_host (s : State) (n : Nat) (fs : List SpFrame) : (s.setPipe n fs).host = s.host := rfl
@[simp] theorem State.setPipe_flow (s : State) (n : Nat) (fs : List SpFrame) : (s.setPipe n fs).flow = s.flow := rfl
@[simp] theorem State.setPipe_banks (s : State) (n : Nat) (fs : List SpFrame) : (s.setPipe n fs).banks = s.banks := rfl
@[simp] theorem State.setPipe_egress (s : State) (n : Nat) (fs : List SpFrame) : (s.setPipe n fs).egress = s.egress := rfl
@[simp] theorem State.setPipe_mems (s : State) (n : Nat) (fs : List SpFrame) : (s.setPipe n fs).mems = s.mems := rfl
@[simp] theorem State.setPipe_capture (s : State) (n : Nat) (fs : List SpFrame) : (s.setPipe n fs).capture = s.capture := rfl
@[simp] theorem State.setPipe_matrix (s : State) (n : Nat) (fs : List SpFrame) : (s.setPipe n fs).matrix = s.matrix := rfl
@[simp] theorem State.setPipe_seqs (s : State) (n : Nat) (fs : List SpFrame) : (s.setPipe n fs).seqs = s.seqs := rfl
@[simp] theorem State.setPipe_models (s : State) (n : Nat) (fs : List SpFrame) : (s.setPipe n fs).models = s.models := rfl
@[simp] theorem State.setPipe_pairs (s : State) (n : Nat) (fs : List SpFrame) : (s.setPipe n fs).pairs = s.pairs := rfl
@[simp] theorem State.setPipe_links (s : State) (n : Nat) (fs : List SpFrame) : (s.setPipe n fs).links = s.links := rfl
@[simp] theorem State.setPipe_luapo (s : State) (n : Nat) (fs : List SpFrame) : (s.setPipe n fs).luapo = s.luapo := rfl
@[simp] theorem State.setPipe_routes (s : State) (n : Nat) (fs : List SpFrame) : (s.setPipe n fs).routes = s.routes := rfl
@[simp] theorem State.setPipe_losClear (s : State) (n : Nat) (fs : List SpFrame) : (s.setPipe n fs).losClear = s.losClear := rfl
@[simp] theorem State.setPipe_sec (s : State) (n : Nat) (fs : List SpFrame) : (s.setPipe n fs).sec = s.sec := rfl
@[simp] theorem State.setPipe_nv (s : State) (n : Nat) (fs : List SpFrame) : (s.setPipe n fs).nv = s.nv := rfl
@[simp] theorem State.setPipe_power (s : State) (n : Nat) (fs : List SpFrame) : (s.setPipe n fs).power = s.power := rfl
@[simp] theorem State.setPipe_pins (s : State) (n : Nat) (fs : List SpFrame) : (s.setPipe n fs).pins = s.pins := rfl
@[simp] theorem State.setPipe_dbg (s : State) (n : Nat) (fs : List SpFrame) : (s.setPipe n fs).dbg = s.dbg := rfl
@[simp] theorem State.setPipe_mgmt (s : State) (n : Nat) (fs : List SpFrame) : (s.setPipe n fs).mgmt = s.mgmt := rfl
@[simp] theorem State.setPipe_dbgClock (s : State) (n : Nat) (fs : List SpFrame) : (s.setPipe n fs).dbgClock = s.dbgClock := rfl
@[simp] theorem State.setPipe_trigger (s : State) (n : Nat) (fs : List SpFrame) : (s.setPipe n fs).trigger = s.trigger := rfl
@[simp] theorem State.setPipe_out (s : State) (n : Nat) (fs : List SpFrame) : (s.setPipe n fs).out = s.out := rfl
@[simp] theorem State.setPipe_fresh (s : State) (n : Nat) (fs : List SpFrame) : (s.setPipe n fs).fresh = s.fresh := rfl
@[simp] theorem State.setPipe_pending (s : State) (n : Nat) (fs : List SpFrame) : (s.setPipe n fs).pending = s.pending := rfl

/-! ## setClassQ -/

@[simp] theorem State.setClassQ_phase (s : State) (n c : Nat) (q : List QEntry) : (s.setClassQ n c q).phase = s.phase := rfl
@[simp] theorem State.setClassQ_clk (s : State) (n c : Nat) (q : List QEntry) : (s.setClassQ n c q).clk = s.clk := rfl
@[simp] theorem State.setClassQ_regs (s : State) (n c : Nat) (q : List QEntry) : (s.setClassQ n c q).regs = s.regs := rfl
@[simp] theorem State.setClassQ_inForce (s : State) (n c : Nat) (q : List QEntry) : (s.setClassQ n c q).inForce = s.inForce := rfl
@[simp] theorem State.setClassQ_host (s : State) (n c : Nat) (q : List QEntry) : (s.setClassQ n c q).host = s.host := rfl
@[simp] theorem State.setClassQ_intake (s : State) (n c : Nat) (q : List QEntry) : (s.setClassQ n c q).intake = s.intake := rfl
@[simp] theorem State.setClassQ_flow (s : State) (n c : Nat) (q : List QEntry) : (s.setClassQ n c q).flow = s.flow := rfl
@[simp] theorem State.setClassQ_banks (s : State) (n c : Nat) (q : List QEntry) : (s.setClassQ n c q).banks = s.banks := rfl
@[simp] theorem State.setClassQ_mems (s : State) (n c : Nat) (q : List QEntry) : (s.setClassQ n c q).mems = s.mems := rfl
@[simp] theorem State.setClassQ_capture (s : State) (n c : Nat) (q : List QEntry) : (s.setClassQ n c q).capture = s.capture := rfl
@[simp] theorem State.setClassQ_matrix (s : State) (n c : Nat) (q : List QEntry) : (s.setClassQ n c q).matrix = s.matrix := rfl
@[simp] theorem State.setClassQ_seqs (s : State) (n c : Nat) (q : List QEntry) : (s.setClassQ n c q).seqs = s.seqs := rfl
@[simp] theorem State.setClassQ_models (s : State) (n c : Nat) (q : List QEntry) : (s.setClassQ n c q).models = s.models := rfl
@[simp] theorem State.setClassQ_pairs (s : State) (n c : Nat) (q : List QEntry) : (s.setClassQ n c q).pairs = s.pairs := rfl
@[simp] theorem State.setClassQ_links (s : State) (n c : Nat) (q : List QEntry) : (s.setClassQ n c q).links = s.links := rfl
@[simp] theorem State.setClassQ_luapo (s : State) (n c : Nat) (q : List QEntry) : (s.setClassQ n c q).luapo = s.luapo := rfl
@[simp] theorem State.setClassQ_routes (s : State) (n c : Nat) (q : List QEntry) : (s.setClassQ n c q).routes = s.routes := rfl
@[simp] theorem State.setClassQ_losClear (s : State) (n c : Nat) (q : List QEntry) : (s.setClassQ n c q).losClear = s.losClear := rfl
@[simp] theorem State.setClassQ_sec (s : State) (n c : Nat) (q : List QEntry) : (s.setClassQ n c q).sec = s.sec := rfl
@[simp] theorem State.setClassQ_nv (s : State) (n c : Nat) (q : List QEntry) : (s.setClassQ n c q).nv = s.nv := rfl
@[simp] theorem State.setClassQ_power (s : State) (n c : Nat) (q : List QEntry) : (s.setClassQ n c q).power = s.power := rfl
@[simp] theorem State.setClassQ_pins (s : State) (n c : Nat) (q : List QEntry) : (s.setClassQ n c q).pins = s.pins := rfl
@[simp] theorem State.setClassQ_dbg (s : State) (n c : Nat) (q : List QEntry) : (s.setClassQ n c q).dbg = s.dbg := rfl
@[simp] theorem State.setClassQ_mgmt (s : State) (n c : Nat) (q : List QEntry) : (s.setClassQ n c q).mgmt = s.mgmt := rfl
@[simp] theorem State.setClassQ_dbgClock (s : State) (n c : Nat) (q : List QEntry) : (s.setClassQ n c q).dbgClock = s.dbgClock := rfl
@[simp] theorem State.setClassQ_trigger (s : State) (n c : Nat) (q : List QEntry) : (s.setClassQ n c q).trigger = s.trigger := rfl
@[simp] theorem State.setClassQ_out (s : State) (n c : Nat) (q : List QEntry) : (s.setClassQ n c q).out = s.out := rfl
@[simp] theorem State.setClassQ_fresh (s : State) (n c : Nat) (q : List QEntry) : (s.setClassQ n c q).fresh = s.fresh := rfl
@[simp] theorem State.setClassQ_pending (s : State) (n c : Nat) (q : List QEntry) : (s.setClassQ n c q).pending = s.pending := rfl

/-! ## modPair -/

@[simp] theorem State.modPair_phase (s : State) (p : Nat) (f : Pair → Pair) : (s.modPair p f).phase = s.phase := rfl
@[simp] theorem State.modPair_clk (s : State) (p : Nat) (f : Pair → Pair) : (s.modPair p f).clk = s.clk := rfl
@[simp] theorem State.modPair_regs (s : State) (p : Nat) (f : Pair → Pair) : (s.modPair p f).regs = s.regs := rfl
@[simp] theorem State.modPair_inForce (s : State) (p : Nat) (f : Pair → Pair) : (s.modPair p f).inForce = s.inForce := rfl
@[simp] theorem State.modPair_host (s : State) (p : Nat) (f : Pair → Pair) : (s.modPair p f).host = s.host := rfl
@[simp] theorem State.modPair_intake (s : State) (p : Nat) (f : Pair → Pair) : (s.modPair p f).intake = s.intake := rfl
@[simp] theorem State.modPair_flow (s : State) (p : Nat) (f : Pair → Pair) : (s.modPair p f).flow = s.flow := rfl
@[simp] theorem State.modPair_banks (s : State) (p : Nat) (f : Pair → Pair) : (s.modPair p f).banks = s.banks := rfl
@[simp] theorem State.modPair_egress (s : State) (p : Nat) (f : Pair → Pair) : (s.modPair p f).egress = s.egress := rfl
@[simp] theorem State.modPair_mems (s : State) (p : Nat) (f : Pair → Pair) : (s.modPair p f).mems = s.mems := rfl
@[simp] theorem State.modPair_capture (s : State) (p : Nat) (f : Pair → Pair) : (s.modPair p f).capture = s.capture := rfl
@[simp] theorem State.modPair_matrix (s : State) (p : Nat) (f : Pair → Pair) : (s.modPair p f).matrix = s.matrix := rfl
@[simp] theorem State.modPair_seqs (s : State) (p : Nat) (f : Pair → Pair) : (s.modPair p f).seqs = s.seqs := rfl
@[simp] theorem State.modPair_models (s : State) (p : Nat) (f : Pair → Pair) : (s.modPair p f).models = s.models := rfl
@[simp] theorem State.modPair_links (s : State) (p : Nat) (f : Pair → Pair) : (s.modPair p f).links = s.links := rfl
@[simp] theorem State.modPair_luapo (s : State) (p : Nat) (f : Pair → Pair) : (s.modPair p f).luapo = s.luapo := rfl
@[simp] theorem State.modPair_routes (s : State) (p : Nat) (f : Pair → Pair) : (s.modPair p f).routes = s.routes := rfl
@[simp] theorem State.modPair_losClear (s : State) (p : Nat) (f : Pair → Pair) : (s.modPair p f).losClear = s.losClear := rfl
@[simp] theorem State.modPair_sec (s : State) (p : Nat) (f : Pair → Pair) : (s.modPair p f).sec = s.sec := rfl
@[simp] theorem State.modPair_nv (s : State) (p : Nat) (f : Pair → Pair) : (s.modPair p f).nv = s.nv := rfl
@[simp] theorem State.modPair_power (s : State) (p : Nat) (f : Pair → Pair) : (s.modPair p f).power = s.power := rfl
@[simp] theorem State.modPair_pins (s : State) (p : Nat) (f : Pair → Pair) : (s.modPair p f).pins = s.pins := rfl
@[simp] theorem State.modPair_dbg (s : State) (p : Nat) (f : Pair → Pair) : (s.modPair p f).dbg = s.dbg := rfl
@[simp] theorem State.modPair_mgmt (s : State) (p : Nat) (f : Pair → Pair) : (s.modPair p f).mgmt = s.mgmt := rfl
@[simp] theorem State.modPair_dbgClock (s : State) (p : Nat) (f : Pair → Pair) : (s.modPair p f).dbgClock = s.dbgClock := rfl
@[simp] theorem State.modPair_trigger (s : State) (p : Nat) (f : Pair → Pair) : (s.modPair p f).trigger = s.trigger := rfl
@[simp] theorem State.modPair_out (s : State) (p : Nat) (f : Pair → Pair) : (s.modPair p f).out = s.out := rfl
@[simp] theorem State.modPair_fresh (s : State) (p : Nat) (f : Pair → Pair) : (s.modPair p f).fresh = s.fresh := rfl
@[simp] theorem State.modPair_pending (s : State) (p : Nat) (f : Pair → Pair) : (s.modPair p f).pending = s.pending := rfl

/-! ## modLink -/

@[simp] theorem State.modLink_phase (s : State) (n : Nat) (f : Link → Link) : (s.modLink n f).phase = s.phase := rfl
@[simp] theorem State.modLink_clk (s : State) (n : Nat) (f : Link → Link) : (s.modLink n f).clk = s.clk := rfl
@[simp] theorem State.modLink_regs (s : State) (n : Nat) (f : Link → Link) : (s.modLink n f).regs = s.regs := rfl
@[simp] theorem State.modLink_inForce (s : State) (n : Nat) (f : Link → Link) : (s.modLink n f).inForce = s.inForce := rfl
@[simp] theorem State.modLink_host (s : State) (n : Nat) (f : Link → Link) : (s.modLink n f).host = s.host := rfl
@[simp] theorem State.modLink_intake (s : State) (n : Nat) (f : Link → Link) : (s.modLink n f).intake = s.intake := rfl
@[simp] theorem State.modLink_flow (s : State) (n : Nat) (f : Link → Link) : (s.modLink n f).flow = s.flow := rfl
@[simp] theorem State.modLink_banks (s : State) (n : Nat) (f : Link → Link) : (s.modLink n f).banks = s.banks := rfl
@[simp] theorem State.modLink_egress (s : State) (n : Nat) (f : Link → Link) : (s.modLink n f).egress = s.egress := rfl
@[simp] theorem State.modLink_mems (s : State) (n : Nat) (f : Link → Link) : (s.modLink n f).mems = s.mems := rfl
@[simp] theorem State.modLink_capture (s : State) (n : Nat) (f : Link → Link) : (s.modLink n f).capture = s.capture := rfl
@[simp] theorem State.modLink_matrix (s : State) (n : Nat) (f : Link → Link) : (s.modLink n f).matrix = s.matrix := rfl
@[simp] theorem State.modLink_seqs (s : State) (n : Nat) (f : Link → Link) : (s.modLink n f).seqs = s.seqs := rfl
@[simp] theorem State.modLink_models (s : State) (n : Nat) (f : Link → Link) : (s.modLink n f).models = s.models := rfl
@[simp] theorem State.modLink_pairs (s : State) (n : Nat) (f : Link → Link) : (s.modLink n f).pairs = s.pairs := rfl
@[simp] theorem State.modLink_luapo (s : State) (n : Nat) (f : Link → Link) : (s.modLink n f).luapo = s.luapo := rfl
@[simp] theorem State.modLink_routes (s : State) (n : Nat) (f : Link → Link) : (s.modLink n f).routes = s.routes := rfl
@[simp] theorem State.modLink_losClear (s : State) (n : Nat) (f : Link → Link) : (s.modLink n f).losClear = s.losClear := rfl
@[simp] theorem State.modLink_sec (s : State) (n : Nat) (f : Link → Link) : (s.modLink n f).sec = s.sec := rfl
@[simp] theorem State.modLink_nv (s : State) (n : Nat) (f : Link → Link) : (s.modLink n f).nv = s.nv := rfl
@[simp] theorem State.modLink_power (s : State) (n : Nat) (f : Link → Link) : (s.modLink n f).power = s.power := rfl
@[simp] theorem State.modLink_pins (s : State) (n : Nat) (f : Link → Link) : (s.modLink n f).pins = s.pins := rfl
@[simp] theorem State.modLink_dbg (s : State) (n : Nat) (f : Link → Link) : (s.modLink n f).dbg = s.dbg := rfl
@[simp] theorem State.modLink_mgmt (s : State) (n : Nat) (f : Link → Link) : (s.modLink n f).mgmt = s.mgmt := rfl
@[simp] theorem State.modLink_dbgClock (s : State) (n : Nat) (f : Link → Link) : (s.modLink n f).dbgClock = s.dbgClock := rfl
@[simp] theorem State.modLink_trigger (s : State) (n : Nat) (f : Link → Link) : (s.modLink n f).trigger = s.trigger := rfl
@[simp] theorem State.modLink_out (s : State) (n : Nat) (f : Link → Link) : (s.modLink n f).out = s.out := rfl
@[simp] theorem State.modLink_fresh (s : State) (n : Nat) (f : Link → Link) : (s.modLink n f).fresh = s.fresh := rfl
@[simp] theorem State.modLink_pending (s : State) (n : Nat) (f : Link → Link) : (s.modLink n f).pending = s.pending := rfl

/-! ## hostPut -/

@[simp] theorem State.hostPut_phase (s : State) (a : Nat) (bs : List Byte) : (s.hostPut a bs).phase = s.phase := rfl
@[simp] theorem State.hostPut_clk (s : State) (a : Nat) (bs : List Byte) : (s.hostPut a bs).clk = s.clk := rfl
@[simp] theorem State.hostPut_regs (s : State) (a : Nat) (bs : List Byte) : (s.hostPut a bs).regs = s.regs := rfl
@[simp] theorem State.hostPut_inForce (s : State) (a : Nat) (bs : List Byte) : (s.hostPut a bs).inForce = s.inForce := rfl
@[simp] theorem State.hostPut_intake (s : State) (a : Nat) (bs : List Byte) : (s.hostPut a bs).intake = s.intake := rfl
@[simp] theorem State.hostPut_flow (s : State) (a : Nat) (bs : List Byte) : (s.hostPut a bs).flow = s.flow := rfl
@[simp] theorem State.hostPut_banks (s : State) (a : Nat) (bs : List Byte) : (s.hostPut a bs).banks = s.banks := rfl
@[simp] theorem State.hostPut_egress (s : State) (a : Nat) (bs : List Byte) : (s.hostPut a bs).egress = s.egress := rfl
@[simp] theorem State.hostPut_mems (s : State) (a : Nat) (bs : List Byte) : (s.hostPut a bs).mems = s.mems := rfl
@[simp] theorem State.hostPut_capture (s : State) (a : Nat) (bs : List Byte) : (s.hostPut a bs).capture = s.capture := rfl
@[simp] theorem State.hostPut_matrix (s : State) (a : Nat) (bs : List Byte) : (s.hostPut a bs).matrix = s.matrix := rfl
@[simp] theorem State.hostPut_seqs (s : State) (a : Nat) (bs : List Byte) : (s.hostPut a bs).seqs = s.seqs := rfl
@[simp] theorem State.hostPut_models (s : State) (a : Nat) (bs : List Byte) : (s.hostPut a bs).models = s.models := rfl
@[simp] theorem State.hostPut_pairs (s : State) (a : Nat) (bs : List Byte) : (s.hostPut a bs).pairs = s.pairs := rfl
@[simp] theorem State.hostPut_links (s : State) (a : Nat) (bs : List Byte) : (s.hostPut a bs).links = s.links := rfl
@[simp] theorem State.hostPut_luapo (s : State) (a : Nat) (bs : List Byte) : (s.hostPut a bs).luapo = s.luapo := rfl
@[simp] theorem State.hostPut_routes (s : State) (a : Nat) (bs : List Byte) : (s.hostPut a bs).routes = s.routes := rfl
@[simp] theorem State.hostPut_losClear (s : State) (a : Nat) (bs : List Byte) : (s.hostPut a bs).losClear = s.losClear := rfl
@[simp] theorem State.hostPut_sec (s : State) (a : Nat) (bs : List Byte) : (s.hostPut a bs).sec = s.sec := rfl
@[simp] theorem State.hostPut_nv (s : State) (a : Nat) (bs : List Byte) : (s.hostPut a bs).nv = s.nv := rfl
@[simp] theorem State.hostPut_power (s : State) (a : Nat) (bs : List Byte) : (s.hostPut a bs).power = s.power := rfl
@[simp] theorem State.hostPut_pins (s : State) (a : Nat) (bs : List Byte) : (s.hostPut a bs).pins = s.pins := rfl
@[simp] theorem State.hostPut_dbg (s : State) (a : Nat) (bs : List Byte) : (s.hostPut a bs).dbg = s.dbg := rfl
@[simp] theorem State.hostPut_mgmt (s : State) (a : Nat) (bs : List Byte) : (s.hostPut a bs).mgmt = s.mgmt := rfl
@[simp] theorem State.hostPut_dbgClock (s : State) (a : Nat) (bs : List Byte) : (s.hostPut a bs).dbgClock = s.dbgClock := rfl
@[simp] theorem State.hostPut_trigger (s : State) (a : Nat) (bs : List Byte) : (s.hostPut a bs).trigger = s.trigger := rfl
@[simp] theorem State.hostPut_out (s : State) (a : Nat) (bs : List Byte) : (s.hostPut a bs).out = s.out := rfl
@[simp] theorem State.hostPut_fresh (s : State) (a : Nat) (bs : List Byte) : (s.hostPut a bs).fresh = s.fresh := rfl
@[simp] theorem State.hostPut_pending (s : State) (a : Nat) (bs : List Byte) : (s.hostPut a bs).pending = s.pending := rfl
@[simp] theorem State.hostPut_host_readLatch (s : State) (a : Nat) (bs : List Byte) : (s.hostPut a bs).host.readLatch = s.host.readLatch := rfl
@[simp] theorem State.hostPut_host_writeHold (s : State) (a : Nat) (bs : List Byte) : (s.hostPut a bs).host.writeHold = s.host.writeHold := rfl
@[simp] theorem State.hostPut_host_queues (s : State) (a : Nat) (bs : List Byte) : (s.hostPut a bs).host.queues = s.host.queues := rfl
@[simp] theorem State.hostPut_host_floats (s : State) (a : Nat) (bs : List Byte) : (s.hostPut a bs).host.floats = s.host.floats := rfl
@[simp] theorem State.hostPut_host_floatNow (s : State) (a : Nat) (bs : List Byte) : (s.hostPut a bs).host.floatNow = s.host.floatNow := rfl
@[simp] theorem State.hostPut_host_evt (s : State) (a : Nat) (bs : List Byte) : (s.hostPut a bs).host.evt = s.host.evt := rfl
@[simp] theorem State.hostPut_host_config (s : State) (a : Nat) (bs : List Byte) : (s.hostPut a bs).host.config = s.host.config := rfl

/-! ## setFloat -/

@[simp] theorem State.setFloat_phase (s : State) (n : Nat) (v : BitVec 64) : (s.setFloat n v).phase = s.phase := rfl
@[simp] theorem State.setFloat_clk (s : State) (n : Nat) (v : BitVec 64) : (s.setFloat n v).clk = s.clk := rfl
@[simp] theorem State.setFloat_regs (s : State) (n : Nat) (v : BitVec 64) : (s.setFloat n v).regs = s.regs := rfl
@[simp] theorem State.setFloat_inForce (s : State) (n : Nat) (v : BitVec 64) : (s.setFloat n v).inForce = s.inForce := rfl
@[simp] theorem State.setFloat_intake (s : State) (n : Nat) (v : BitVec 64) : (s.setFloat n v).intake = s.intake := rfl
@[simp] theorem State.setFloat_flow (s : State) (n : Nat) (v : BitVec 64) : (s.setFloat n v).flow = s.flow := rfl
@[simp] theorem State.setFloat_banks (s : State) (n : Nat) (v : BitVec 64) : (s.setFloat n v).banks = s.banks := rfl
@[simp] theorem State.setFloat_egress (s : State) (n : Nat) (v : BitVec 64) : (s.setFloat n v).egress = s.egress := rfl
@[simp] theorem State.setFloat_mems (s : State) (n : Nat) (v : BitVec 64) : (s.setFloat n v).mems = s.mems := rfl
@[simp] theorem State.setFloat_capture (s : State) (n : Nat) (v : BitVec 64) : (s.setFloat n v).capture = s.capture := rfl
@[simp] theorem State.setFloat_matrix (s : State) (n : Nat) (v : BitVec 64) : (s.setFloat n v).matrix = s.matrix := rfl
@[simp] theorem State.setFloat_seqs (s : State) (n : Nat) (v : BitVec 64) : (s.setFloat n v).seqs = s.seqs := rfl
@[simp] theorem State.setFloat_models (s : State) (n : Nat) (v : BitVec 64) : (s.setFloat n v).models = s.models := rfl
@[simp] theorem State.setFloat_pairs (s : State) (n : Nat) (v : BitVec 64) : (s.setFloat n v).pairs = s.pairs := rfl
@[simp] theorem State.setFloat_links (s : State) (n : Nat) (v : BitVec 64) : (s.setFloat n v).links = s.links := rfl
@[simp] theorem State.setFloat_luapo (s : State) (n : Nat) (v : BitVec 64) : (s.setFloat n v).luapo = s.luapo := rfl
@[simp] theorem State.setFloat_routes (s : State) (n : Nat) (v : BitVec 64) : (s.setFloat n v).routes = s.routes := rfl
@[simp] theorem State.setFloat_losClear (s : State) (n : Nat) (v : BitVec 64) : (s.setFloat n v).losClear = s.losClear := rfl
@[simp] theorem State.setFloat_sec (s : State) (n : Nat) (v : BitVec 64) : (s.setFloat n v).sec = s.sec := rfl
@[simp] theorem State.setFloat_nv (s : State) (n : Nat) (v : BitVec 64) : (s.setFloat n v).nv = s.nv := rfl
@[simp] theorem State.setFloat_power (s : State) (n : Nat) (v : BitVec 64) : (s.setFloat n v).power = s.power := rfl
@[simp] theorem State.setFloat_pins (s : State) (n : Nat) (v : BitVec 64) : (s.setFloat n v).pins = s.pins := rfl
@[simp] theorem State.setFloat_dbg (s : State) (n : Nat) (v : BitVec 64) : (s.setFloat n v).dbg = s.dbg := rfl
@[simp] theorem State.setFloat_mgmt (s : State) (n : Nat) (v : BitVec 64) : (s.setFloat n v).mgmt = s.mgmt := rfl
@[simp] theorem State.setFloat_dbgClock (s : State) (n : Nat) (v : BitVec 64) : (s.setFloat n v).dbgClock = s.dbgClock := rfl
@[simp] theorem State.setFloat_trigger (s : State) (n : Nat) (v : BitVec 64) : (s.setFloat n v).trigger = s.trigger := rfl
@[simp] theorem State.setFloat_out (s : State) (n : Nat) (v : BitVec 64) : (s.setFloat n v).out = s.out := rfl
@[simp] theorem State.setFloat_fresh (s : State) (n : Nat) (v : BitVec 64) : (s.setFloat n v).fresh = s.fresh := rfl
@[simp] theorem State.setFloat_pending (s : State) (n : Nat) (v : BitVec 64) : (s.setFloat n v).pending = s.pending := rfl
@[simp] theorem State.setFloat_host_readLatch (s : State) (n : Nat) (v : BitVec 64) : (s.setFloat n v).host.readLatch = s.host.readLatch := rfl
@[simp] theorem State.setFloat_host_writeHold (s : State) (n : Nat) (v : BitVec 64) : (s.setFloat n v).host.writeHold = s.host.writeHold := rfl
@[simp] theorem State.setFloat_host_evt (s : State) (n : Nat) (v : BitVec 64) : (s.setFloat n v).host.evt = s.host.evt := rfl
@[simp] theorem State.setFloat_host_floatNow (s : State) (n : Nat) (v : BitVec 64) : (s.setFloat n v).host.floatNow = s.host.floatNow := rfl
@[simp] theorem State.setFloat_host_config (s : State) (n : Nat) (v : BitVec 64) : (s.setFloat n v).host.config = s.host.config := rfl
@[simp] theorem State.setFloat_host_mem (s : State) (n : Nat) (v : BitVec 64) : (s.setFloat n v).host.mem = s.host.mem := rfl

/-! ## addFloat -/

@[simp] theorem State.addFloat_phase (s : State) (n v : Nat) : (s.addFloat n v).phase = s.phase := rfl
@[simp] theorem State.addFloat_clk (s : State) (n v : Nat) : (s.addFloat n v).clk = s.clk := rfl
@[simp] theorem State.addFloat_regs (s : State) (n v : Nat) : (s.addFloat n v).regs = s.regs := rfl
@[simp] theorem State.addFloat_inForce (s : State) (n v : Nat) : (s.addFloat n v).inForce = s.inForce := rfl
@[simp] theorem State.addFloat_intake (s : State) (n v : Nat) : (s.addFloat n v).intake = s.intake := rfl
@[simp] theorem State.addFloat_flow (s : State) (n v : Nat) : (s.addFloat n v).flow = s.flow := rfl
@[simp] theorem State.addFloat_banks (s : State) (n v : Nat) : (s.addFloat n v).banks = s.banks := rfl
@[simp] theorem State.addFloat_egress (s : State) (n v : Nat) : (s.addFloat n v).egress = s.egress := rfl
@[simp] theorem State.addFloat_mems (s : State) (n v : Nat) : (s.addFloat n v).mems = s.mems := rfl
@[simp] theorem State.addFloat_capture (s : State) (n v : Nat) : (s.addFloat n v).capture = s.capture := rfl
@[simp] theorem State.addFloat_matrix (s : State) (n v : Nat) : (s.addFloat n v).matrix = s.matrix := rfl
@[simp] theorem State.addFloat_seqs (s : State) (n v : Nat) : (s.addFloat n v).seqs = s.seqs := rfl
@[simp] theorem State.addFloat_models (s : State) (n v : Nat) : (s.addFloat n v).models = s.models := rfl
@[simp] theorem State.addFloat_pairs (s : State) (n v : Nat) : (s.addFloat n v).pairs = s.pairs := rfl
@[simp] theorem State.addFloat_links (s : State) (n v : Nat) : (s.addFloat n v).links = s.links := rfl
@[simp] theorem State.addFloat_luapo (s : State) (n v : Nat) : (s.addFloat n v).luapo = s.luapo := rfl
@[simp] theorem State.addFloat_routes (s : State) (n v : Nat) : (s.addFloat n v).routes = s.routes := rfl
@[simp] theorem State.addFloat_losClear (s : State) (n v : Nat) : (s.addFloat n v).losClear = s.losClear := rfl
@[simp] theorem State.addFloat_sec (s : State) (n v : Nat) : (s.addFloat n v).sec = s.sec := rfl
@[simp] theorem State.addFloat_nv (s : State) (n v : Nat) : (s.addFloat n v).nv = s.nv := rfl
@[simp] theorem State.addFloat_power (s : State) (n v : Nat) : (s.addFloat n v).power = s.power := rfl
@[simp] theorem State.addFloat_pins (s : State) (n v : Nat) : (s.addFloat n v).pins = s.pins := rfl
@[simp] theorem State.addFloat_dbg (s : State) (n v : Nat) : (s.addFloat n v).dbg = s.dbg := rfl
@[simp] theorem State.addFloat_mgmt (s : State) (n v : Nat) : (s.addFloat n v).mgmt = s.mgmt := rfl
@[simp] theorem State.addFloat_dbgClock (s : State) (n v : Nat) : (s.addFloat n v).dbgClock = s.dbgClock := rfl
@[simp] theorem State.addFloat_trigger (s : State) (n v : Nat) : (s.addFloat n v).trigger = s.trigger := rfl
@[simp] theorem State.addFloat_out (s : State) (n v : Nat) : (s.addFloat n v).out = s.out := rfl
@[simp] theorem State.addFloat_fresh (s : State) (n v : Nat) : (s.addFloat n v).fresh = s.fresh := rfl
@[simp] theorem State.addFloat_pending (s : State) (n v : Nat) : (s.addFloat n v).pending = s.pending := rfl
@[simp] theorem State.addFloat_host_readLatch (s : State) (n v : Nat) : (s.addFloat n v).host.readLatch = s.host.readLatch := rfl
@[simp] theorem State.addFloat_host_writeHold (s : State) (n v : Nat) : (s.addFloat n v).host.writeHold = s.host.writeHold := rfl
@[simp] theorem State.addFloat_host_evt (s : State) (n v : Nat) : (s.addFloat n v).host.evt = s.host.evt := rfl
@[simp] theorem State.addFloat_host_config (s : State) (n v : Nat) : (s.addFloat n v).host.config = s.host.config := rfl
@[simp] theorem State.addFloat_host_mem (s : State) (n v : Nat) : (s.addFloat n v).host.mem = s.host.mem := rfl

/-! ## modQ -/

@[simp] theorem State.modQ_phase (s : State) (q : Nat) (f : Queue → Queue) : (s.modQ q f).phase = s.phase := rfl
@[simp] theorem State.modQ_clk (s : State) (q : Nat) (f : Queue → Queue) : (s.modQ q f).clk = s.clk := rfl
@[simp] theorem State.modQ_regs (s : State) (q : Nat) (f : Queue → Queue) : (s.modQ q f).regs = s.regs := rfl
@[simp] theorem State.modQ_inForce (s : State) (q : Nat) (f : Queue → Queue) : (s.modQ q f).inForce = s.inForce := rfl
@[simp] theorem State.modQ_intake (s : State) (q : Nat) (f : Queue → Queue) : (s.modQ q f).intake = s.intake := rfl
@[simp] theorem State.modQ_flow (s : State) (q : Nat) (f : Queue → Queue) : (s.modQ q f).flow = s.flow := rfl
@[simp] theorem State.modQ_banks (s : State) (q : Nat) (f : Queue → Queue) : (s.modQ q f).banks = s.banks := rfl
@[simp] theorem State.modQ_egress (s : State) (q : Nat) (f : Queue → Queue) : (s.modQ q f).egress = s.egress := rfl
@[simp] theorem State.modQ_mems (s : State) (q : Nat) (f : Queue → Queue) : (s.modQ q f).mems = s.mems := rfl
@[simp] theorem State.modQ_capture (s : State) (q : Nat) (f : Queue → Queue) : (s.modQ q f).capture = s.capture := rfl
@[simp] theorem State.modQ_matrix (s : State) (q : Nat) (f : Queue → Queue) : (s.modQ q f).matrix = s.matrix := rfl
@[simp] theorem State.modQ_seqs (s : State) (q : Nat) (f : Queue → Queue) : (s.modQ q f).seqs = s.seqs := rfl
@[simp] theorem State.modQ_models (s : State) (q : Nat) (f : Queue → Queue) : (s.modQ q f).models = s.models := rfl
@[simp] theorem State.modQ_pairs (s : State) (q : Nat) (f : Queue → Queue) : (s.modQ q f).pairs = s.pairs := rfl
@[simp] theorem State.modQ_links (s : State) (q : Nat) (f : Queue → Queue) : (s.modQ q f).links = s.links := rfl
@[simp] theorem State.modQ_luapo (s : State) (q : Nat) (f : Queue → Queue) : (s.modQ q f).luapo = s.luapo := rfl
@[simp] theorem State.modQ_routes (s : State) (q : Nat) (f : Queue → Queue) : (s.modQ q f).routes = s.routes := rfl
@[simp] theorem State.modQ_losClear (s : State) (q : Nat) (f : Queue → Queue) : (s.modQ q f).losClear = s.losClear := rfl
@[simp] theorem State.modQ_sec (s : State) (q : Nat) (f : Queue → Queue) : (s.modQ q f).sec = s.sec := rfl
@[simp] theorem State.modQ_nv (s : State) (q : Nat) (f : Queue → Queue) : (s.modQ q f).nv = s.nv := rfl
@[simp] theorem State.modQ_power (s : State) (q : Nat) (f : Queue → Queue) : (s.modQ q f).power = s.power := rfl
@[simp] theorem State.modQ_pins (s : State) (q : Nat) (f : Queue → Queue) : (s.modQ q f).pins = s.pins := rfl
@[simp] theorem State.modQ_dbg (s : State) (q : Nat) (f : Queue → Queue) : (s.modQ q f).dbg = s.dbg := rfl
@[simp] theorem State.modQ_mgmt (s : State) (q : Nat) (f : Queue → Queue) : (s.modQ q f).mgmt = s.mgmt := rfl
@[simp] theorem State.modQ_dbgClock (s : State) (q : Nat) (f : Queue → Queue) : (s.modQ q f).dbgClock = s.dbgClock := rfl
@[simp] theorem State.modQ_trigger (s : State) (q : Nat) (f : Queue → Queue) : (s.modQ q f).trigger = s.trigger := rfl
@[simp] theorem State.modQ_out (s : State) (q : Nat) (f : Queue → Queue) : (s.modQ q f).out = s.out := rfl
@[simp] theorem State.modQ_fresh (s : State) (q : Nat) (f : Queue → Queue) : (s.modQ q f).fresh = s.fresh := rfl
@[simp] theorem State.modQ_pending (s : State) (q : Nat) (f : Queue → Queue) : (s.modQ q f).pending = s.pending := rfl
@[simp] theorem State.modQ_host_readLatch (s : State) (q : Nat) (f : Queue → Queue) : (s.modQ q f).host.readLatch = s.host.readLatch := rfl
@[simp] theorem State.modQ_host_writeHold (s : State) (q : Nat) (f : Queue → Queue) : (s.modQ q f).host.writeHold = s.host.writeHold := rfl
@[simp] theorem State.modQ_host_floats (s : State) (q : Nat) (f : Queue → Queue) : (s.modQ q f).host.floats = s.host.floats := rfl
@[simp] theorem State.modQ_host_floatNow (s : State) (q : Nat) (f : Queue → Queue) : (s.modQ q f).host.floatNow = s.host.floatNow := rfl
@[simp] theorem State.modQ_host_evt (s : State) (q : Nat) (f : Queue → Queue) : (s.modQ q f).host.evt = s.host.evt := rfl
@[simp] theorem State.modQ_host_config (s : State) (q : Nat) (f : Queue → Queue) : (s.modQ q f).host.config = s.host.config := rfl
@[simp] theorem State.modQ_host_mem (s : State) (q : Nat) (f : Queue → Queue) : (s.modQ q f).host.mem = s.host.mem := rfl

/-! ## What is read back -/

@[simp] theorem State.setFloat_float_same (s : State) (n : Nat) (v : BitVec 64) : (s.setFloat n v).float n = v := by
  simp [State.float, State.setFloat]

theorem State.setFloat_float_other (s : State) {n m : Nat} (v : BitVec 64) (h : m ≠ n) : (s.setFloat n v).float m = s.float m := by
  simp [State.float, State.setFloat, sget_sset_other _ _ _ _ h]

@[simp] theorem State.setFloat_q (s : State) (n i : Nat) (v : BitVec 64) : (s.setFloat n v).q i = (s.q i).sees n v.toNat := by
  exact sget_mapVal (α := Queue) {} (fun Q => Queue.sees Q n v.toNat) rfl s.host.queues i

@[simp] theorem State.modQ_q_same (s : State) (q : Nat) (f : Queue → Queue) : (s.modQ q f).q q = f (s.q q) := by
  simp [State.q, State.modQ, smod]

theorem State.modQ_q_other (s : State) {q p : Nat} (f : Queue → Queue) (h : p ≠ q) : (s.modQ q f).q p = s.q p := by
  simp [State.q, State.modQ, smod, sget_sset_other _ _ _ _ h]

@[simp] theorem State.setPipe_pipe_same (s : State) (n : Nat) (fs : List SpFrame) : (s.setPipe n fs).pipe n = fs := by
  simp [State.pipe, State.setPipe]

theorem State.setPipe_pipe_other (s : State) {n m : Nat} (fs : List SpFrame) (h : m ≠ n) : (s.setPipe n fs).pipe m = s.pipe m := by
  simp [State.pipe, State.setPipe, sget_sset_other _ _ _ _ h]

@[simp] theorem State.modLink_link_same (s : State) (n : Nat) (f : Link → Link) : (s.modLink n f).link n = f (s.link n) := by
  simp [State.link, State.modLink, smod]

@[simp] theorem State.modPair_pair_same (s : State) (p : Nat) (f : Pair → Pair) : (s.modPair p f).pair p = f (s.pair p) := by
  simp [State.pair, State.modPair, smod]

/-- A register read is the register file's alone: what changes no register changes no field. -/
theorem get_congr {s t : State} (h : t.regs = s.regs) (f : Fld) : t.get f = s.get f := by
  simp [State.get, State.word, h]

theorem on_congr {s t : State} (h : t.regs = s.regs) (f : Fld) : t.on f = s.on f := by
  simp [State.on, get_congr h]

/-- Host software's stores change host memory alone. -/
theorem State.hostStores_eq (ws : List (Nat × List Byte)) : ∀ s : State,
    ∃ m, s.hostStores ws = { s with host := { s.host with mem := m } } := by
  induction ws with
  | nil => intro s; exact ⟨s.host.mem, rfl⟩
  | cons w ws ih =>
    intro s
    obtain ⟨a, bs⟩ := w
    obtain ⟨m, h⟩ := ih (s.hostPut a bs)
    exact ⟨m, h⟩

/-- Host memory keeps its canonical form. -/
theorem State.hostPut_wf (s : State) (a : Nat) (bs : List Byte) (h : Memory.wf s.host.mem = true) :
    Memory.wf (s.hostPut a bs).host.mem = true := Memory.write_wf bs _ _ h

theorem State.hostStores_wf (ws : List (Nat × List Byte)) : ∀ s : State, Memory.wf s.host.mem = true →
    Memory.wf (s.hostStores ws).host.mem = true := by
  induction ws with
  | nil => intro s h; exact h
  | cons w ws ih => intro s h; exact ih _ (State.hostPut_wf s _ _ h)

end Sys2Proof.Machine
end

