-- ==== Sys2Proof/Laws/Steps.lean ====
section
/-! SUPPORT. What the shared frames of a command do: its conditions, the passing of time, the completion of a queue's command, and
the registers that events leave alone. -/

namespace Sys2Proof.Machine

theorem live_iff {s : State} : s.live = true ↔ s.phase = .ready ∧ s.frozen = false := by
  simp [State.live]

/-- A register outside the DBG block takes writes in service (R14, R439). -/
theorem live_takes {s : State} (h : s.live = true) (off : Nat) (ho : dbgBlock off = false) : s.takesWrite off = true := by
  obtain ⟨hp, hf⟩ := live_iff.1 h
  simp [State.takesWrite, ho, hp, hf]

theorem whenLive_true {s : State} (h : s.live = true) (f : State → State) : whenLive s f = .next (f s) := by
  simp [whenLive, h]

theorem whenLive_false {s : State} (h : s.live = false) (f : State → State) : whenLive s f = .next s := by
  simp [whenLive, h]

theorem whenWritable_true {s : State} {off : Nat} (h : s.takesWrite off = true) (f : State → State) :
    whenWritable s off f = .next (f s) := by
  simp [whenWritable, h]

theorem whenHost_true {s : State} {off : Nat} (h : s.takesWrite off = true) (hp : s.pcieUp = true) (f : State → State) :
    whenHost s off f = .next (f s) := by
  simp [whenHost, h, hp]

theorem whenHost_false {s : State} {off : Nat} (h : s.takesWrite off = false ∨ s.pcieUp = false) (f : State → State) :
    whenHost s off f = .next s := by
  rcases h with h | h <;> simp [whenHost, h]

/-- A point in time that has come needs no time. -/
@[simp] theorem reach_now (s : State) (due : Nat) (h : due ≤ s.clk.cycle) : s.reach due = some s := by
  simp [State.reach, h]

@[simp] theorem reachReal_now (s : State) (due : Nat) (h : due ≤ s.clk.real) : s.reachReal due = some s := by
  simp [State.reachReal, h]

@[simp] theorem reachTick_now (s : State) (tick : Nat) (h : tick ≤ s.clk.time) : s.reachTick tick = some s := by
  simp [State.reachTick, h]

theorem on_putB_other (s : State) (f g : Fld) (b : Bool) (hg : g.lo + g.w ≤ 32)
    (h : g.reg ≠ f.reg ∨ g.lo + g.w ≤ f.lo ∨ f.lo + f.w ≤ g.lo) : (s.putB f b).on g = s.on g := by
  simp only [State.on, State.putB]
  rw [get_put_other s f g _ hg h]

theorem get_putB_other (s : State) (f g : Fld) (b : Bool) (hg : g.lo + g.w ≤ 32)
    (h : g.reg ≠ f.reg ∨ g.lo + g.w ≤ f.lo ∨ f.lo + f.w ≤ g.lo) : (s.putB f b).get g = s.get g :=
  get_put_other s f g _ hg h

/-- A command whose length the spec leaves open completes with its effect and its status. -/
theorem runOp_openTime {s : State} {q op : Nat} {c : List Byte} {r : Run} (h : CanComplete s q op (leastCycles r) c r)
    (eff : List Byte → State → State × Nat) :
    (.next (s.runOp q op openTime eff) : Res) = s.finish q (leastCycles r) c r eff := by
  have ht := h.time
  unfold leastCycles at ht
  unfold State.runOp State.finish State.chargedTo leastCycles
  simp only [h.run, openTime]
  by_cases hr : hostReads q c = true
  · first | (simp [hr, h.link hr, ht]; done) | (simp [hr, h.link hr, ht]; rfl)
  · first | (simp [hr, ht]; done) | (simp [hr, ht]; rfl)

/-- A command of a length that the spec gives completes when that length has passed. -/
theorem runOp_timed {s : State} {q op n : Nat} {c : List Byte} {r : Run} {dur : List Byte → State → Option Nat}
    (hd : dur c s = some n) (h : CanComplete s q op (s.cyclesLeft q n r) c r) (eff : List Byte → State → State × Nat) :
    (.next (s.runOp q op dur eff) : Res) = s.finish q (s.cyclesLeft q n r) c r eff := by
  have ht := h.time
  unfold State.runOp State.finish State.chargedTo
  simp only [h.run, hd]
  by_cases hr : hostReads q c = true
  · first | (simp [hr, h.link hr, ht]; done) | (simp [hr, h.link hr, ht]; rfl)
  · first | (simp [hr, ht]; done) | (simp [hr, ht]; rfl)

/-- A command none of whose host ranges had passed their check before a window was rewritten completes with its plain effect. -/
theorem effectOf_unchecked (s : State) (q : Nat) (c : List Byte) (r : Run) (eff : List Byte → State → State × Nat)
    (h : r.checked = false) : s.effectOf q c r eff = eff c s := by
  simp [State.effectOf, h]

/-- A queue that runs another command, or none, is left as it is. -/
theorem runOp_idle {s : State} {q op : Nat} (h : s.running q op = none) (dur : List Byte → State → Option Nat)
    (eff : List Byte → State → State × Nat) : s.runOp q op dur eff = s := by
  simp [State.runOp, h]

end Sys2Proof.Machine
end

