-- ==== Sys2Proof/Laws/Still.lean ====
section
/-! SUPPORT. What only resets, start-up, self-test, life cycle and the outside ports change: the still part of the state. -/

namespace Sys2Proof.Machine

/-- The still part of a state: phase, fuses and firmware store, a burn under way, the management endpoint, the pins, DBG_CLK and
the queue of waiting commands. -/
structure Still where
  phase : Phase
  nv : NonVolatile
  burning : Option Nat
  mgmt : Mgmt
  pins : Pins
  dbgClock : Bool
  pending : List Instr

/-- The still part of a state. -/
def State.still (s : State) : Still := ⟨s.phase, s.nv, s.sec.burning, s.mgmt, s.pins, s.dbgClock, s.pending⟩

@[simp] theorem still_mk (phase clk regs inForce host intake flow banks egress mems capture matrix seqs models pairs links luapo
    routes losClear sec nv power pins dbg mgmt dbgClock trigger out fresh pending) :
    State.still ⟨phase, clk, regs, inForce, host, intake, flow, banks, egress, mems, capture, matrix, seqs, models, pairs, links,
      luapo, routes, losClear, sec, nv, power, pins, dbg, mgmt, dbgClock, trigger, out, fresh, pending⟩
      = ⟨phase, nv, sec.burning, mgmt, pins, dbgClock, pending⟩ := rfl

@[simp] theorem mk_still (s : State) :
    (⟨s.phase, s.nv, s.sec.burning, s.mgmt, s.pins, s.dbgClock, s.pending⟩ : Still) = s.still := rfl

@[simp] theorem still_ite {c : Prop} [Decidable c] (a b : State) :
    (if c then a else b).still = if c then a.still else b.still := by split <;> rfl

@[simp] theorem still_ite_fst {α : Type} {c : Prop} [Decidable c] (a b : State × α) :
    (if c then a else b).1.still = if c then a.1.still else b.1.still := by split <;> rfl

/-- A fold keeps what each of its steps keeps. -/
@[simp] theorem foldl_still {α : Type} (g : State → α → State) (h : ∀ t a, (g t a).still = t.still) (l : List α) (s : State) :
    (l.foldl g s).still = s.still := by
  induction l generalizing s with
  | nil => rfl
  | cons a l ih => simp [ih, h]

@[simp] theorem foldl_still_fst {α β : Type} (g : State × β → α → State × β) (h : ∀ t a, (g t a).1.still = t.1.still)
    (l : List α) (p : State × β) : (l.foldl g p).1.still = p.1.still := by
  induction l generalizing p with
  | nil => rfl
  | cons a l ih => simp [ih, h]

/-- An answer, if there is one, keeps the still part. -/
def Kept? (s : State) (o : Option State) : Prop := ∀ t, o = some t → t.still = s.still

/-- A next state, if there is one, keeps the still part. -/
def Kept (s : State) (o : Res) : Prop := ∀ t, o = .next t → t.still = s.still

@[simp] theorem kept?_none (s : State) : Kept? s none := by simp [Kept?]
@[simp] theorem kept?_some (s t : State) : Kept? s (some t) ↔ t.still = s.still := by simp [Kept?]
@[simp] theorem kept?_ite {c : Prop} [Decidable c] (s : State) (a b : Option State) :
    Kept? s (if c then a else b) ↔ if c then Kept? s a else Kept? s b := by split <;> rfl
@[simp] theorem kept_next (s t : State) : Kept s (.next t) ↔ t.still = s.still := by simp [Kept]
@[simp] theorem kept_ite {c : Prop} [Decidable c] (s : State) (a b : Res) :
    Kept s (if c then a else b) ↔ if c then Kept s a else Kept s b := by split <;> rfl

@[simp] theorem kept?_bind (s : State) (o : Option State) (f : State → Option State) (h : Kept? s o) (g : ∀ t, Kept? t (f t)) :
    Kept? s (o.bind f) := by
  intro t ht
  cases o with
  | none => simp at ht
  | some a => exact (g a t ht).trans (h a rfl)

@[simp] theorem kept?_firstSome {α : Type} (s : State) (f : α → Option State) (h : ∀ a, Kept? s (f a)) (l : List α) :
    Kept? s (firstSome f l) := by
  induction l with
  | nil => simp [firstSome]
  | cons a l ih =>
    unfold firstSome
    split
    · rename_i b hb; simpa using h a b hb
    · exact ih

@[simp] theorem getD_still (s : State) (o : Option State) (h : Kept? s o) : (o.getD s).still = s.still := by
  cases o with
  | none => rfl
  | some t => exact h t rfl

/-! ## Regs -/

@[simp] theorem State.setWord_still (s : State) (off : Nat) (v : Word) :
    (State.setWord s off v).still = s.still := by
  unfold State.setWord; simp

@[simp] theorem State.put_still (s : State) (f : Fld) (v : Nat) :
    (State.put s f v).still = s.still := by
  unfold State.put; simp

@[simp] theorem State.putB_still (s : State) (f : Fld) (b : Bool) :
    (State.putB s f b).still = s.still := by
  unfold State.putB; simp

@[simp] theorem State.put64_still (s : State) (lo v : Nat) :
    (State.put64 s lo v).still = s.still := by
  unfold State.put64; simp

@[simp] theorem State.bump_still (s : State) (f : Fld) (n : Nat) :
    (State.bump s f n).still = s.still := by
  unfold State.bump; simp

@[simp] theorem State.bumpSat_still (s : State) (f : Fld) (n : Nat) :
    (State.bumpSat s f n).still = s.still := by
  unfold State.bumpSat; simp

@[simp] theorem State.bump64_still (s : State) (lo n : Nat) :
    (State.bump64 s lo n).still = s.still := by
  unfold State.bump64; simp

@[simp] theorem State.applyPending_still (s : State) :
    (State.applyPending s).still = s.still := by
  unfold State.applyPending; simp

@[simp] theorem State.free_still (s : State) :
    (State.free s).2.still = s.still := by
  unfold State.free; simp

theorem State.free_out {s : State} {t' : State} {r' : Nat}
    (h : State.free s = (r', t')) : t'.still = s.still := by
  have h1 := State.free_still s
  rw [h] at h1
  exact h1

@[simp] theorem State.freeBytes_still (s : State) (n : Nat) :
    (State.freeBytes s n).2.still = s.still := by
  unfold State.freeBytes; simp

theorem State.freeBytes_out {s : State} {n : Nat} {t' : State} {r' : List Byte}
    (h : State.freeBytes s n = (r', t')) : t'.still = s.still := by
  have h1 := State.freeBytes_still s n
  rw [h] at h1
  exact h1

@[simp] theorem State.emit_still (s : State) (o : Out) :
    (State.emit s o).still = s.still := by
  unfold State.emit; simp

/-! ## Access -/

@[simp] theorem State.putWord_still (s : State) (row : RegRow) (off : Nat) (open_ : Nat → FieldRow → Bool) (v : Nat) :
    (State.putWord s row off open_ v).still = s.still := by
  unfold State.putWord; simp

@[simp] theorem State.store_still (s : State) (row : RegRow) (off : Nat) (open_ : Nat → FieldRow → Bool) (v : Nat) :
    (State.store s row off open_ v).still = s.still := by
  unfold State.store
  repeat'
    first
      | (simp; done)
      | (refine (foldl_still _ (fun _ _ => ?_) _ _).trans ?_)
      | (refine (foldl_still_fst _ (fun _ _ => ?_) _ _).trans ?_)
      | (simp [*]; done)
      | split
      | simp

/-! ## Ops -/

@[simp] theorem whenLive_still (s : State) (f : State → State) (h : (f s).still = s.still) : Kept s (whenLive s f) := by
  simp only [whenLive]; split <;> simp [h]

@[simp] theorem whenWritable_still (s : State) (off : Nat) (f : State → State) (h : (f s).still = s.still) :
    Kept s (whenWritable s off f) := by
  simp only [whenWritable]; split <;> simp [h]

@[simp] theorem whenHost_still (s : State) (off : Nat) (f : State → State) (h : (f s).still = s.still) :
    Kept s (whenHost s off f) := by
  simp only [whenHost]; split <;> simp [h]

@[simp] theorem whenClocked_still (s : State) (f : State → State) (h : (f s).still = s.still) : Kept s (whenClocked s f) := by
  simp only [whenClocked]; split <;> simp [h]

@[simp] theorem State.hostPut_still (s : State) (addr : Nat) (bs : List Byte) :
    (State.hostPut s addr bs).still = s.still := by
  unfold State.hostPut; simp

@[simp] theorem State.hostWrite_still (s : State) (addr : Nat) (bs : List Byte) :
    (State.hostWrite s addr bs).still = s.still := by
  unfold State.hostWrite; simp

@[simp] theorem State.hostStores_still (ws : List (Nat × List Byte)) : ∀ s : State, (s.hostStores ws).still = s.still := by
  induction ws with
  | nil => intro s; rfl
  | cons w ws ih => intro s; rcases w with ⟨a, bs⟩; simp [State.hostStores, ih]

@[simp] theorem State.abortRead_still (s : State) :
    (State.abortRead s).still = s.still := by
  unfold State.abortRead
  simp

@[simp] theorem State.setPending_still (s : State) (v : Nat) (b : Bool) :
    (State.setPending s v b).still = s.still := by
  unfold State.setPending; simp

@[simp] theorem State.fire_still (s : State) (v : Nat) :
    (State.fire s v).still = s.still := by
  unfold State.fire; simp

@[simp] theorem State.evtLose_still (s : State) :
    (State.evtLose s).still = s.still := by
  unfold State.evtLose; simp

@[simp] theorem State.evtIrq_still (s : State) (n : Nat) :
    (State.evtIrq s n).still = s.still := by
  unfold State.evtIrq; simp

@[simp] theorem State.evtRecords_still (rs : List (List Byte)) :
    ∀ (s : State) (i : Nat), (s.evtRecords i rs).still = s.still := by
  induction rs with
  | nil => intro s i; rfl
  | cons r rs ih => intro s i; simp [State.evtRecords, ih]

@[simp] theorem State.evtPut_still (s : State) (code : Nat) (pl : List Byte) (cont : List (List Byte)) :
    (State.evtPut s code pl cont).still = s.still := by
  unfold State.evtPut; simp

@[simp] theorem State.evtTrigger_still (s : State) (code : Nat) :
    (State.evtTrigger s code).still = s.still := by
  unfold State.evtTrigger; simp

@[simp] theorem State.evtWrite_still (s : State) (code : Nat) (pl : List Byte) (cont : List (List Byte)) :
    (State.evtWrite s code pl cont).1.still = s.still := by
  unfold State.evtWrite
  repeat'
    first
      | (simp; done)
      | (refine (foldl_still _ (fun _ _ => ?_) _ _).trans ?_)
      | (refine (foldl_still_fst _ (fun _ _ => ?_) _ _).trans ?_)
      | (simp [*]; done)
      | split
      | simp

theorem State.evtWrite_out {s : State} {code : Nat} {pl : List Byte} {cont : List (List Byte)} {t' : State} {r' : Option Nat}
    (h : State.evtWrite s code pl cont = (t', r')) : t'.still = s.still := by
  have h1 := State.evtWrite_still s code pl cont
  rw [h] at h1
  exact h1

@[simp] theorem State.evtLoss_still (s : State) :
    (State.evtLoss s).1.still = s.still := by
  unfold State.evtLoss
  repeat'
    first
      | (simp; done)
      | (refine (foldl_still _ (fun _ _ => ?_) _ _).trans ?_)
      | (refine (foldl_still_fst _ (fun _ _ => ?_) _ _).trans ?_)
      | (simp [*]; done)
      | split
      | simp

theorem State.evtLoss_out {s : State} {t' : State} {r' : Option Nat}
    (h : State.evtLoss s = (t', r')) : t'.still = s.still := by
  have h1 := State.evtLoss_still s
  rw [h] at h1
  exact h1

@[simp] theorem State.raiseCore_still (s : State) (code : Nat) (pl : List Byte) (cont : List (List Byte)) :
    (State.raiseCore s code pl cont).1.still = s.still := by
  unfold State.raiseCore
  repeat'
    first
      | (simp; done)
      | (refine (foldl_still _ (fun _ _ => ?_) _ _).trans ?_)
      | (refine (foldl_still_fst _ (fun _ _ => ?_) _ _).trans ?_)
      | (have h1 := State.evtLoss_out ‹_›; simp [*] at *; done)
      | (have h1 := State.evtLoss_out ‹_›; simp_all; done)
      | (have h1 := State.evtWrite_out ‹_›; simp [*] at *; done)
      | (have h1 := State.evtWrite_out ‹_›; simp_all; done)
      | (simp [*]; done)
      | split
      | simp

theorem State.raiseCore_out {s : State} {code : Nat} {pl : List Byte} {cont : List (List Byte)} {t' : State} {r' : Option Nat}
    (h : State.raiseCore s code pl cont = (t', r')) : t'.still = s.still := by
  have h1 := State.raiseCore_still s code pl cont
  rw [h] at h1
  exact h1

@[simp] theorem State.setPipe_still (s : State) (n : Nat) (fs : List SpFrame) :
    (State.setPipe s n fs).still = s.still := by
  unfold State.setPipe; simp

@[simp] theorem State.noteFreed_still (s : State) (n k : Nat) :
    (State.noteFreed s n k).still = s.still := by
  unfold State.noteFreed
  simp

@[simp] theorem State.modFrame_still (s : State) (n id : Nat) (f : SpFrame → SpFrame) :
    (State.modFrame s n id f).still = s.still := by
  unfold State.modFrame; simp

@[simp] theorem State.writeSp_still (s : State) (n id : Nat) (f : SpFrame → SpFrame) :
    (State.writeSp s n id f).still = s.still := by
  unfold State.writeSp
  simp

@[simp] theorem State.releaseFrame_still (s : State) (n id : Nat) :
    (State.releaseFrame s n id).still = s.still := by
  unfold State.releaseFrame; simp

@[simp] theorem State.setClassQ_still (s : State) (n c : Nat) (q : List QEntry) :
    (State.setClassQ s n c q).still = s.still := by
  unfold State.setClassQ; simp

@[simp] theorem State.releaseEntry_still (s : State) (e : QEntry) :
    (State.releaseEntry s e).still = s.still := by
  unfold State.releaseEntry
  repeat'
    first
      | (simp; done)
      | (refine (foldl_still _ (fun _ _ => ?_) _ _).trans ?_)
      | (refine (foldl_still_fst _ (fun _ _ => ?_) _ _).trans ?_)
      | (simp [*]; done)
      | split
      | simp

@[simp] theorem State.dropClass_still (s : State) (n c : Nat) :
    (State.dropClass s n c).still = s.still := by
  unfold State.dropClass; simp

@[simp] theorem State.dropLink_still (s : State) (n : Nat) :
    (State.dropLink s n).still = s.still := by
  unfold State.dropLink; simp

@[simp] theorem State.modPair_still (s : State) (p : Nat) (f : Pair → Pair) :
    (State.modPair s p f).still = s.still := by
  unfold State.modPair; simp

@[simp] theorem State.modLink_still (s : State) (n : Nat) (f : Link → Link) :
    (State.modLink s n f).still = s.still := by
  unfold State.modLink; simp

@[simp] theorem State.sendDown_still (s : State) (n reason : Nat) :
    (State.sendDown s n reason).still = s.still := by
  unfold State.sendDown; simp

@[simp] theorem State.toBypass_still (s : State) (p cause reason : Nat) :
    (State.toBypass s p cause reason).still = s.still := by
  unfold State.toBypass; simp

@[simp] theorem State.leavePair_still (s : State) (p cause reason : Nat) :
    (State.leavePair s p cause reason).still = s.still := by
  unfold State.leavePair; simp

@[simp] theorem State.latchBypass_still (s : State) (p cause : Nat) :
    (State.latchBypass s p cause).still = s.still := by
  unfold State.latchBypass; simp

@[simp] theorem State.latchAll_still (s : State) (cause : Nat) :
    (State.latchAll s cause).still = s.still := by
  unfold State.latchAll; simp

@[simp] theorem State.valveBypass_still (s : State) (valve n : Nat) :
    (State.valveBypass s valve n).still = s.still := by
  unfold State.valveBypass; simp

@[simp] theorem State.raise_still (s : State) (code : Nat) (pl : List Byte) (cont : List (List Byte)) :
    (State.raise s code pl cont).still = s.still := by
  unfold State.raise
  repeat'
    first
      | (simp; done)
      | (refine (foldl_still _ (fun _ _ => ?_) _ _).trans ?_)
      | (refine (foldl_still_fst _ (fun _ _ => ?_) _ _).trans ?_)
      | (have h1 := State.raiseCore_out ‹_›; simp [*] at *; done)
      | (have h1 := State.raiseCore_out ‹_›; simp_all; done)
      | (simp [*]; done)
      | split
      | simp

@[simp] theorem State.trip_still (s : State) (valve n detail : Nat) :
    (State.trip s valve n detail).still = s.still := by
  unfold State.trip; simp

@[simp] theorem State.ringError_still (s : State) (q kind : Nat) :
    (State.ringError s q kind).still = s.still := by
  unfold State.ringError; simp

/-! ## Queues -/

@[simp] theorem State.modQ_still (s : State) (i : Nat) (f : Queue → Queue) :
    (State.modQ s i f).still = s.still := by
  unfold State.modQ; simp

@[simp] theorem State.setFloat_still (s : State) (f : Nat) (v : BitVec 64) :
    (State.setFloat s f v).still = s.still := by
  unfold State.setFloat; simp

@[simp] theorem State.noteFloats_still (s : State) (n : FloatNow) :
    (State.noteFloats s n).still = s.still := by
  unfold State.noteFloats; simp

@[simp] theorem State.addFloat_still (s : State) (f : Nat) (v : Nat) :
    (State.addFloat s f v).still = s.still := by
  unfold State.addFloat; simp

@[simp] theorem State.assignFloat_still (s : State) (host : Bool) (f : Nat) (v : BitVec 64) :
    (State.assignFloat s host f v).still = s.still := by
  unfold State.assignFloat
  first
    | (simp; done)
    | (split <;> simp)

@[simp] theorem State.tickFloats_still (s : State) :
    (State.tickFloats s).still = s.still := by
  unfold State.tickFloats; simp

@[simp] theorem State.giveWay_still (s : State) (uses : Nat → List Byte → Bool) (key c n : Nat) :
    (State.giveWay s uses key c n).still = s.still := by
  unfold State.giveWay
  simp

@[simp] theorem State.elapse_still (s : State) (n : Nat) :
    (State.elapse s n).still = s.still := by
  unfold State.elapse; simp

@[simp] theorem State.elapseTo_still (s : State) (e : Nat) :
    (State.elapseTo s e).still = s.still := by
  unfold State.elapseTo; simp

@[simp] theorem State.reach_still (s : State) (due : Nat) :
    Kept? s (State.reach s due) := by
  unfold State.reach; simp

theorem State.reach_out {s : State} {due : Nat} {t' : State}
    (h : State.reach s due = some t') : t'.still = s.still := State.reach_still s due t' h

@[simp] theorem State.reachReal_still (s : State) (due : Nat) :
    Kept? s (State.reachReal s due) := by
  unfold State.reachReal; simp

theorem State.reachReal_out {s : State} {due : Nat} {t' : State}
    (h : State.reachReal s due = some t') : t'.still = s.still := State.reachReal_still s due t' h

@[simp] theorem State.setBlock_still (s : State) (l : Nat) (b : Option StBlock) :
    (State.setBlock s l b).still = s.still := by
  unfold State.setBlock
  simp

@[simp] theorem State.dropTile_still (s : State) (l : Nat) :
    (State.dropTile s l).still = s.still := by
  unfold State.dropTile
  simp

@[simp] theorem State.dropBlocks_still (s : State) (q status : Nat) (c : List Byte) :
    (State.dropBlocks s q status c).still = s.still := by
  unfold State.dropBlocks
  simp

@[simp] theorem State.setModel_still (s : State) (b : Nat) (m : ModelBank) :
    (State.setModel s b m).still = s.still := by
  unfold State.setModel
  simp

@[simp] theorem State.beginPrime_still (s : State) (b : Nat) (tiles : List (Option Nat)) :
    (State.beginPrime s b tiles).still = s.still := by
  unfold State.beginPrime
  simp

@[simp] theorem State.endPrime_still (s : State) (q : Nat) (c : List Byte) :
    (State.endPrime s q c).still = s.still := by
  unfold State.endPrime
  simp

@[simp] theorem State.cqIrq_still (s : State) (q : Nat) :
    (State.cqIrq s q).still = s.still := by
  unfold State.cqIrq; simp

@[simp] theorem State.signal_still (s : State) (c : List Byte) (status : Nat) :
    (State.signal s c status).still = s.still := by
  unfold State.signal; simp

@[simp] theorem State.addRec_still (s : State) (q status first count cycles : Nat) (notify last : Bool) :
    (State.addRec s q status first count cycles notify last).still = s.still := by
  unfold State.addRec; simp

@[simp] theorem State.endList_still (s : State) (q : Nat) :
    (State.endList s q).still = s.still := by
  unfold State.endList; simp

@[simp] theorem State.restOfList_still (s : State) (q status : Nat) :
    (State.restOfList s q status).still = s.still := by
  unfold State.restOfList; simp

@[simp] theorem State.haltCheck_still (s : State) (q : Nat) :
    (State.haltCheck s q).still = s.still := by
  unfold State.haltCheck; simp

@[simp] theorem State.complete_still (s : State) (q status cycles : Nat) :
    (State.complete s q status cycles).still = s.still := by
  unfold State.complete
  repeat'
    first
      | (simp; done)
      | (refine (foldl_still _ (fun _ _ => ?_) _ _).trans ?_)
      | (refine (foldl_still_fst _ (fun _ _ => ?_) _ _).trans ?_)
      | (simp [*]; done)
      | split
      | simp

@[simp] theorem State.stopQueue_still (s : State) (q : Nat) :
    (State.stopQueue s q).still = s.still := by
  unfold State.stopQueue
  repeat'
    first
      | (simp; done)
      | (refine (foldl_still _ (fun _ _ => ?_) _ _).trans ?_)
      | (refine (foldl_still_fst _ (fun _ _ => ?_) _ _).trans ?_)
      | (simp [*]; done)
      | split
      | simp

/-! ## MemOps -/

@[simp] theorem State.setCoded_still (s : State) (m : MemId) (c : CodedMem) :
    (State.setCoded s m c).still = s.still := by
  unfold State.setCoded
  repeat'
    first
      | (simp; done)
      | (refine (foldl_still _ (fun _ _ => ?_) _ _).trans ?_)
      | (refine (foldl_still_fst _ (fun _ _ => ?_) _ _).trans ?_)
      | (simp [*]; done)
      | split
      | simp

@[simp] theorem State.modBank_still (s : State) (b : Nat) (f : BankRt → BankRt) :
    (State.modBank s b f).still = s.still := by
  unfold State.modBank; simp

@[simp] theorem State.bumpMem_still (s : State) (m : MemId) (c a : Fld) :
    (State.bumpMem s m c a).still = s.still := by
  unfold State.bumpMem
  repeat'
    first
      | (simp; done)
      | (refine (foldl_still _ (fun _ _ => ?_) _ _).trans ?_)
      | (refine (foldl_still_fst _ (fun _ _ => ?_) _ _).trans ?_)
      | (simp [*]; done)
      | split
      | simp

@[simp] theorem State.writeBack_still (s : State) (m : MemId) (w : Nat) :
    (State.writeBack s m w).still = s.still := by
  unfold State.writeBack
  simp

@[simp] theorem State.recoverWord_still (s : State) (m : MemId) (w : Nat) :
    (State.recoverWord s m w).still = s.still := by
  unfold State.recoverWord; simp

@[simp] theorem State.loseWord_still (s : State) (m : MemId) (w : Nat) :
    (State.loseWord s m w).still = s.still := by
  unfold State.loseWord
  repeat'
    first
      | (simp; done)
      | (refine (foldl_still _ (fun _ _ => ?_) _ _).trans ?_)
      | (refine (foldl_still_fst _ (fun _ _ => ?_) _ _).trans ?_)
      | (simp [*]; done)
      | split
      | simp

@[simp] theorem State.readCode_still (s : State) (m : MemId) (page : Nat) :
    (State.readCode s m page).still = s.still := by
  unfold State.readCode
  repeat'
      first
        | (simp; done)
        | (refine (foldl_still _ (fun _ _ => ?_) _ _).trans ?_)
        | (refine (foldl_still_fst _ (fun _ _ => ?_) _ _).trans ?_)
        | (simp [*]; done)
        | split
        | simp

@[simp] theorem State.rebuild_still (s : State) (m : MemId) (page : Nat) :
    (State.rebuild s m page).still = s.still := by
  unfold State.rebuild
  simp

@[simp] theorem State.correctPage_still (s : State) (m : MemId) (page : Nat) :
    (State.correctPage s m page).still = s.still := by
  unfold State.correctPage; simp

@[simp] theorem State.retireBank_still (s : State) (w : Nat) :
    (State.retireBank s w).still = s.still := by
  unfold State.retireBank; simp

@[simp] theorem State.readToCopy_still (s : State) (m : MemId) (w : Nat) :
    (State.readToCopy s m w).still = s.still := by
  unfold State.readToCopy
  repeat'
      first
        | (simp; done)
        | (refine (foldl_still _ (fun _ _ => ?_) _ _).trans ?_)
        | (refine (foldl_still_fst _ (fun _ _ => ?_) _ _).trans ?_)
        | (simp [*]; done)
        | split
        | simp

@[simp] theorem State.moveWords_still (s : State) (m : MemId) (ws : List Nat) :
    (State.moveWords s m ws).still = s.still := by
  unfold State.moveWords
  simp

@[simp] theorem State.remapWord_still (s : State) (w : Nat) :
    (State.remapWord s w).still = s.still := by
  unfold State.remapWord; simp

@[simp] theorem State.remapPage_still (s : State) (w : Nat) :
    (State.remapPage s w).still = s.still := by
  unfold State.remapPage
  repeat'
    first
      | (simp; done)
      | (refine (foldl_still _ (fun _ _ => ?_) _ _).trans ?_)
      | (refine (foldl_still_fst _ (fun _ _ => ?_) _ _).trans ?_)
      | (simp [*]; done)
      | split
      | simp

@[simp] theorem State.hardError_still (s : State) (m : MemId) (w : Nat) :
    (State.hardError s m w).still = s.still := by
  unfold State.hardError
  repeat'
    first
      | (simp; done)
      | (refine (foldl_still _ (fun _ _ => ?_) _ _).trans ?_)
      | (refine (foldl_still_fst _ (fun _ _ => ?_) _ _).trans ?_)
      | (simp [*]; done)
      | split
      | simp

@[simp] theorem State.correctWord_still (s : State) (m : MemId) (w : Nat) :
    (State.correctWord s m w).still = s.still := by
  unfold State.correctWord
  repeat'
      first
        | (simp; done)
        | (refine (foldl_still _ (fun _ _ => ?_) _ _).trans ?_)
        | (refine (foldl_still_fst _ (fun _ _ => ?_) _ _).trans ?_)
        | (simp [*]; done)
        | split
        | simp

@[simp] theorem State.rdWord_still (s : State) (m : MemId) (w : Nat) :
    (State.rdWord s m w).1.still = s.still := by
  unfold State.rdWord
  repeat'
    first
      | (simp; done)
      | (refine (foldl_still _ (fun _ _ => ?_) _ _).trans ?_)
      | (refine (foldl_still_fst _ (fun _ _ => ?_) _ _).trans ?_)
      | (simp [*]; done)
      | split
      | simp

theorem State.rdWord_out {s : State} {m : MemId} {w : Nat} {t' : State} {r' : Option Nat}
    (h : State.rdWord s m w = (t', r')) : t'.still = s.still := by
  have h1 := State.rdWord_still s m w
  rw [h] at h1
  exact h1

@[simp] theorem State.readyWord_still (s : State) (m : MemId) (w : Nat) :
    (State.readyWord s m w).still = s.still := by
  unfold State.readyWord
  repeat'
    first
      | (simp; done)
      | (refine (foldl_still _ (fun _ _ => ?_) _ _).trans ?_)
      | (refine (foldl_still_fst _ (fun _ _ => ?_) _ _).trans ?_)
      | (simp [*]; done)
      | split
      | simp

@[simp] theorem State.markWord_still (s : State) (m : MemId) (w : Nat) :
    (State.markWord s m w).still = s.still := by
  unfold State.markWord; simp

@[simp] theorem State.wrWord_still (s : State) (m : MemId) (w o : Nat) (bs : List Byte) :
    (State.wrWord s m w o bs).still = s.still := by
  unfold State.wrWord; simp

@[simp] theorem State.rdWords_still (m : MemId) (ws : List Nat) : ∀ s : State, (s.rdWords m ws).1.still = s.still := by
  induction ws with
  | nil => intro s; rfl
  | cons w ws ih => intro s; simp [State.rdWords, ih]

theorem State.rdWords_out {m : MemId} {ws : List Nat} {s t' : State} {r' : List (Nat × Bool)}
    (h : s.rdWords m ws = (t', r')) : t'.still = s.still := by
  have h1 := State.rdWords_still m ws s
  rw [h] at h1
  exact h1

@[simp] theorem State.rdRange_still (s : State) (m : MemId) (a n : Nat) :
    (State.rdRange s m a n).1.still = s.still := by
  unfold State.rdRange; simp

theorem State.rdRange_out {s : State} {m : MemId} {a n : Nat} {t' : State} {r' : List Byte × List Bool}
    (h : State.rdRange s m a n = (t', r')) : t'.still = s.still := by
  have h1 := State.rdRange_still s m a n
  rw [h] at h1
  exact h1

@[simp] theorem State.wrFrom_still (m : MemId) (n : Nat) :
    ∀ (s : State) (a : Nat) (bs : List Byte), (s.wrFrom m n a bs).still = s.still := by
  induction n with
  | zero => intro s a bs; rfl
  | succ n ih => intro s a bs; simp [State.wrFrom, ih]

@[simp] theorem State.wrRange_still (s : State) (m : MemId) (a : Nat) (bs : List Byte) :
    (State.wrRange s m a bs).still = s.still := by
  unfold State.wrRange; simp

@[simp] theorem State.wrMarked_still (s : State) (m : MemId) (a : Nat) (ws : List (List Byte × Bool)) :
    (State.wrMarked s m a ws).still = s.still := by
  unfold State.wrMarked; simp

@[simp] theorem State.rdMarked_still (s : State) (m : MemId) (a n : Nat) :
    (State.rdMarked s m a n).1.still = s.still := by
  unfold State.rdMarked; simp

theorem State.rdMarked_out {s : State} {m : MemId} {a n : Nat} {t' : State} {r' : List (List Byte × Bool)}
    (h : State.rdMarked s m a n = (t', r')) : t'.still = s.still := by
  have h1 := State.rdMarked_still s m a n
  rw [h] at h1
  exact h1

@[simp] theorem State.scramble_still (s : State) (m : MemId) (a n : Nat) :
    (State.scramble s m a n).still = s.still := by
  unfold State.scramble; simp

@[simp] theorem State.upset_still (s : State) (m : MemId) (w flips : Nat) (hard : Bool) :
    (State.upset s m w flips hard).still = s.still := by
  unfold State.upset; simp

/-! ## Contexts -/

@[simp] theorem State.rdTab_still (s : State) (o n : Nat) :
    (State.rdTab s o n).1.still = s.still := by
  unfold State.rdTab
  simp

@[simp] theorem State.wrTab_still (s : State) (o : Nat) (bs : List Byte) :
    (State.wrTab s o bs).still = s.still := by
  unfold State.wrTab
  simp

@[simp] theorem State.rdCtx_still (s : State) (i : Nat) :
    (State.rdCtx s i).1.still = s.still := by
  unfold State.rdCtx
  simp

@[simp] theorem State.wrCtx_still (s : State) (i : Nat) (c : List Byte) :
    (State.wrCtx s i c).still = s.still := by
  unfold State.wrCtx
  simp

@[simp] theorem State.wrCtxAt_still (s : State) (i o : Nat) (bs : List Byte) :
    (State.wrCtxAt s i o bs).still = s.still := by
  unfold State.wrCtxAt
  simp

@[simp] theorem State.modCtxByte_still (s : State) (i o : Nat) (f : Nat → Nat) :
    (State.modCtxByte s i o f).still = s.still := by
  unfold State.modCtxByte
  simp

@[simp] theorem State.setCtxConflict_still (s : State) (i : Nat) :
    (State.setCtxConflict s i).still = s.still := by
  unfold State.setCtxConflict
  simp

@[simp] theorem State.clearLive_still (s : State) (i : Nat) :
    (State.clearLive s i).still = s.still := by
  unfold State.clearLive
  simp

@[simp] theorem State.wrSlotRef_still (s : State) (i ref : Nat) :
    (State.wrSlotRef s i ref).still = s.still := by
  unfold State.wrSlotRef
  simp

@[simp] theorem State.settleLen_still (s : State) (link frame len : Nat) :
    (State.settleLen s link frame len).still = s.still := by
  unfold State.settleLen
  simp

/-! ## Frames -/

@[simp] theorem State.refund_still (s : State) (n frame len : Nat) :
    (State.refund s n frame len).still = s.still := by
  unfold State.refund
  simp

@[simp] theorem State.setLen_still (s : State) (n frame len : Nat) :
    (State.setLen s n frame len).still = s.still := by
  unfold State.setLen; simp

@[simp] theorem State.setReorder_still (s : State) (n : Nat) (l : List RoEntry) :
    (State.setReorder s n l).still = s.still := by
  unfold State.setReorder; simp

@[simp] theorem State.modEntry_still (s : State) (n seq : Nat) (f : RoEntry → RoEntry) :
    (State.modEntry s n seq f).still = s.still := by
  unfold State.modEntry; simp

@[simp] theorem State.setPasses_still (s : State) (l : List Pass) :
    (State.setPasses s l).still = s.still := by
  unfold State.setPasses; simp

@[simp] theorem State.putPass_still (s : State) (p : Pass) :
    (State.putPass s p).still = s.still := by
  unfold State.putPass; simp

@[simp] theorem State.sweep_still (s : State) :
    (State.sweep s).still = s.still := by
  unfold State.sweep; simp

@[simp] theorem State.unqueue_still (s : State) (src frame : Nat) :
    (State.unqueue s src frame).still = s.still := by
  unfold State.unqueue; simp

@[simp] theorem State.errorEnd_still (s : State) (n : Nat) (bytes : List Byte) :
    (State.errorEnd s n bytes).still = s.still := by
  unfold State.errorEnd; simp

@[simp] theorem State.cutFrame_still (s : State) (src frame : Nat) (bytes : List Byte) :
    (State.cutFrame s src frame bytes).still = s.still := by
  unfold State.cutFrame
  repeat'
    first
      | (simp; done)
      | (refine (foldl_still _ (fun _ _ => ?_) _ _).trans ?_)
      | (refine (foldl_still_fst _ (fun _ _ => ?_) _ _).trans ?_)
      | (simp [*]; done)
      | split
      | simp

@[simp] theorem State.abortFrame_still (s0 : State) (n : Nat) (f : SpFrame) :
    (State.abortFrame s0 n f).still = s0.still := by
  unfold State.abortFrame
  repeat'
    first
      | (simp; done)
      | (refine (foldl_still _ (fun _ _ => ?_) _ _).trans ?_)
      | (refine (foldl_still_fst _ (fun _ _ => ?_) _ _).trans ?_)
      | (simp [*]; done)
      | split
      | simp

@[simp] theorem State.setRx_still (s : State) (n : Nat) (bs : List Byte) :
    (State.setRx s n bs).still = s.still := by
  unfold State.setRx; simp

@[simp] theorem State.setDiscard_still (s : State) (n : Nat) (b : Bool) :
    (State.setDiscard s n b).still = s.still := by
  unfold State.setDiscard; simp

@[simp] theorem State.asideCount_still (s : State) (n : Nat) (bs : List Byte) :
    (State.asideCount s n bs).still = s.still := by
  unfold State.asideCount
  simp

@[simp] theorem State.errCount_still (s : State) (n : Nat) (bs : List Byte) :
    (State.errCount s n bs).still = s.still := by
  unfold State.errCount
  simp

@[simp] theorem State.rxCut_still (s : State) (n : Nat) :
    (State.rxCut s n).still = s.still := by
  unfold State.rxCut
  repeat'
    first
      | (simp; done)
      | (refine (foldl_still _ (fun _ _ => ?_) _ _).trans ?_)
      | (refine (foldl_still_fst _ (fun _ _ => ?_) _ _).trans ?_)
      | (simp [*]; done)
      | split
      | simp

/-! ## Sched -/

@[simp] theorem State.setBucket_still (s : State) (i : Nat) (b : Bucket) :
    (State.setBucket s i b).still = s.still := by
  unfold State.setBucket
  simp

@[simp] theorem State.modGates_still (s : State) (n : Nat) (f : Gates → Gates) :
    (State.modGates s n f).still = s.still := by
  unfold State.modGates
  simp

@[simp] theorem State.barClass_still (s : State) (n c : Nat) :
    (State.barClass s n c).still = s.still := by
  unfold State.barClass
  repeat'
      first
        | (simp; done)
        | (refine (foldl_still _ (fun _ _ => ?_) _ _).trans ?_)
        | (refine (foldl_still_fst _ (fun _ _ => ?_) _ _).trans ?_)
        | (simp [*]; done)
        | split
        | simp

@[simp] theorem State.gateDrop_still (s : State) (n c : Nat) :
    (State.gateDrop s n c).still = s.still := by
  unfold State.gateDrop
  repeat'
      first
        | (simp; done)
        | (refine (foldl_still _ (fun _ _ => ?_) _ _).trans ?_)
        | (refine (foldl_still_fst _ (fun _ _ => ?_) _ _).trans ?_)
        | (simp [*]; done)
        | split
        | simp

@[simp] theorem State.gateDrops_still (s : State) (n : Nat) :
    (State.gateDrops s n).still = s.still := by
  unfold State.gateDrops
  simp

@[simp] theorem State.setTag_still (s : State) (n c : Nat) (tag : Option Nat) :
    (State.setTag s n c tag).still = s.still := by
  unfold State.setTag
  simp

@[simp] theorem State.tagClass_still (s : State) (n c : Nat) :
    (State.tagClass s n c).still = s.still := by
  unfold State.tagClass
  repeat'
      first
        | (simp; done)
        | (refine (foldl_still _ (fun _ _ => ?_) _ _).trans ?_)
        | (refine (foldl_still_fst _ (fun _ _ => ?_) _ _).trans ?_)
        | (simp [*]; done)
        | split
        | simp

@[simp] theorem State.tagClasses_still (s : State) (n : Nat) :
    (State.tagClasses s n).still = s.still := by
  unfold State.tagClasses
  simp

@[simp] theorem State.newHeads_still (s : State) (n : Nat) :
    (State.newHeads s n).still = s.still := by
  unfold State.newHeads
  simp

@[simp] theorem State.tagHead_still (s : State) (src frame : Nat) :
    (State.tagHead s src frame).still = s.still := by
  unfold State.tagHead
  simp

@[simp] theorem State.tagAll_still (s : State) :
    (State.tagAll s).still = s.still := by
  unfold State.tagAll
  simp

/-! ## Transfer -/

@[simp] theorem State.grant_still (s : State) (ranges : List (Bool × Nat × Nat)) :
    Kept? s (State.grant s ranges) := by
  unfold State.grant
  repeat'
      first
        | (simp; done)
        | (refine (foldl_still _ (fun _ _ => ?_) _ _).trans ?_)
        | (refine (foldl_still_fst _ (fun _ _ => ?_) _ _).trans ?_)
        | (simp [*]; done)
        | split
        | simp

@[simp] theorem State.sendRequest_still (s : State) (a : Nat) (bs : List Byte) (ep : Bool) :
    (State.sendRequest s a bs ep).still = s.still := by
  unfold State.sendRequest
  simp

@[simp] theorem State.dataWrite_still (s : State) (a : Nat) (bs : List Byte) :
    (State.dataWrite s a bs).still = s.still := by
  unfold State.dataWrite
  simp

@[simp] theorem State.sendHost_still (s : State) (a : Nat) (ws : List (List Byte × Bool)) :
    (State.sendHost s a ws).1.still = s.still := by
  unfold State.sendHost
  simp

@[simp] theorem State.readSpace_still (s : State) (sp a n : Nat) :
    (State.readSpace s sp a n).1.still = s.still := by
  unfold State.readSpace
  simp

@[simp] theorem State.writeSpace_still (s : State) (sp a : Nat) (ws : List (List Byte × Bool)) :
    (State.writeSpace s sp a ws).1.still = s.still := by
  unfold State.writeSpace
  simp

@[simp] theorem State.scrambleSpace_still (s : State) (sp a n : Nat) :
    (State.scrambleSpace s sp a n).still = s.still := by
  unfold State.scrambleSpace
  simp

@[simp] theorem State.putBankRecord_still (s : State) (result b : Nat) (k : ModelBank) :
    (State.putBankRecord s result b k).still = s.still := by
  unfold State.putBankRecord
  simp

@[simp] theorem State.scrambleGranted_still (s : State) (a n : Nat) :
    (State.scrambleGranted s a n).still = s.still := by
  unfold State.scrambleGranted
  simp

@[simp] theorem State.scrambleRegion_still (s : State) (b : Nat) :
    (State.scrambleRegion s b).still = s.still := by
  unfold State.scrambleRegion
  simp

@[simp] theorem State.dropPrime_still (s : State) (b : Nat) :
    (State.dropPrime s b).still = s.still := by
  unfold State.dropPrime
  simp

@[simp] theorem State.failPrime_still (s : State) (q : Nat) (c : List Byte) :
    (State.failPrime s q c).still = s.still := by
  unfold State.failPrime
  simp

@[simp] theorem State.setGranted_still (s : State) (b : Bool) :
    (State.setGranted s b).still = s.still := by
  unfold State.setGranted
  simp

@[simp] theorem State.withHostOf_still (s u : State) :
    (State.withHostOf s u).still = s.still := by
  unfold State.withHostOf
  simp

@[simp] theorem State.lateDest_still (s : State) (q : Nat) (c : List Byte) (eff : List Byte → State → State × Nat)
    (h : ∀ c t, (eff c t).1.still = t.still) : (s.lateDest q c eff).still = s.still := by
  unfold State.lateDest
  refine (foldl_still _ (fun t a => ?_) _ _).trans ?_
  · simp only; split <;> simp
  · simp [h]

@[simp] theorem State.effectOf_still (s : State) (q : Nat) (c : List Byte) (r : Run) (eff : List Byte → State → State × Nat)
    (h : ∀ c t, (eff c t).1.still = t.still) : (s.effectOf q c r eff).1.still = s.still := by
  unfold State.effectOf
  split
  · simp [h]
  · split <;> simp [h]

@[simp] theorem State.runOp_still (s : State) (q op : Nat) (dur : List Byte → State → Option Nat)
    (eff : List Byte → State → State × Nat) (h : ∀ c t, (eff c t).1.still = t.still) :
    (s.runOp q op dur eff).still = s.still := by
  unfold State.runOp; simp; (repeat' split) <;> simp [h]

end Sys2Proof.Machine
end

