-- ==== Sys2Proof/Tests/Slice0.lean ====
section
/-! SUPPORT. Tests: ill-formed commands are refused, the spec's worked examples, and for every statement a state that meets its
hypotheses. -/

set_option Elab.async false

open Sys2Proof Sys2Proof.Machine

namespace Sys2Proof.Tests

/-! ## States for the witnesses -/

/-- A part in service, an hour of core cycles after reset, strokes not running. -/
def hour : State :=
  { State.reset with phase := .ready, clk := { cycle := 9 * 10 ^ 12, real := 9 * 10 ^ 12, time := 9 * 10 ^ 12 } }

/-- A state with fields of registers set. -/
def set_ (s : State) (fs : List (Fld × Nat)) : State := fs.foldl (fun s x => s.put x.1 x.2) s

/-- The same with the status that READY shows. -/
def ready : State := set_ hour [(F.GLB_STATUS_STAGE, 7), (F.GLB_STATUS_READY, 1), (F.GLB_STATUS_LIFECYCLE, 1)]

/-- A frozen part. -/
def frozen : State := ready.putB F.GLB_STATUS_FROZEN true

/-- Strokes run: stroke 5 of the default period has just opened. -/
def stroking : State :=
  (set_ ready [(F.STK_ACTIVE_PERIOD_PERIOD, 250000), (F.STK_CTRL_ENABLE, 1), (F.STK_STATUS_STATE, 1)]).modQ 0 id |> fun s =>
    { s with clk := { s.clk with strokes := true, now := 5, time := 5 * 250000, openTime := 5 * 250000 } }

/-- A command of 32 bytes with fields set. -/
def com (op : Nat) (fs : List (Nat × Nat × Nat)) : List Byte := payload 64 (fs ++ [(0, 1, op)])

/-- A command that has just started. -/
def run0 : Run := { start := 0, startTime := 0, startStroke := 0 }

/-- Queue `q` runs a command that is the last of its list. -/
def runs (s : State) (q : Nat) (c : List Byte) : State :=
  s.modQ q fun Q => { Q with active := true, cmds := [.cmd c], cur := some run0 }

/-- A command that runs, on a part in service with nothing due, can complete. -/
theorem can (s : State) (q op n : Nat) (c : List Byte) (r : Run)
    (h : (s.live && decide (s.running q op = some (c, r)) && (!hostReads q c || s.pcieUp) && s.canElapse n) = true) :
    CanComplete s q op n c r := by
  simp only [Bool.and_eq_true, Bool.or_eq_true, Bool.not_eq_true', decide_eq_true_eq] at h
  exact ⟨h.1.1.1, h.1.1.2, fun hr => by simpa [hr] using h.1.2, h.2⟩

/-- Links LK06 and LK07 are up, their pair in-line, MODE 1. -/
def lit : State := set_ ready [(F.LK_STATUS_STATE 6, 4), (F.LK_STATUS_STATE 7, 4), (F.LK_PAIR_STATUS_STATE 3, 3), (F.WH_LINK_CTRL_MODE 6, 1),
  (F.WH_LINK_CTRL_MODE 7, 1), (F.WH_LANES_IN_SERVICE, 0xFFFFFF), (F.WH_TG_STATUS_IN_SERVICE, 0x1FFFFFF)]

/-- Page 0 of host memory is granted. -/
def windowed : State := set_ ready [(F.HIF_DMAW_8_PAGES 0, 1), (F.HIF_DMAW_C_READ 0, 1), (F.HIF_DMAW_C_WRITE 0, 1)]

/-- A reorder entry and a pass of LK06, dealt 1,000 core cycles ago. -/
def entry0 : RoEntry :=
  { seq := 5, frame := 0, dealt := 9 * 10 ^ 12 - 1000, time := 0, stroke := 0, rEpoch := 0, eEpoch := 0, fEpoch := 0, rBank := 0,
    eBank := 0, len := some 100, head := [] }
def pass0 : Pass :=
  { link := 6, seq := 5, second := false, lane := 2, frame := 0, dealt := 9 * 10 ^ 12 - 1000, time := 0, stroke := 0, len := some 100,
    epoch := 0, profile := 0, frag := false, fields := [(1, false)], key := some [1], flowAt := 9 * 10 ^ 12 - 900,
    resultAt := 9 * 10 ^ 12 - 900 }
def ref0 : PassRef := { link := 6, seq := 5, second := false }

/-- LK06 with one entry and one pass. -/
def passing (e : RoEntry) (p : Pass) : State := (lit.setReorder 6 [e]).setPasses [p]

/-! ## Witnesses: hypotheses that a statement has are met together -/

theorem test_witness_EmptyQueueTicks :
    (frozen.pending = [] ∧ frozen.frozen = true ∧ frozen.dbg.readout = none)
    ∧ (let s := { State.reset with phase := .safe }; s.pending = [] ∧ s.frozen = false ∧ s.phase = .safe)
    ∧ (∀ p ∈ [Phase.hold, .recovery, .bist], let s := { State.reset with phase := p }
        s.pending = [] ∧ s.frozen = false ∧ (s.phase = .hold ∨ s.phase = .recovery ∨ s.phase = .bist))
    ∧ (ready.clocked = true ∧ ready.clk.armed = false ∧ ready.canElapse 1 = true ∧ stroking.canElapse 250000 = true
        ∧ stroking.canElapse 250001 = false) := by decide +kernel

theorem test_witness_FreezeEndsOnlyByReset : frozen.frozen = true := by decide +kernel

theorem test_witness_NothingRunsOutOfService :
    serviceOnly .headDeal = true ∧ State.reset.live = false ∧ frozen.live = false ∧ ready.live = true := by decide +kernel

theorem test_witness_UnmappedRegisters :
    findRow regRows 0x1280000 = none ∧ findRow regRows 0x127FFFC = none ∧ findRow regRows 0x3FFFFFC = none ∧ ready.phase = .ready
      ∧ ready.frozen = false ∧ ready.pcieUp = true ∧ ready.dbgClock = true := by decide +kernel

theorem test_witness_RegistersAreReadAndWritten :
    let hold := { ready with phase := .hold }
    ((findRow regRows R.STK_NOW_LO).map (·.1.half) = some .lo ∧ (findRow regRows (R.STK_NOW_LO + 4)).map (·.1.half) = some .hi
      ∧ ready.phase = .ready ∧ ready.frozen = false ∧ ready.pcieUp = true ∧ ready.dbgClock = true)
    ∧ (ready.live = true ∧ ready.barsOpen = true ∧ ready.answer R.STK_HOLDOVER = .value ∧ frozen.answer R.STK_HOLDOVER = .abort
      ∧ frozen.pcieUp = true ∧ hold.answer R.STK_HOLDOVER = .reset ∧ hold.pcieUp = true
      ∧ { ready with dbgClock := false }.answer R.DBG_CTRL = .zero)
    ∧ { ready with phase := .reset }.phase = .reset ∧ frozen.live = false
    ∧ (ready.takesWrite R.STK_HOLDOVER = true ∧ (findRow regRows R.STK_HOLDOVER).isSome = true
      ∧ (60000#32).toNat ≤ 60000 ∧ 60000 < (60001#32).toNat % 2 ^ 16)
    ∧ (frozen.frozen = true ∧ dbgBlock R.STK_HOLDOVER = false) := by decide +kernel

theorem test_witness_DoorbellsAndFloatWindows :
    let s := ready.hostStores [(4096, [1])]
    s.barsOpen = true ∧ 63 < s.sqSize 79 ∧ s.sqSize 79 ≤ 64 ∧ ready.barsOpen = true ∧ frozen.barsOpen = false
      ∧ 63 < ready.cqSize 0 ∧ ready.cqSize 0 ≤ 64 := by decide +kernel

theorem test_witness_RegisterFileAndFloatsTick : State.reset.RegFileWf ∧ (ready.put (tickFld 131071) 3).RegFileWf := by
  constructor <;> exact ⟨by decide +kernel, by decide +kernel⟩

theorem test_witness_CommonCommandsComplete :
    let c := com 1 [(16, 4, 7), (24, 8, 1)]
    let w : Run := { run0 with waiting := true }
    let t := { runs ready 5 (com 4 []) with host := { (runs ready 5 (com 4 [])).host with granted := true } }
    CanComplete (runs ready 79 (com 0 [])) 79 0 ((runs ready 79 (com 0 [])).cyclesLeft 79 1 run0) (com 0 []) run0
    ∧ CanComplete (runs ready 0 (com 2 [])) 0 2 ((runs ready 0 (com 2 [])).cyclesLeft 0 1 run0) (com 2 []) run0
    ∧ CanComplete (runs ready 16 (com 3 [])) 16 3 ((runs ready 16 (com 3 [])).cyclesLeft 16 1 run0) (com 3 []) run0
    ∧ CanComplete (runs ready 16 c) 16 1 ((runs ready 16 c).cyclesLeft 16 1 run0) c run0
    ∧ (∀ r ∈ [w, { w with met := true }],
       let s := (ready.setFloat 7 (if r.met then 0 else 1)).modQ 16 fun Q => { Q with active := true, cmds := [.cmd c], cur := some r }
       CanComplete s 16 1 (s.cyclesLeft 16 1 r) c r ∧ (fieldAt c 24 8 ≤ (s.float (fieldAt c 16 4)).toNat ∨ r.met = true))
    ∧ (∀ r ∈ [run0, { run0 with checked := true, issued := 16 }],
       CanComplete (ready.modQ 5 fun Q => { Q with active := true, cmds := [.cmd (com 4 [])], cur := some r }) 5 4 (leastCycles r) (com 4 []) r)
    ∧ ((runs ready 5 (com 4 [])).dmaRefused true 0 16 = some 0 ∧ (runs ready 5 (com 4 [])).host.granted = false
       ∧ t.lowestRefused (rangesBeyond 16 (hostRanges 5 (com 4 []))) = none
       ∧ ready.lowestRefused (rangesBeyond 0 (hostRanges 5 (com 4 []))) = some 0
       ∧ (set_ ready [(F.HIF_DMAW_8_PAGES 0, 1), (F.HIF_DMAW_C_WRITE 0, 1)]).dmaRefused true 4080 16 = none) := by
  refine ⟨can _ _ _ _ _ _ ?_, can _ _ _ _ _ _ ?_, can _ _ _ _ _ _ ?_, can _ _ _ _ _ _ ?_, fun r h => ⟨can _ _ _ _ _ _ ?_, ?_⟩,
    fun r h => can _ _ _ _ _ _ ?_, ?_⟩
  · decide +kernel
  · decide +kernel
  · decide +kernel
  · decide +kernel
  · revert r; decide +kernel
  · revert r; decide +kernel
  · revert r; decide +kernel
  · decide +kernel

theorem test_witness_ListsEnd :
    let s := ready.modQ 64 fun Q => { Q with active := true, cmds := [.cmd (com 0x40 []), .cmd (com 0 [])], cur := some run0 }
    ((s.q 64).cmds = .cmd (com 0x40 []) :: [.cmd (com 0 [])] ∧ (s.q 64).stopping = false ∧ cmdNotify (com 0x40 []) = false)
    ∧ (s.live = true ∧ (s.q 64).cur = some run0 ∧ hostReads 64 (com 0x40 []) = true ∧ hostReads 64 (com 0x61 []) = true)
    ∧ ¬(64 / 16 = 4 ∧ cmdOp (com 0x40 []) = 0x61) ∧ cmdOp (com 0x61 []) = 0x61
    ∧ ((ready.beginPrime (byteAt (com 0x61 [(25, 1, 1)]) 25) ready.tilesNow).model 1).st = .loading := by decide +kernel

/-- Queue 3 enabled, its submission ring's first descriptor in granted memory at 4096. -/
def fetching (len : Nat) : State :=
  let s := set_ ready [(F.HIF_QCTRL_ENABLE 3, 1), (F.HIF_DMAW_8_PAGES 0, 8), (F.HIF_DMAW_C_READ 0, 1), (F.HIF_DMAW_C_WRITE 0, 1)]
  (s.modQ 3 fun Q => { Q with sqTail := 1 }).hostPut 0 (payload 64 [(0, 8, 4096), (8, 4, len)])

/-- Queue 3 holds a list of one command. -/
def listed (f : Fetched) : State := (fetching 32).modQ 3 fun Q => { Q with active := true, cmds := [f] }

theorem test_witness_ListsAreFetchedAndStarted :
    ((fetching 32).qRuns 3 = true ∧ (fetching 32).pcieUp = true ∧ ((fetching 32).q 3).active = false ∧ (fetching 32).sqPending 3 ≠ 0
      ∧ (fetching 32).dmaRefused false ((fetching 32).descAddr 3) 64 = none
      ∧ descBad ((fetching 32).hostRead ((fetching 32).descAddr 3) 64) = false
      ∧ descBad ((fetching 16).hostRead ((fetching 16).descAddr 3) 64) = true)
    ∧ ((listed (.cmd (com 0 []))).headReady 3 = true ∧ (listed (.cmd (com 0 []))).unitFree 3 = true
      ∧ (listed (.cmd (com 0 []))).refusal 3 (com 0 []) = none ∧ (listed (.cmd (com 5 []))).refusal 3 (com 5 []) = some Status.badCommand
      ∧ (listed (.cut (com 0 []))).headReady 3 = true ∧ (listed (.cut (com 0 []))).unitFree 3 = true
      ∧ (listed (.refused 8192 [] 64)).headReady 3 = true ∧ (listed (.refused 8192 [] 64)).unitFree 3 = true)
    ∧ (let s := (set_ stroking [(F.HIF_QCTRL_ENABLE 64, 1)]).modQ 64 fun Q => { Q with active := true, cmds := [.cmd (com 0x61 [(0, 4, 0x8461), (32, 8, 4096)])] }
       s.headReady 64 = true ∧ s.unitFree 64 = true ∧ s.refusal 64 (com 0x61 [(0, 4, 0x8461), (32, 8, 4096)]) = none) := by decide +kernel

theorem test_witness_BudgetAdmits :
    let s := { stroking with inForce := (set_ stroking [(F.STK_BUDGET_BUDGET 1, 7), (F.STK_BUDGET_BUDGET 3, 0),
      (F.STK_BUDGET_BUDGET 2, 0xFFFFFFFF)]).regs }.modQ 1 fun Q => { Q with spent := 7 }
    s.clk.strokes = true ∧ s.getF (F.STK_BUDGET_BUDGET 1) ≠ 0xFFFFFFFF ∧ s.getF (F.STK_BUDGET_BUDGET 1) ≤ (s.q 1).spent
      ∧ s.getF (F.STK_BUDGET_BUDGET 3) = 0 ∧ s.getF (F.STK_BUDGET_BUDGET 2) = 0xFFFFFFFF := by decide +kernel

theorem test_witness_RecordsAreWritten :
    let r : Rec := ⟨0, 0, 0, 1, 1, 0, true, false, 9 * 10 ^ 12 - 1⟩
    let s := (fetching 32).modQ 3 fun Q => { Q with recs := [r] }
    s.live = true ∧ s.pcieUp = true ∧ (s.q 3).recs = [r] ∧ r.at_ + 1 ≤ s.clk.cycle ∧ r.irq = false ∧ s.cqFree 3 ≠ 0 ∧ s.on (F.HIF_QSTATUS_DMA_HALT 3) = false
      ∧ (s.q 3).stopping = false ∧ s.dmaRefused true (s.get64 (R.HIF_QCQBASE_LO 3) + 16 * s.get (F.HIF_QCQTAIL_INDEX 3)) 16 = none := by
  decide +kernel

theorem test_witness_QueuesAndTablesAreSet :
    (∀ q ∈ [0, 79], ready.takesWrite (R.HIF_QCTRL q) = true ∧ ready.takesWrite (R.HIF_QSTATUS q) = true
      ∧ ready.on (F.HIF_QCTRL_ENABLE q) = false ∧ ready.raw (R.HIF_QSQBASE_LO q) % 4096 = 0 ∧ ready.raw (R.HIF_QCQBASE_LO q) % 4096 = 0
      ∧ (ready.q q).stopping = false ∧ ready.on (F.HIF_QCTRL_STOP q) = false ∧ (ready.q q).cur = none ∧ (ready.q q).cmds = []
      ∧ (ready.q q).recs = [] ∧ (ready.q q).active = false)
    ∧ ((ready.putB (F.HIF_QCTRL_ENABLE 3) true).on (F.HIF_QCTRL_ENABLE 3) = true
      ∧ (ready.putB (F.HIF_QCTRL_STOP 3) true).on (F.HIF_QCTRL_STOP 3) = true
      ∧ (ready.putB (F.HIF_QSTATUS_HALTED 3) true).on (F.HIF_QSTATUS_HALTED 3) = true)
    ∧ (let s := (set_ ready [(F.HIF_QCTRL_STOP 3, 1), (F.HIF_QCTRL_ENABLE 3, 1)]).modQ 3 fun Q => { Q with active := true, stopping := true }
       s.on (F.HIF_QCTRL_STOP 3) = true ∧ s.on (F.HIF_QCTRL_ENABLE 3) = true ∧ (s.q 3).active = true ∧ (s.q 3).stopping = true
         ∧ (s.modQ 3 fun Q => { Q with stopping := false }).on (F.HIF_QCTRL_STOP 3) = true
         ∧ (s.setWord (R.HIF_QSQBASE_LO 3) 64).raw (R.HIF_QSQBASE_LO 3) % 4096 ≠ 0
         ∧ (s.putB (F.HIF_QCTRL_ENABLE 3) false).on (F.HIF_QCTRL_ENABLE 3) = false)
    ∧ (∀ n ∈ [0, 255], ready.takesWrite (R.HIF_DMAW_0 n) = true) ∧ ready.takesWrite R.HIF_LOCK = true ∧ ready.takesWrite R.HIF_EVT_CTRL = true
    ∧ ready.takesWrite R.HIF_EVT_HEAD = true ∧ ready.takesWrite R.GLB_STATUS = true ∧ ready.pcieUp = true
    ∧ (∀ q < 80, (ready.q q).cur = none) ∧ (ready.putB F.HIF_LOCK_LOCK true).on F.HIF_LOCK_LOCK = true ∧ ready.on F.HIF_LOCK_LOCK = false ∧ ready.on F.HIF_EVT_CTRL_ENABLE = false
    ∧ ready.raw R.HIF_EVT_BASE_LO % 4096 = 0 ∧ (ready.setWord R.HIF_EVT_BASE_LO 64).raw R.HIF_EVT_BASE_LO % 4096 ≠ 0 := by decide +kernel

theorem test_witness_EventsAndInterrupts :
    (let s := set_ (fetching 32) [(F.HIF_EVT_LOST_COUNT, 2), (F.HIF_EVT_CTRL_ENABLE, 1)]
     s.frozen = false ∧ s.get F.HIF_EVT_LOST_COUNT ≠ 0 ∧ s.evtOn = true ∧ s.evtFree ≠ 0 ∧ s.evtMasked 0x0201 = false
       ∧ s.evtRefused 0 1 = none ∧ (s.setWord (R.HIF_EVT_MASK 2) 2).evtMasked 0x0201 = true)
    ∧ (let s := { ready with host := { ready.host with config := { msixEnable := true } } }
       s.takesWrite (R.MSIX_CTRL 255) = true ∧ s.host.config.msixEnable = true ∧ s.host.config.msixMask = false
       ∧ s.on ⟨R.MSIX_PBA 7, 31, 1⟩ = false ∧ (s.setPending 255 true).on ⟨R.MSIX_PBA (255 / 32), 255 % 32, 1⟩ = true)
    ∧ (let s := (set_ { ready with host := { ready.host with config := { msixEnable := true } } } [(F.HIF_QIRQ_HOLDOFF 79, 4),
         (F.HIF_QCTRL_IRQ_EN 79, 1), (F.MSIX_CTRL_MASK 79, 0)]).modQ 79 fun Q => { Q with irqCount := 1, irqSince := 9 * 10 ^ 12 - 1000 }
       s.masked (s.get (F.HIF_QCTRL_VECTOR 79)) = false ∧ s.takesWrite (R.MSIX_CTRL 255) = true ∧ s.barsOpen = true ∧ (s.q 79).irqCount ≠ 0 ∧ s.get (F.HIF_QIRQ_HOLDOFF 79) ≠ 0 ∧ s.on (F.HIF_QCTRL_IRQ_EN 79) = true
       ∧ (s.q 79).irqSince + 250 * s.get (F.HIF_QIRQ_HOLDOFF 79) = s.clk.cycle ∧ s.host.config.msixEnable = true
       ∧ (s.reach ((s.q 79).irqSince + 250 * s.get (F.HIF_QIRQ_HOLDOFF 79))).isSome = true)
    ∧ (let s := set_ ready [(F.HIF_EVT_IRQ_HOLDOFF, 4), (F.HIF_EVT_CTRL_IRQ_EN, 1)]
       let t := { s with host := { s.host with evt := { s.host.evt with irqCount := 1, irqSince := 9 * 10 ^ 12 - 999 } } }
       t.barsOpen = true ∧ t.host.evt.irqCount ≠ 0 ∧ t.get F.HIF_EVT_IRQ_HOLDOFF ≠ 0 ∧ t.on F.HIF_EVT_CTRL_IRQ_EN = true
         ∧ (t.reach (t.host.evt.irqSince + 250 * t.get F.HIF_EVT_IRQ_HOLDOFF)).isSome = true) := by decide +kernel

theorem test_witness_Bar4ReachesTheCistern :
    let s := set_ ready [(F.HIF_BAR4_CTRL_ENABLE, 1)]
    frozen.frozen = true ∧ ready.barsOpen = true ∧ ready.on F.HIF_BAR4_CTRL_ENABLE = false ∧ s.barsOpen = true ∧ s.bar4Open = true
      ∧ bar4Shape 0x3FFFFFF0 16 = true ∧ (s.rdRange .cis 0 16).2.2.any id = false
      ∧ ((State.wrMarked s .cis 0 [(zeros 16, true)]).rdRange .cis 0 16).2.2.any id = true := by decide +kernel

theorem test_witness_TheServoFollowsItsSource :
    (let s := set_ ready [(F.STK_CTRL_ENABLE, 1)]
     s.live = true ∧ s.on F.STK_CTRL_ENABLE = true ∧ s.source = 0 ∧ s.servo = 0 ∧ s.lit (s.get F.STK_CTRL_PTP_LINK) = false)
    ∧ (let s := set_ lit [(F.STK_CTRL_PTP_LINK, 6)]; s.live = true ∧ s.source = 0 ∧ s.lit (s.get F.STK_CTRL_PTP_LINK) = true)
    ∧ (let s := set_ ready [(F.STK_CTRL_ENABLE, 1), (F.STK_STATUS_STATE, 1), (F.STK_STEP_LIMIT_NS, 1000)]
       s.servo = 1 ∧ 2 * ((s.clk.time : Int) - ((3600 * 10 ^ 9 - 1000) * 5 / 2 : Nat)).natAbs ≤ 5 * s.get F.STK_STEP_LIMIT_NS)
    ∧ (let s := set_ ready [(F.STK_CTRL_ENABLE, 1), (F.STK_CTRL_SOURCE, 1)]
       s.on F.STK_CTRL_ENABLE = true ∧ s.source = 1 ∧ s.source ≠ 0 ∧ s.servo = 0 ∧ s.clocked = true)
    ∧ (∀ st ∈ [1, 2, 3, 4], let s := set_ stroking [(F.STK_STATUS_STATE, st)]
        s.servo = st ∧ s.on F.STK_CTRL_ENABLE = true ∧ s.clk.strokes = true ∧ s.clk.stepLost = false
          ∧ ¬2 * ((s.clk.time : Int) - 10 ^ 12).natAbs ≤ 5 * s.get F.STK_STEP_LIMIT_NS)
    ∧ { stroking with clk := { stroking.clk with stepLost := true } }.clk.stepLost = true ∧ ready.clk.strokes = false
    ∧ (let s := set_ { ready with clk := { ready.clk with lastValid := some (9 * 10 ^ 12 - 150000), interval := 100000 } } [(F.STK_STATUS_STATE, 1)]
       s.clocked = true ∧ s.servo = 1 ∧ 9 * 10 ^ 12 - 150000 + 3 * s.expected / 2 = s.clk.real ∧ s.clk.real < 9 * 10 ^ 12 - 150000 + 2500000 * s.get F.STK_HOLDOVER_MS)
    ∧ (let s := set_ { ready with clk := { ready.clk with lastValid := some 0 } } [(F.STK_STATUS_STATE, 2)]
       s.clk.lastValid = some 0 ∧ s.servo = 2 ∧ 0 + 2500000 * s.get F.STK_HOLDOVER_MS ≤ s.clk.real) := by decide +kernel

theorem test_witness_StrokesRun :
    (ready.takesWrite R.STK_CTRL = true ∧ ready.pcieUp = true ∧ ready.on F.STK_CTRL_ENABLE = false ∧ ready.source ≠ 3)
    ∧ (ready.put F.STK_CTRL_SOURCE 3).source = 3 ∧ (stroking.on F.STK_CTRL_ENABLE = true ∧ stroking.clk.strokes = true ∧ stroking.source ≠ 3
      ∧ (stroking.put F.STK_CTRL_SOURCE 3).source = 3)
    ∧ ((ready.put F.STK_CTRL_ENABLE 1).on F.STK_CTRL_ENABLE = true ∧ ready.clk.strokes = false)
    ∧ (stroking.clocked = true ∧ ready.clocked = true ∧ { ready with clk := { ready.clk with armed := true } }.clk.armed = true) := by
  decide +kernel

theorem test_witness_PeriodChanges :
    let s := set_ stroking [(F.STK_STATUS_PERIOD_PENDING, 1), (F.STK_PERIOD_PERIOD, 5000), (F.STK_PERIOD_AT_LO_AT, 6)]
    ready.takesWrite R.STK_PERIOD = true ∧ s.on F.STK_STATUS_PERIOD_PENDING = true ∧ s.get64 R.STK_PERIOD_AT_LO = 6 := by decide +kernel

theorem test_witness_PendingWritesApplyAtTheBoundary :
    (set_ ready [(F.STK_BUDGET_BUDGET 1, 7)]).RegFileWf ∧ boundaryApplied 0x10100 = true ∧ boundaryApplied 0x60043C = true
      ∧ boundaryApplied 0x600440 = false := by
  exact ⟨⟨by decide +kernel, by decide +kernel⟩, by decide +kernel, by decide +kernel, by decide +kernel⟩

theorem test_witness_OverrunPolicy :
    let c := com 1 [(16, 4, 7), (24, 8, 1)]
    let s := { (runs stroking 2 c).modQ 2 (fun Q => { Q with cur := some { run0 with waiting := true } }) with
      inForce := (set_ stroking [(F.STK_QPOL_POLICY 2, 1), (F.STK_BUDGET_BUDGET 2, 9)]).regs }
    stroking.onF (F.STK_QPOL_POLICY 3) = false ∧ (s.q 2).cmds = [.cmd c] ∧ (s.q 2).cur = some { run0 with waiting := true } ∧ s.onF (F.STK_QPOL_POLICY 2) = true
      ∧ s.unfinished 2 = true ∧ s.waitMet 2 = false ∧ (s.setFloat 7 1).waitMet 2 = true
      ∧ ((s.setFloat 7 1).setFloat 7 0).waitMet 2 = true := by decide +kernel

theorem test_witness_FramesComeInAndAreDealt :
    (lit.live = true ∧ lit.lit 6 = true ∧ lit.mode 6 = 1 ∧ lit.pipe 6 = [] ∧ lit.rx 6 = [] ∧ sget false lit.intake.discarding 6 = false
      ∧ 64 ≤ (zeros 64).length ∧ (zeros 64).length ≤ lit.get (F.WH_STP_MAXLEN_BYTES 6) ∧ lit.lagging 6 = 0)
    ∧ ready.lit 6 = false ∧ ready.takesWrite (R.WH_STP_CTRL 23) = true
    ∧ (ready.takesWrite (R.WH_LINK_CTRL 23) = true ∧ ready.linkUp 23 = false ∧ ready.get (F.LK_PAIR_STATUS_STATE 11) = 0
      ∧ (ready.openFrame 23).isSome = false ∧ ((lit.receive 6 true (zeros 64) none).openFrame 6).isSome = true)
    ∧ lit.linkUp 6 = true
    ∧ (let f : SpFrame := { id := 0, bytes := zeros 132 }
       let s := lit.setPipe 6 [f]
       ¬(s.clk.strokes = true ∧ s.clk.cycle = s.clk.openCycle) ∧ s.nextLane = some 0 ∧ s.nextHead = some (6, .inr f))
    ∧ (let e := { entry0 with second := some 3 }
       (lit.setReorder 6 [e]).nextHead = some (6, .inl e) ∧ (lit.setReorder 6 [e]).nextLane = some 0) := by decide +kernel

theorem test_witness_PassesGoThroughTheFlowStage :
    (let s := passing entry0 pass0
     s.live = true ∧ s.lookupOrder = [pass0] ∧ pass0.is ref0 = true ∧ (s.reach (pass0.dealt + 64)).isSome = true)
    ∧ (let k := cmdKey (com 0x20 [(17, 1, 1)])
       (ready.lookup 0 k).2 = .miss ∧ ((tblEffect 0x20 (com 0x20 [(17, 1, 1)]) ready).1.lookup 0 k).2 = .hit 0
         ∧ ready.on F.WH_FT_CTRL_LEARN = true ∧ (ready.putB F.WH_FT_CTRL_LEARN false).on F.WH_FT_CTRL_LEARN = false)
    ∧ (let p := { pass0 with flow := .waitPort, waitFrom := 9 * 10 ^ 12 }
       let s := passing entry0 p
       s.waiting .waitPort = [p] ∧ p.waitFrom ≤ s.clk.cycle ∧ s.flow.portCycle ≠ s.clk.cycle)
    ∧ (let p := { pass0 with flow := .waitPort, waitFrom := 9 * 10 ^ 12 - 65 }
       let s := passing entry0 p
       s.pass? ref0 = some p ∧ p.flow = .waitPort ∧ p.waitFrom + 65 ≤ s.clk.cycle)
    ∧ (let p := { pass0 with flow := .waitReloc, waitFrom := 9 * 10 ^ 12 - 65 }
       (passing entry0 p).pass? ref0 = some p ∧ p.flow = .waitReloc ∧ (passing entry0 p).served p = false)
    ∧ (let p := { pass0 with flow := .waitReloc, waitFrom := 9 * 10 ^ 12 }
       let s := passing entry0 p
       s.flow.chain = none ∧ s.waiting .waitReloc = [p] ∧ p.waitFrom ≤ s.clk.cycle
         ∧ (s.freeSlot s.insertSet p.keyspace (p.key.getD [])).2.isSome = true)
    ∧ (let p := { pass0 with flow := .waitReloc, waitFrom := 9 * 10 ^ 12 }
       let t := passing entry0 p
       let c : Chain := { pass := p, set := 0, victims := [(0, 0, 1)], dst := some (1, 0, 2), due := 9 * 10 ^ 12, moves := [((0, 0, 1), (1, 0, 2))] }
       let s := { t with flow := { t.flow with chain := some c } }
       let u := { t with flow := { t.flow with chain := some { c with dst := none, moves := [] } } }
       s.flow.chain.any (fun c => decide (c.due ≤ s.clk.cycle)) = true ∧ s.endLock.flow.chain.isSome = true
         ∧ u.endLock.flow.chain.any (fun c => c.dst.isNone) = true
         ∧ s.endLock.flow.chain.map (·.moves) = some [((0, 0, 1), (1, 0, 2))])
    ∧ (let p := { pass0 with flow := .waitReloc, waitFrom := 9 * 10 ^ 12 }
       let t := passing entry0 p
       let v := t.insertSet
       let put (t : State) (w k : Nat) := t.wrSlot v.set w (v.bucket p.keyspace (p.key.getD []) w) k (mkSlot 0 k false 0)
       let s := (List.range 8).foldl (fun t k => put (put t 0 k) 1 k) t
       s.flow.chain = none ∧ s.waiting .waitReloc = [p] ∧ p.waitFrom ≤ s.clk.cycle
         ∧ (s.freeSlot s.insertSet p.keyspace (p.key.getD [])).2 = none) := by decide +kernel

theorem test_witness_RehashLookups :
    let s := set_ ready [(F.WH_FT_STATUS_REHASH, 1), (F.WH_FT_CURSOR, 0)]
    let t := set_ ready [(F.WH_FT_STATUS_REHASH, 1), (F.WH_FT_CURSOR, 524288)]
    s.rehashing = true ∧ ¬(s.oldSet.bucket 0 [1] 0 < s.get F.WH_FT_CURSOR ∧ s.oldSet.bucket 0 [1] 1 < s.get F.WH_FT_CURSOR)
      ∧ t.rehashing = true ∧ (t.oldSet.bucket 0 [1] 0 < t.get F.WH_FT_CURSOR ∧ t.oldSet.bucket 0 [1] 1 < t.get F.WH_FT_CURSOR)
      ∧ ready.rehashing = false := by decide +kernel

theorem test_witness_FreedIndicesRest :
    let s := fun c => { ready with flow := { ready.flow with fresh := 8388608, freed := [(7, c)] } }
    8388608 ≤ (s 0).flow.fresh ∧ (s (9 * 10 ^ 12 - 4095)).flow.freed = [(7, 9 * 10 ^ 12 - 4095)]
      ∧ (s 0).clk.cycle < 9 * 10 ^ 12 - 4095 + 4096 ∧ 9 * 10 ^ 12 - 4096 + 4096 ≤ (s 0).clk.cycle := by decide +kernel

theorem test_witness_FlowsEnd :
    let e : FlowEnding := { ctx := 8388607, reason := 1, due := 9 * 10 ^ 12, raise := false, lost := true }
    ready.live = true ∧ (ready.putB F.WH_FT_CTRL_AGE true).on F.WH_FT_CTRL_AGE = true ∧ (ready.putB F.WH_FT_CTRL_AGE false).on F.WH_FT_CTRL_AGE = false
      ∧ { ready with flow := { ready.flow with endings := [e] } }.flow.endings = [e] ∧ e.due ≤ ready.clk.cycle ∧ e.queue = none ∧ { e with lost := false }.lost = false
      ∧ sortBy (·.due) [e] = [e] ∧ { ready.flow with scan := 8388607 }.scan % 8388608 = 8388607
      ∧ ready.get64 R.WH_FE_BASE_LO % 4096 = 0 ∧ ready.get64 R.WH_FE_BASE_LO + 128 * 2 ^ ready.get F.WH_FE_CTRL_LOG2 ≤ 0xA0000000
      ∧ (ready.setWord R.WH_FE_BASE_LO 64).get64 R.WH_FE_BASE_LO % 4096 ≠ 0 := by decide +kernel

theorem test_witness_PassesAreClassified :
    (let s := passing entry0 pass0
     s.live = true ∧ s.pass? ref0 = some pass0 ∧ s.classifies pass0 = some entry0
       ∧ pass0.dealt + 12 + (s.ruleStage (s.img .rule 0) pass0).2.2 + pass0.waited ≤ s.clk.cycle
       ∧ 8 * 8388607 < (regionOf (entry0.imageOf .rule).1 (entry0.imageOf .rule).2).2
       ∧ (((s.bump F.WH_RULE_REPAIR).rdTab ((regionOf (entry0.imageOf .rule).1 (entry0.imageOf .rule).2).1 + 8) 8).2.2.any id) = false)
    ∧ (let s := passing entry0 pass0
       let o := (regionOf (entry0.imageOf .rule).1 (entry0.imageOf .rule).2).1
       (((State.wrMarked s .cis (tableAddr o) [(zeros 16, true)]).bump F.WH_RULE_REPAIR).rdTab o 8).2.2.any id = true)
    ∧ (let p := { pass0 with flow := .done }
       let s := passing entry0 p
       s.entry? p.link p.seq = some entry0 ∧ s.entered p.link entry0 = false ∧ p.flow = .done ∧ p.result ≠ .dflt ∧ p.feats = none
         ∧ p.flowAt + 32 ≤ s.clk.cycle)
    ∧ (let p := { pass0 with result := .vote 0 1 2 3 }
       let s := passing entry0 p
       s.pass? ref0 = some p ∧ s.entry? p.link p.seq = some entry0 ∧ s.entered p.link entry0 = true
         ∧ (passing entry0 { p with resultAt := 9 * 10 ^ 12 }).entered p.link entry0 = false) := by decide +kernel

theorem test_witness_TreesVote :
    (let p := { pass0 with ready := some 7, result := .rule (2 ^ 20) }
     let s := passing entry0 p
     let t := { s with banks := { s.banks with treeA := Memory.write [] 64 [1] } }
     s.live = true ∧ s.issueCycle 2 = some s.clk.cycle ∧ s.nextIssue 2 s.clk.cycle = some p
       ∧ s.entry? p.link p.seq = some entry0 ∧ s.entered p.link entry0 = false ∧ (t.ensembleOf p entry0 (2 ^ 20)).isSome = true
       ∧ s.clk.cycle ≠ s.planeAt 2)
    ∧ (lit.groupLane 23 = some 23 ∧ lit.on F.WH_TG_SPARE_NONE = false ∧ lit.banks.spareFor = none)
    ∧ (let u := lit.put F.WH_TG_SPARE_GROUP 24
       u.groupLane 24 = none ∧ u.get F.WH_TG_SPARE_GROUP = 24 ∧ u.on F.WH_TG_SPARE_NONE = false)
    ∧ (lit.putB F.WH_TG_SPARE_NONE true).on F.WH_TG_SPARE_NONE = true
    ∧ { lit with banks := { lit.banks with spareFor := some 23 } }.banks.spareFor = some 23 := by decide +kernel

theorem test_witness_VerdictsAreIssued :
    (let p := { pass0 with flow := .done, result := .dflt, resultAt := 9 * 10 ^ 12 - 500 }
     let s := passing entry0 p
     (s.pass? ref0 = some p ∧ s.entry? p.link p.seq = some entry0 ∧ (s.passVerdict p entry0).isSome = true ∧ entry0.issued = false
       ∧ p.resultAt + 1 ≤ entry0.dealt + 1591 ∧ entry0.two = false ∧ s.preceded p.link entry0 = false
       ∧ p.resultAt + 8 ≤ s.clk.cycle ∧ (s.passVerdict p entry0).map (·.dflt) = some true
       ∧ ((passing entry0 { p with result := .rule 0 }).passVerdict { p with result := .rule 0 } entry0).map (·.dflt) = some false
       ∧ entry0.aborted = false))
    ∧ (let e := { entry0 with dealt := 9 * 10 ^ 12 - 2000 }
       let s := passing e { pass0 with lane := 3 }
       s.entry? 6 5 = some e ∧ s.resultInTime 6 e = false ∧ s.preceded 6 e = false ∧ e.dealt + 1599 ≤ s.clk.cycle
         ∧ s.behindPriv 6 e = false ∧ (passing e { pass0 with behind := some 0 }).behindPriv 6 e = true ∧ e ∈ s.reorder 6)
    ∧ (let e := { entry0 with issued := true, verdict := some {}, arrived := 9 * 10 ^ 12 - 1 }
       let s := passing e pass0
       s.reorder 6 = [e] ∧ e.verdict.isSome = true ∧ e.arrived + 1 ≤ s.clk.cycle ∧ sget 0 s.intake.relNext 6 ≤ s.clk.cycle)
    ∧ (let x : VRec := { bits := 1, stamp := 2, at_ := 9 * 10 ^ 12 - 200 }
       let s := lit.setVerdictQ 6 [x]
       s.reorder 6 = [] ∧ ((s.put (F.WH_VF_CTRL_MAXREC 6) 1).fullAt 6) = some (9 * 10 ^ 12 - 199)
         ∧ s.verdictQ 6 = [x] ∧ x.at_ + max 1 (s.get (F.WH_VF_CTRL_HOLD 6)) ≤ s.clk.cycle) := by decide +kernel

theorem test_witness_PolicersMeter :
    let e := fun m => putField (putField (putField (putField (zeros 32) 0 4 8000000) 8 3 3000) 11 1 m) 12 3 3000
    let b : Bucket := { tc := 3000 * 65536, te := 3000 * 65536 }
    polMode (e 1) = 1 ∧ polMode (e 2) = 2 ∧ b.tc ≤ ((65536 * polCbs (e 1) : Nat) : Int) ∧ b.te ≤ 65536 * polBurst2 (e 1) := by decide +kernel

theorem test_witness_FramesLeave :
    let r : Ready := ⟨7, 0, 6, 3, false, 0, 0, some 0⟩
    let f : SpFrame := { id := 0, bytes := zeros 64, stat := .good }
    let q : QEntry := { src := 7, frame := 0, mark := 0 }
    (let s := { ready with egress := { ready.egress with ready := [r] } }
     s.live = true ∧ s.nextReady = some r ∧ s.lit r.dst = false)
    ∧ (let s := ({ lit with egress := { lit.egress with ready := [r] } }.setPipe 7 [f])
       let full := s.put (F.EG_TC_LIMIT 6 3) 0
       let low := { full with inForce := full.regs }
       s.nextReady = some r ∧ s.lit r.dst = true ∧ (s.meter r).2 = some (.green, 0)
         ∧ s.classBytes r.dst r.tc + (s.entryLen q).1 ≤ 256 * s.getF (F.EG_TC_LIMIT r.dst r.tc)
         ∧ 256 * low.getF (F.EG_TC_LIMIT r.dst r.tc) < low.classBytes r.dst r.tc + (low.entryLen q).1)
    ∧ (let p := { r with police := true }
       let s := ({ lit with egress := { lit.egress with ready := [p], policers := Memory.write [] 11 [0x09] } }.setPipe 7 [f])
       s.nextReady = some p ∧ s.lit p.dst = true ∧ (s.meter p).2 = none)
    ∧ (let m := lit.put (F.WH_LINK_CTRL_MODE 6) 2
       let s := m.setTx 6 (some { entry := { src := 6, frame := 0, mark := 0, own := some (zeros 64) }, tc := 0, start := 0 })
       let t := (m.setTx 6 (some { entry := q, tc := 0, start := 0 })).setPipe 7 [f]
       s.mode 6 = 2 ∧ (s.tx 6).isSome = true ∧ 0 + s.wireTicks 6 64 ≤ s.clk.time ∧ q.own = none ∧ t.frame? q.src q.frame = some f
         ∧ 0 + t.wireTicks 6 64 ≤ t.clk.time
         ∧ (let t := { m with egress := { m.egress with aside := [(6, [zeros 64])] } }
            t.lit 6 = true ∧ t.tx 6 = none ∧ t.mode 6 = 2 ∧ sget [] (t.sendFull 6 4096).egress.aside 6 = [zeros 64])
         ∧ m.clk.cycle < { m.egress with origFrom := 9 * 10 ^ 12 }.origFrom + 2500000
         ∧ sget 0 m.egress.origSent 6 < (m.put (F.RV_ORIG_CAP 6) 1).get (F.RV_ORIG_CAP 6)
         ∧ (m.put (F.RV_ORIG_CAP 6) 0).get (F.RV_ORIG_CAP 6) ≤ sget 0 m.egress.origSent 6)
    ∧ lit.classBytes 6 7 + (withFcs (zeros 60)).length ≤ 256 * lit.getF (F.EG_TC_LIMIT 6 7)
    ∧ (let s := (lit.setClassQ 6 3 [q]).setPipe 7 [f]
       s.lit 6 = true ∧ s.tx 6 = none ∧ s.mode 6 ≠ 2
         ∧ ((List.range 8).foldl (fun t c => State.barClass t 6 c) (s.newHeads 6)).pickClass 6 = some 3
         ∧ ((List.range 8).foldl (fun t c => State.barClass t 6 c) (lit.newHeads 6)).pickClass 6 = none) := by decide +kernel

theorem test_witness_GateListsAndWindows :
    let l : GateList := ⟨[(0x80, 20000), (0x7F, 220000)], 0, 250000⟩
    let v := ready.modGates 23 fun g => { g with validating := true }
    let a := set_ v [(F.EG_GCL_CTRL_NENTRIES 23, 1)]
    let o := ready.modGates 23 fun g => { g with pending := some (l, 0), oper := some (l, 3600 * 10 ^ 9) }
    ready.takesWrite (R.EG_GCL_CTRL 23) = true ∧ v.live = true ∧ (v.gates 23).validating = true ∧ gclRefusal (v.stagedList 23) = none
      ∧ gclRefusal (a.stagedList 23) = some 1 ∧ (o.gates 23).pending = some (l, 0) ∧ nsTick 0 ≤ o.clk.time ∧ l.entries ≠ []
      ∧ (o.gates 23).oper = some (l, 3600 * 10 ^ 9) ∧ (o.reachTick (l.at_ (3600 * 10 ^ 9) o.clk.time).2.2).isSome = true
      ∧ ready.clk.strokes = false ∧ ready.intake.windowFrom + 250000 ≤ ready.clk.cycle ∧ ready.egress.origFrom + 2500000 ≤ ready.clk.cycle := by
  decide +kernel

theorem test_witness_BanksAreArmed :
    (∀ b ∈ [BankKind.feature, .rule, .ensemble], ready.live = true ∧ ready.on b.retiring = false ∧ ready.stagingBusy b = false
      ∧ (ready.putB b.retiring true).stagingBusy b = true ∧ (ready.putB b.validating true).on b.validating = true
      ∧ (ready.putB b.copying true).on b.copying = true ∧ (ready.putB b.retiring true).bankFree b = true)
    ∧ (ready.putB BankKind.feature.validating true).featureRefusal = none
    ∧ (set_ (ready.putB BankKind.feature.validating true) [(F.WH_PROF_CTRL_VALID 63, 1), (F.WH_PROF_CTRL_NFIELDS 63, 1),
        (F.WH_FKEY_4_EN 63, 1)]).featureRefusal.isSome = true
    ∧ stagingOff 0x104000 = true ∧ stagingOff 0x22FFFC = true ∧ stagingOff 0x230000 = false
    ∧ ((findRow regRows 0x104000).map fun x => wordRefused x.1.base 0) = some false := by decide +kernel

theorem test_witness_TableCommandsComplete :
    (∀ op ∈ [0x20, 0x22, 0x23, 0x24, 0x25, 0x26, 0x27, 0x28, 0x29, 0x30, 0x31, 0x40, 0x41, 0x50, 0x51, 0x52, 0x53, 0x54, 0x55, 0x60, 0x61,
        0x62, 0x63, 0x64, 0x65, 0x66, 0x70, 0x71], CanComplete (runs ready 79 (com op [])) (64 + (15 : Fin 16)) op (leastCycles run0) (com op []) run0)
    ∧ (∀ op ∈ [0x30, 0x31, 0x40, 0x51, 0x61, 0x70], CanComplete ((runs ready 79 (com op [])).hostStores [(4096, [1])]) (64 + (15 : Fin 16)) op
        (leastCycles run0) (com op []) run0)
    ∧ (let s := runs ready 79 (com 0x21 [(17, 1, 1)])
       s.live = true ∧ s.running (64 + (15 : Fin 16)) 0x21 = some (com 0x21 [(17, 1, 1)], run0)
         ∧ (s.flow.endings.any fun e => e.queue == some 79) = false ∧ (s.deleteTarget (com 0x21 [(17, 1, 1)])).2 = none
         ∧ s.canElapse (leastCycles run0) = true
         ∧ (let t := ((tblEffect 0x20 (com 0x20 [(17, 1, 1)]) s).1)
            ((t.deleteTarget (com 0x21 [(17, 1, 1)])).2.isSome) = true)) := by
  refine ⟨fun op h => can _ _ _ _ _ _ ?_, fun op h => can _ _ _ _ _ _ ?_, ?_⟩
  · revert op; decide +kernel
  · revert op; decide +kernel
  · decide +kernel

/-- A rehash whose next slot finds both its new buckets full of entries that only trade places. -/
def crowded : State :=
  let ins := com 0x20 [(17, 1, 1)]
  let t := (tblEffect 0x24 (com 0x24 [(16, 4, 1), (20, 4, 2)]) (tblEffect 0x20 ins ready).1).1
  let v := t.newSet
  let fill (t : State) (w k : Nat) := t.wrSlot v.set w (v.bucket 0 (cmdKey ins) w) k (mkSlot (v.fp 0 (cmdKey ins)) k false 0)
  (List.range 8).foldl (fun t k => fill (fill t 0 k) 1 k) (t.put F.WH_FT_CURSOR (t.oldSet.bucket 0 (cmdKey ins) 0))

theorem test_witness_FlowAndSenderEffects :
    let ins := com 0x20 [(17, 1, 1)]
    let full := { ready with flow := { ready.flow with fresh := 8388608 } }
    let re := set_ ready [(F.WH_FT_STATUS_REHASH, 1)]
    let snd := (tblEffect 0x27 (com 0x27 [(17, 1, 3)]) ready).1
    (fieldAt ins 24 8 = 0 ∧ windowed.grant [(true, 0, 8)] = none ∧ windowed.grant [(true, 0, 128)] = none
      ∧ (ready.insertKey (byteAt ins 16) (cmdKey ins) false 0).2.isSome = true ∧ (full.insertKey 0 (cmdKey ins) false 0).2 = none)
    ∧ (ready.rehashing = false ∧ fieldAt (com 0x24 [(16, 4, 1), (20, 4, 2)]) 16 4 ≠ 0 ∧ fieldAt (com 0x24 [(16, 4, 1), (20, 4, 2)]) 20 4 ≠ 0)
    ∧ re.rehashing = true ∧ (re.migrate 1).2 = true ∧ crowded.rehashing = true ∧ (crowded.migrate 1).2 = false ∧ anyMark (ready.rdMarked .cis 0 16).2 = false
    ∧ senderAt (snd.rdSenders (snd.sndSet 0 (cmdAddr (com 0x28 [])))).2 0 (cmdAddr (com 0x28 [])) = some 0
    ∧ senderAt (ready.rdSenders (ready.sndSet 0 (cmdAddr (com 0x28 [])))).2 0 (cmdAddr (com 0x28 [])) = none
    ∧ bit (byteAt (com 0x29 [(16, 1, 1)]) 16) 0 = true ∧ bit (byteAt (com 0x29 [(16, 1, 1)]) 16) 1 = false
    ∧ bit (byteAt (com 0x29 [(16, 1, 2)]) 16) 1 = true ∧ bit (byteAt (com 0x29 [(16, 1, 2)]) 16) 0 = false := by decide +kernel

/-- A policer entry of mode 1 at Cistern address 0. -/
def policer0 : State :=
  State.wrRange ready .cis 0 (putField (putField (putField (putField (zeros 32) 0 4 8000000) 8 3 3000) 11 1 1) 12 3 3000)

/-- 64 channel descriptors, none of them enabled, at Cistern address 0. -/
def capMap0 : State :=
  { ready with mems := { ready.mems with cis := { ready.mems.cis with
      data := ((List.range 64).map fun p => [(32 * p + 8, (1 : Byte)), (32 * p + 10, 1)]).flatten } } }

/-- The words they read as (the test reads the first two descriptors: the others repeat them). -/
def capWords : List (List Byte × Bool) := (List.replicate 64 [(putField (putField (zeros 16) 8 2 1) 10 2 1, false), (zeros 16, false)]).flatten

theorem test_witness_LoadsAndSettings :
    let load := com 0x30 [(24, 1, 1), (28, 4, 64)]
    (ready.stagingBusy .rule = false ∧ anyMark (ready.readSpace 1 0 64).2 = false ∧ (ready.putB BankKind.rule.retiring true).stagingBusy .rule = true
      ∧ byteAt load 24 ≠ 0 ∧ windowed.grant [(false, 0, 64)] = none
      ∧ imageStatus .rule (Memory.write [] 0 (natBytes 8 (0x52530880 + 2 ^ 32 + 16 * 2 ^ 48))) 2112 = Status.ok)
    ∧ (let ws := (policer0.readSpace 1 0 32).2
       anyMark ws = false ∧ polBad ((wordBytesOf ws).take 32) = false ∧ fieldAt (com 0x40 [(24, 1, 1)]) 30 2 = 0)
    ∧ (ready.past 0 = false ∧ stroking.past 5 = true ∧ stroking.past 6 = false)
    ∧ ((capMap0.readSpace 1 0 64).2 = capWords.take 4 ∧ anyMark capWords = false
       ∧ ((List.range 64).any fun p => capDescBad (capDesc (wordBytesOf capWords) p)) = false)
    ∧ anyMark (ready.readSpace 1 0 16).2 = false
    ∧ windowed.grant [(true, 0, 2)] = none := by decide +kernel

theorem test_witness_SequenceContexts :
    let c := com 0x52 [(16, 1, 255), (24, 4, 1), (32, 8, 4096), (40, 4, 4096)]
    let s := { ready with models := { ready.models with bank0 := { st := .active } } }
    let t := (tblEffect 0x52 c s).1
    (sget ({} : SeqCtx) s.seqs (byteAt c 16)).state = 0 ∧ fieldAt c 32 8 + fieldAt c 40 4 ≤ 0xA0000000 ∧ s.regionTaken 4096 4096 = false
      ∧ fieldAt c 20 4 + fieldAt c 24 4 ≤ 524288 ∧ s.activeBank = some 0 ∧ (sget ({} : SeqCtx) t.seqs (byteAt c 16)).state ≠ 0
      ∧ (∀ j ∈ ctxRange (com 0x55 [(16, 1, 255)]), (sget ({} : SeqCtx) t.seqs j).state ≠ 0
          ∧ (sget ({} : SeqCtx) t.seqs j).model = fieldAt (com 0x55 [(16, 1, 255)]) 20 4) ∧ (ctxRange (com 0x55 [(16, 1, 255)])).Nodup
      ∧ 255 ∈ ctxRange (com 0x55 [(16, 1, 255)]) ∧ 254 ∉ ctxRange (com 0x55 [(16, 1, 255)])
      ∧ windowed.grant [(true, 0, 64)] = none := by decide +kernel

theorem test_witness_ModelBanks :
    let at_ := fun (st : ModelState) => { ready with models := { ready.models with bank1 := { st := st } } }
    let c := com 0x60 [(16, 1, 1), (17, 1, 16), (32, 8, 384 * 2 ^ 30)]
    (byteAt c 16 ≤ 1 ∧ (ready.model 1).st = .empty ∧ byteAt c 17 + (ready.model 0).quota ≤ 16 ∧ fieldAt c 24 8 + fieldAt c 32 8 ≤ 384 * 2 ^ 30
      ∧ aqOverlap 0 (384 * 2 ^ 30) (ready.model 0).aqBase (ready.model 0).aqSize = false)
    ∧ ((at_ .primed).model 1).st = .primed ∧ (at_ .primed).pastAtStart 0 = false
    ∧ ([BankKind.feature, BankKind.ensemble].any fun x => ((at_ .primed).model 1).img.carries x && (at_ .primed).stagingTaken x) = false
    ∧ (at_ .primed).selectMap ((at_ .primed).model 1).img 0xFF = some none
    ∧ ((at_ .armed).model 1).st = .armed ∧ ((at_ .draining).model 1).st = .draining ∧ ready.past 6 = false
    ∧ ready.grant [(true, 0, 0)] = none ∧ windowed.grant [(true, 0, 1280)] = none ∧ ((at_ .loading).model 1).st = .loading
    ∧ byteAt (com 0x61 [(25, 1, 1)]) 25 = 1 ∧ fieldAt (com 0x66 [(24, 8, 6)]) 24 8 ≠ 0 := by decide +kernel

theorem test_witness_EngineCommandsComplete :
    (∀ op ∈ [0x11, 0x12], ∀ fs ∈ [[], [((3 : Fin 4), [5])]], ∀ c ∈ [com op [], com op [(54, 1, 8)]],
      CanComplete (runs ready 15 c) (15 : Fin 16) op ((runs ready 15 c).cyclesDue (15 : Fin 16) run0 (matTime (15 : Fin 16) fs c (runs ready 15 c)))
        c run0)
    ∧ faultsOn [] (com 0x11 []) = []
    ∧ CanComplete (runs ready 15 (com 0x13 [])) (15 : Fin 16) 0x13 ((runs ready 15 (com 0x13 [])).cyclesLeft (15 : Fin 16) 0 run0) (com 0x13 []) run0
    ∧ (∀ op ∈ [0x10, 0x11, 0x12, 0x13], CanComplete (runs ready 31 (com op [])) (16 + (15 : Fin 16)) op
        ((runs ready 31 (com op [])).cyclesLeft (16 + (15 : Fin 16)) (vecCycles (com op [])) run0) (com op []) run0)
    ∧ (let c := com 0x10 [(40, 4, 1), (44, 4, 1)]
       CanComplete (runs ready 47 c) (32 + (15 : Fin 16)) 0x10 ((runs ready 47 c).cyclesDue 47 run0 (ensembleCycles c (runs ready 47 c))) c run0)
    ∧ (let s := (runs ready 63 (com 0x10 [])).hostStores [(4096, [1])]
       CanComplete s (63 : Fin 80) 0x10 (leastCycles run0) (com 0x10 []) run0 ∧ s.copyWaits (com 0x10 []) = false)
    ∧ CanComplete (runs ready 63 (com 0x11 [])) (63 : Fin 80) 0x11
        ((runs ready 63 (com 0x11 [])).cyclesLeft 63 (transposeCycles 0 0 1) run0) (com 0x11 []) run0
    ∧ (let c := com 0x10 [(32, 4, 16), (36, 1, 1), (37, 1, 2)]
       ready.grant [] = none ∧ ready.copyLocal c ≠ 3 ∧ byteAt c 36 ≠ ready.copyLocal c ∧ byteAt c 36 ≠ 0 ∧ ready.copyLocal c ≠ 0)
    ∧ (let c := com 0x10 [(32, 4, 16), (36, 1, 0), (37, 1, 1)]
       ready.copyLocal c ≠ 0 ∧ byteAt c 36 = 0 ∧ ready.host.granted = false ∧ ready.dmaRefused false 0 16 = some 0
         ∧ (ready.grant [(false, 0, 16)]).isSome = true)
    ∧ (let c := com 0x10 [(32, 4, 16), (36, 1, 1), (37, 1, 3), (38, 2, 1)]
       let s := { ready with routes := [(1, 2 ^ 15 + 24)] }
       ready.copyLocal c = 3 ∧ ready.copyRoute c = none ∧ (runs s 63 c).copyWaits c = true ∧ (runs s 63 c).running 63 0x10 = some (c, run0)) := by
  refine ⟨fun op h fs hf c hc => can _ _ _ _ _ _ ?_, ?_, can _ _ _ _ _ _ ?_, fun op h => can _ _ _ _ _ _ ?_, can _ _ _ _ _ _ ?_,
    ⟨can _ _ _ _ _ _ ?_, ?_⟩, can _ _ _ _ _ _ ?_, ?_⟩
  · simp only [List.mem_cons, List.not_mem_nil, or_false] at h hf hc
    rcases h with rfl | rfl <;> rcases hf with rfl | rfl <;> rcases hc with rfl | rfl <;> decide +kernel
  · decide +kernel
  · decide +kernel
  · revert op; decide +kernel
  all_goals decide +kernel

theorem test_witness_TilesAreSparedAndCapturesDrain :
    let s := set_ ready [(F.MX_TILE_LOGICAL 67, 63), (F.MX_TILE_STATE 66, 1)]
    let x : TileSwap := ⟨63, some 66, 9 * 10 ^ 12 - 4000, false⟩
    let m : TileMirror := ⟨63, 66, 9 * 10 ^ 12 - 4864, false⟩
    let bank : CapBank := { stroke := 4, time := 0, sealNo := 4, cfg := {}, gen := 0, sealedAt := 9 * 10 ^ 12 - 1700 }
    s.live = true ∧ s.get (F.MX_TILE_STATE 67) = 0 ∧ s.get (F.MX_TILE_LOGICAL 67) = 63 ∧ (s.q 15).cur = none ∧ (s.q 31).cur = none
      ∧ s.get (F.MX_TILE_STATE 66) = 1 ∧ s.pcieUp = true ∧ s.takesWrite R.MX_RETIRE = true
      ∧ { s with matrix := { swaps := [x] } }.matrix.swaps.find? (fun y => !y.ready) = some x ∧ (s.reach (x.since + 4096)).isSome = true
      ∧ { s with matrix := { mirror := some m } }.matrix.mirror = some m ∧ m.done = false ∧ (s.reach (m.since + 4864)).isSome = true
      ∧ s.clk.cycle < x.since + 4096 ∧ s.canElapse (x.since + 4096 - s.clk.cycle) = true ∧ m.since + 4864 ≤ s.clk.cycle
      ∧ s.on (F.MX_VEC_STATUS_FAILED 15) = false
      ∧ { s with capture := { closed := [bank] } }.capture.closed = [bank]
      ∧ (s.reach (bank.sealedAt + 1600 + 256 + ceilDiv bank.cfg.slotBytes 1536)).isSome = true := by decide +kernel

/-- Word 7 of the Cistern has two wrong data bits; its page has no other error. -/
def upset7 : State := State.upset ready .cis 7 3 false

theorem test_witness_MemoriesAreKept :
    (ready.live = true ∧ failedWords (ready.coded .cis) .cis 0 = [] ∧ failedWords (upset7.coded .cis) .cis 0 = [7]
      ∧ (∀ j < MemId.cis.columns, codeLost ((ready.readCode .cis 0).coded .cis) .cis 0 j = false)
      ∧ ready.scrubOn .cis = false ∧ (ready.put (F.SEC_CORE_STATUS_STATE 7) 1).scrubOn .cis = true
      ∧ (ready.put (F.SEC_CORE_STATUS_STATE 7) 1).scrubOn .aq = true)
    ∧ (let s := ready.modBank 2047 fun b => { b with retireFrom := some (9 * 10 ^ 12 - 163840) }
       (s.bank 2047).retireFrom = some (9 * 10 ^ 12 - 163840) ∧ (s.reach (9 * 10 ^ 12 - 163840 + 163840)).isSome = true)
    ∧ ready.on (F.AQ_CHAN_RETIRED 47) = false ∧ (ready.put (F.AQ_CHAN_RETIRED 47) 0).live = true
    ∧ sget 0 { ready with mems := { ready.mems with linkFails := [(47, 2)] } }.mems.linkFails 47 = 2
    ∧ sget 0 ready.mems.linkFails 47 < 2
    ∧ ready.takesWrite (injMode .cis).reg = true ∧ ready.takesWrite (injMode .aq).reg = true
    ∧ ready.takesWrite R.CI_REMAP_CMD = true ∧ ready.takesWrite R.AQ_REMAP_CMD = true ∧ ready.pcieUp = true
    ∧ ready.mems.cis.outcome .cis 268435455 = .clean ∧ (ready.bank (globalBank 268435455)).left ≠ 0
    ∧ (ready.bank 0).retireFrom = none ∧ (ready.put (spareFld 15) 1).sparesFree (bayOf 268435455) ≠ 0
    ∧ 201326591 < MemId.aq.pages ∧ MemId.aq.pages ≤ 268435455 ∧ (∀ i < 64, ready.mems.aq.outcome .aq i = .clean) ∧ ready.get (F.AQ_CHAN_REMAP_LEFT (channelOf 0)) ≠ 0 := by decide +kernel

/-- Link LK24, of the Luapo personality: enabled, allowed, UP. -/
def lua24 : State := set_ ready [(F.RV_STRAPS, 31), (F.RV_LINK_ALLOW_LO, 0xFFFFFFFF), (F.RV_LINK_ALLOW_HI, 0xFF), (F.LK_CTRL_ENABLE 24, 1),
  (F.LK_STATUS_STATE 24, 4)]

/-- LK06, enabled and allowed. -/
def eth6 : State := set_ lua24 [(F.LK_CTRL_ENABLE 6, 1), (F.LK_PAIR_STATUS_STATE 3, 3)]

theorem test_witness_LinksRun :
    (let on := (lua24.putB (F.LK_CTRL_ENABLE 39) true).modLink 39 fun l => { l with been := false }
     lua24.takesWrite (R.LK_CTRL 39) = true ∧ lua24.pcieUp = true ∧ lua24.on (F.LK_CTRL_ENABLE 39) = false ∧ on.allowed 39 = true)
    ∧ (let s := set_ ready [(F.RV_LINK_ALLOW_LO, 0), (F.RV_LINK_ALLOW_HI, 0)]
       ((s.putB (F.LK_CTRL_ENABLE 39) true).modLink 39 fun l => { l with been := false }).allowed 39 = false)
    ∧ (eth6.on (F.LK_CTRL_ENABLE 6) = true ∧ eth6.get (F.LK_STATUS_STATE 6) ≠ 4 ∧ eth6.live = true ∧ (eth6.link 6).recalFrom = none)
    ∧ ((eth6.modLink 6 fun l => { l with recalFrom := some 0 }).link 6).recalFrom = some 0
    ∧ (let s := set_ eth6 [(F.LK_STATUS_STATE 6, 1)]
       s.on (F.LK_CTRL_PERS 6) = false ∧ s.get (F.LK_STATUS_STATE 6) = 1 ∧ s.trainable 6 = true ∧ s.chooseRate 6 = some (0, 255))
    ∧ lua24.get (F.LK_STATUS_STATE 24) = 4 ∧ lit.get (F.LK_STATUS_STATE 6) = 4 := by decide +kernel

theorem test_witness_LightComesAndGoes :
    (eth6.live = true ∧ eth6.on (F.LK_STATUS_LOS 6) = false ∧ eth6.get (F.LK_STATUS_STATE 6) ≠ 4 ∧ (eth6.put (F.LK_CTRL_APR_EN 6) 0).on (F.LK_CTRL_APR_EN 6) = false)
    ∧ (eth6.put (F.LK_CTRL_APR_EN 6) 1).on (F.LK_CTRL_APR_EN 6) = true ∧ eth6.on (F.LK_INLET_APR (6 / 4)) = false
    ∧ ((eth6.putB (F.LK_STATUS_LOS 6) true).on (F.LK_STATUS_LOS 6) = true ∧ (eth6.putB (F.LK_STATUS_LOS 6) true).joined 6 = true)
    ∧ (let s := set_ ready [(F.LK_INLET_APR 9, 1)]
       s.on (F.LK_INLET_APR 9) = true ∧ (∀ k < 4, s.on (F.LK_CTRL_APR_EN (4 * 9 + k)) = true → s.on (F.LK_STATUS_LOS (4 * 9 + k)) = false)
         ∧ (s.reach (sget 0 s.losClear 9 + 25000000)).isSome = true)
    ∧ (let s := set_ ready [(F.LK_CTRL_APR_EN 39, 1), (F.LK_STATUS_LOS 39, 1)]
       s.on (F.LK_CTRL_APR_EN (4 * 9 + 3)) = true ∧ s.on (F.LK_STATUS_LOS (4 * 9 + 3)) = true)
    ∧ (1899#16).toInt < 1900 ∧ 1900 ≤ (1900#16).toInt := by decide +kernel

/-- Three codewords of header count 0, 1 and 2 and no data, on wavelength 7 of a link with all eight lanes. -/
def lockLevels : Nat :=
  (levels false 8160 0 (laneEncode (laneHeader 7 0 false) + 2 ^ 5440 * laneEncode (laneHeader 7 1 false)
    + 2 ^ 10880 * laneEncode (laneHeader 7 2 false))).1

theorem test_witness_LanesFailAndLock :
    let used := eth6.modLink 6 fun l => { l with use := 255 }
    (used.live = true ∧ used.on (F.LK_CTRL_PERS 6) = false ∧ bit (used.link 6).use 7 = true ∧ used.on (F.LK_STATUS_LOS 6) = false
      ∧ bit (used.dark 6) 7 = false ∧ bit (eth6.link 6).use 7 = false ∧ (used.link 6).been = false)
    ∧ bit ((eth6.put ⟨R.LK_LANE 6, 0, 8⟩ 1).dark 6) 0 = true
    ∧ (let s := eth6.modLink 6 fun l => { l with settleFrom := some (9 * 10 ^ 12 - 5000000) }
       (s.link 6).settleFrom = some (9 * 10 ^ 12 - 5000000) ∧ (s.reach (9 * 10 ^ 12 - 5000000 + 5000000)).isSome = true ∧ s.chooseRate 6 = some (0, 255)
         ∧ (s.put ⟨R.LK_LANE 6, 0, 8⟩ 0x7F).chooseRate 6 = none)
    ∧ (eth6.restState 6 ≠ 5 ∧ ready.restState 6 = 5 ∧ (eth6.put (F.LK_STATUS_CLAMPED 6) 1).on (F.LK_STATUS_CLAMPED 6) = true)
    ∧ ((eth6.modLink 6 fun l => { l with relight := some (7, 9 * 10 ^ 12 - 2500000) }).link 6).relight = some (7, 9 * 10 ^ 12 - 2500000)
    ∧ (eth6.reach (9 * 10 ^ 12 - 2500000 + 2500000)).isSome = true ∧ eth6.pcieUp = true
    ∧ (let s := (set_ lua24 [(F.LK_STATUS_STATE 24, 1)]).modLink 24 fun l => { l with use := 255, locked := 127 }
       s.on (F.LK_CTRL_PERS 24) = true ∧ s.get (F.LK_STATUS_STATE 24) = 1 ∧ bit (s.link 24).use 7 = true ∧ s.trainable 24 = true
         ∧ (s.link 24).locked ||| 2 ^ 7 = (s.link 24).use ∧ (s.link 24).locked ||| 2 ^ 6 ≠ (s.link 24).use
         ∧ (let ds := ((wordsIn false 3 0 lockLevels).1.map laneDecode).filterMap fun d => d.map (·.1)
            (ds.length, headersAgree 7 false ds) = (3, true)) ∧ [0].length ≠ 3 ∧ s.on (F.LK_CTRL_PRECODE 24) = false) := by decide +kernel

theorem test_witness_PairsMove :
    let fit := set_ eth6 [(F.LK_CTRL_ENABLE 7, 1), (F.WH_LINK_CTRL_MODE 6, 1), (F.WH_LINK_CTRL_MODE 7, 1), (F.LK_PAIR_STATUS_STATE 3, 0)]
    let at_ := fun st => set_ ready [(F.LK_PAIR_STATUS_STATE 3, st)]
    let early := fun st rep => (at_ st).modPair 3 fun x => { x with moveFrom := 9 * 10 ^ 12 - 500000, repeated := rep }
    (fit.live = true ∧ fit.takesWrite (R.LK_PAIR_CTRL 3) = true ∧ fit.pcieUp = true ∧ fit.engageTarget 3 = some 1
      ∧ (set_ fit [(F.WH_LINK_CTRL_MODE 6, 0), (F.WH_LINK_CTRL_MODE 7, 0)]).engageTarget 3 = some 6 ∧ (at_ 3).engageTarget 3 = none)
    ∧ ((at_ 1).get (F.LK_PAIR_STATUS_STATE 3) = 1 ∧ ((at_ 1).link 6).going = none ∧ ((at_ 1).pair 3).reverse = none
      ∧ fit.frozen = false ∧ fit.phase ≠ .reset)
    ∧ (∀ st ∈ [0, 5], (at_ st).get (F.LK_PAIR_STATUS_STATE 3) = st)
    ∧ (((at_ 6).modPair 3 fun x => { x with reverse := some (0, 3) }).pair 3).reverse = some (0, 3)
    ∧ (at_ 3).get (F.LK_PAIR_STATUS_STATE 3) = 3 ∧ (at_ 4).get (F.LK_PAIR_STATUS_STATE 3) = 4 ∧ (at_ 6).get (F.LK_PAIR_STATUS_STATE 3) = 6
    ∧ ((at_ 2).get (F.LK_PAIR_STATUS_STATE 3) = 2
      ∧ ((at_ 2).reach (((at_ 2).pair 3).trainFrom + 2500000 * (at_ 2).get (F.LK_PAIR_CTRL_TIMEOUT 3))).isSome = true)
    ∧ (let s := set_ lit [(F.LK_PAIR_CTRL_AUTO_REVERT 3, 1), (F.LK_STATUS_STATE 6, 0)]
       s.on (F.LK_PAIR_CTRL_AUTO_REVERT 3) = true ∧ s.linkUp 6 = false ∧ s.linkUp 7 = true ∧ s.get (F.LK_PAIR_STATUS_STATE 3) = 3 ∧ (s.reach ((s.link 6).downAt + 2500000)).isSome = true)
    ∧ (∀ st ∈ [1, 4, 6], (early st false).on (F.LK_PAIR_STATUS_STUCK 3) = false ∧ ((early st false).pair 3).repeated = false
        ∧ ((early st false).pair 3).moveFrom + 500000 ≤ (early st false).clk.cycle)
    ∧ ((early 4 true).pair 3).repeated = true := by decide +kernel

/-- A flit of a type with a good CRC, its payload's first word set. -/
def flit (h body : Nat) : List Byte :=
  let f := natBytes 8 h ++ natBytes 16 body ++ zeros 224
  f ++ natBytes 8 (crc64 f)

theorem test_witness_LuapoCarriesMessages :
    let init := set_ lua24 [(F.LK_STATUS_STATE 24, 3)]
    let data := zeros 248 ++ natBytes 8 (crc64 (zeros 248))
    (lua24.live = true ∧ ready.flitLink 24 = false ∧ lua24.flitLink 24 = true ∧ flitOk (zeros 256) = false ∧ lua24.linkUp 24 = true
      ∧ flitOk data = true ∧ fhType (fieldAt data 0 8) ≠ 4)
    ∧ (let s := init.modLua 24 fun l => { l with init := true }
       s.flitLink 24 = true ∧ s.get (F.LK_STATUS_STATE 24) = 3 ∧ (s.lua 24).init = true ∧ (s.linkComesUp 24).linkUp 24 = true)
    ∧ (flitIs 2 (flit 2 0) = true ∧ flitIs 3 (flit 3 0) = true ∧ flitIs 4 (flit 4 0x10000) = true ∧ flitIs 6 (flit 6 0) = true)
    ∧ (byteAt (((flit 4 0x10000).drop 8).take 240) 2 = 1 ∧ lua24.get F.STK_CTRL_ROLE ≠ 2 ∧ fhType 1 = 1 ∧ fhSeq 1 = (lua24.lua 24).rxSeq
      ∧ fhSeq 65 ≠ (lua24.lua 24).rxSeq ∧ (lua24.lua 24).replayAt ≠ some lua24.clk.cycle)
    ∧ (let ws := lanesOf 255; [0, 0, 0, 0, 0, 0, 0, 0].length = ws.length)
    ∧ (let f : Flit := ⟨0, 0, true, true, putField (putField (putField (zeros 240) 5 1 1) 6 1 1) 16 2 16⟩
       let ws := messageWords [f]
       byteAt f.payload 5 = 1 ∧ byteAt f.payload 6 = 1 ∧ fieldAt f.payload 8 8 % 16 = 0 ∧ fieldAt f.payload 16 2 = 16
         ∧ fieldAt f.payload 8 8 + 16 ≤ spaceEnd 1 ∧ 16 / 16 ≤ ws.length ∧ bit (byteAt f.payload 7) 0 = false)
    ∧ (let f : Flit := ⟨0, 0, true, true, putField (putField (putField (zeros 240) 6 1 1) 8 8 (2 ^ 32 - 15)) 16 2 16⟩
       spaceEnd (byteAt f.payload 6) < fieldAt f.payload 8 8 + fieldAt f.payload 16 2)
    ∧ (let f : Flit := ⟨0, 0, true, true, []⟩
       let s := lua24.modLua 24 fun l => { l with replay := [(0, f)], ackAt := 9 * 10 ^ 12 - 5000, reqAt := 9 * 10 ^ 12 - 2500000, inbox := [(3, [f])] }
       (s.lua 24).replay = [(0, f)] ∧ s.luaUp 24 = true ∧ (s.reach ((s.lua 24).ackAt + 5000)).isSome = true ∧ (s.reach ((s.lua 24).reqAt + 2500000)).isSome = true
         ∧ (s.lua 24).inbox = [(3, [f])] ∧ ready.luaUp 24 = false ∧ (ready.lua 24).replay = [] ∧ (ready.lua 24).inbox = []) := by decide +kernel

/-- A replacement in a stage. -/
def job (j : FwJob) : State := { ready with sec := { ready.sec with fw := j } }

/-- The acceptance of a module needs a signature of FIPS 205 that verifies, which no test evaluates. -/
theorem test_witness_FirmwareIsReplaced :
    let m := putField (zeros 256) 8 1 7
    (ready.live = true ∧ (ready.put F.SEC_FW_STATUS_BUSY 1).on F.SEC_FW_STATUS_BUSY = true ∧ ready.on F.SEC_FW_STATUS_BUSY = false
      ∧ ready.get64 R.SEC_FW_ADDR_LO % 16 = 0 ∧ ready.get64 R.SEC_FW_ADDR_LO + ready.get F.SEC_FW_LEN ≤ 2 ^ 32 ∧ ready.get F.SEC_FW_LEN ≤ 1048576)
    ∧ (job { stage := .staged, poisoned := true }).sec.fw.stage = .staged ∧ (job { stage := .staged, mod := zeros 16 }).moduleCheck (zeros 16) ≠ 0
    ∧ (job { stage := .begun, since := 9 * 10 ^ 12 - 125000 }).clk.cycle ≤ 9 * 10 ^ 12 - 125000 + 125000
    ∧ (modRole (zeros 256) < 8 ∧ modRole m = modRole m)
    ∧ (job { stage := .begun, since := 9 * 10 ^ 12 - 125000 }).sec.fw.wasDown = false
    ∧ (job { stage := .loaded, since := 9 * 10 ^ 12 - 475000 }).sec.fw.since + 475000 ≤ ready.clk.cycle
    ∧ (job { stage := .storing }).sec.fw.stage = .storing := by decide +kernel

theorem test_witness_CoresRecover :
    let s := { ready with phase := .recovery, sec := { ready.sec with recovery := zeros 16 } }
    (ready.takesWrite R.SEC_REC_CTRL = true ∧ ready.takesWrite R.SEC_REC_DATA = true ∧ ready.pcieUp = true ∧ ready.sec.recovery.length < 1048576)
    ∧ (s.phase = .recovery ∧ s.takesWrite R.SEC_FW_CTRL = true ∧ s.on F.SEC_FW_STATUS_BUSY = false ∧ s.moduleCheck s.sec.recovery ≠ 0)
    ∧ (let t := set_ ready [(F.SEC_CORE_STATUS_STATE 7, 1), (F.SEC_CORE_STATUS_STATE 6, 3)]
       let u := { t with sec := { t.sec with cores := [(7, { expired := some (9 * 10 ^ 12 - 2500000000) })] } }
       t.coreState 7 = 1 ∧ t.coreState 6 = 3 ∧ (t.core 7).startedAt + 2500 * t.get (F.RV_WDT 7) ≤ t.clk.cycle
         ∧ (t.reach ((t.core 7).startedAt + 2500 * t.get (F.RV_WDT 7))).isSome = true ∧ (t.core 7).expired = none
         ∧ (u.core 7).expired = some (9 * 10 ^ 12 - 2500000000) ∧ u.clk.cycle ≤ 9 * 10 ^ 12 - 2500000000 + 2500000000) := by decide +kernel

/-- A token for RETIRED, unsigned, consented to, at Cistern address 0. -/
def token0 : State :=
  let s := set_ { ready with nv := { ready.nv with lifecycle := 2 }, sec := { ready.sec with consent := true } } [(F.SEC_LC_LEN, 64), (F.SEC_LC_CTRL_TARGET, 4)]
  State.wrRange s .cis 0 (natBytes 4 0x4C430880 ++ natBytes 4 4 ++ zeros 56)

theorem test_witness_LifecycleMoves :
    (ready.live = true ∧ ready.pcieUp = true ∧ (ready.put F.SEC_LC_STATUS_BUSY 1).on F.SEC_LC_STATUS_BUSY = true)
    ∧ (token0.on F.SEC_LC_STATUS_BUSY = false ∧ token0.on F.SEC_FW_STATUS_BUSY = false ∧ token0.get64 R.SEC_LC_ADDR_LO % 16 = 0
      ∧ token0.get64 R.SEC_LC_ADDR_LO + token0.get F.SEC_LC_LEN ≤ 2 ^ 32 ∧ token0.get F.SEC_LC_LEN ≤ 64 + 2 * sigLen
      ∧ transition token0.nv.lifecycle 0 = none
      ∧ (let r := token0.rdRange .cis 0 64; r.1.tokenReason 4 r.2.1 (r.2.2.contains true)) = 0
      ∧ (let r := token0.rdRange .cis 0 64; r.1.tokenReason 3 r.2.1 (r.2.2.contains true)) = 2)
    ∧ { ready with sec := { ready.sec with burning := some 1 }, nv := { ready.nv with lifecycle := 0 } }.sec.burning = some (1 : Fin 8).val
    ∧ (ready.get F.GLB_STATUS_LIFECYCLE = 1 ∧ ready.on F.SEC_OWNER_STATUS_ENROLLED = false ∧ ready.sec.enrolling = none) := by decide +kernel

theorem test_witness_AttestationAndLocks :
    (ready.put F.SEC_ATT_STATUS_BUSY 1).on F.SEC_ATT_STATUS_BUSY = true ∧ ready.on F.SEC_ATT_STATUS_BUSY = false
    ∧ (ready.put F.GLB_STATUS_LIFECYCLE 4).get F.GLB_STATUS_LIFECYCLE = 4 ∧ ready.get F.GLB_STATUS_LIFECYCLE ≠ 0 ∧ ready.get F.GLB_STATUS_LIFECYCLE ≠ 4
    ∧ ready.get64 R.SEC_ATT_ADDR_LO % 16 = 0 ∧ ready.get64 R.SEC_ATT_ADDR_LO + 9968 ≤ 0xA0000000
    ∧ (let s := { ready.put F.SEC_ATT_STATUS_BUSY 1 with sec := { ready.sec with report := some [1] } }
       s.sec.report = some [1] ∧ s.on F.SEC_ATT_STATUS_BUSY = true)
    ∧ (ready.put F.RV_LOCK_LOCK 1).on F.RV_LOCK_LOCK = true ∧ ready.on F.RV_LOCK_LOCK = false := by decide +kernel

theorem test_witness_ResetsRestart :
    ready.phase ≠ .safe ∧ ready.sec.fw.stage ≠ .storing ∧ ready.takesWrite R.GLB_RESET = true ∧ ready.pcieUp = true ∧ ready.phase ≠ .reset
    ∧ { ready with phase := .safe }.phase = .safe ∧ { ready with sec := { ready.sec with fw := { stage := .storing } } }.sec.fw.stage = .storing
    ∧ { ready with phase := .reset }.phase = .reset ∧ ready.power.clkRef = true
    ∧ frozen.takesWrite R.DBG_RELEASE = true ∧ frozen.frozen = true ∧ ready.frozen = false
    ∧ ready.atReset 0 648 = true ∧ ready.atReset 0 649 = false ∧ { ready with power := { ready.power with clkRef := false } }.power.clkRef = false := by
  decide +kernel

/-- What an uneventful start-up meets. -/
def found : Findings :=
  { laGroups := 31, smbAddr := 0, rails := [720, 750, 900, 3300, 1050, 500, 1200, 1800, 900], inRange := true, failed := [], channels := [],
    inlets := List.replicate 10 2200, codes := List.replicate 40 (List.replicate 16 0), rings := [], links := [], cycles := 1000 }

/-- A store whose every slot passes its check needs signatures that verify, which no test evaluates. -/
theorem test_witness_StartupEndsInReady :
    let s := { State.reset with phase := .reset, power := { State.reset.power with holdRails := true, lowRails := [0] } }
    s.release = none ∧ State.reset.release = some State.reset ∧ State.reset.frozen = false ∧ State.reset.canElapse (min found.cycles 6225000000) = true
      ∧ foundOk found = true ∧ State.reset.badSlot = some (8, 1) ∧ { State.reset with nv := { State.reset.nv with lifecycle := 4 } }.nv.lifecycle = 4 := by
  decide +kernel

theorem test_witness_RailsPowerAndHeat :
    (ready.live = true ∧ ready.power.tests = [] ∧ ready.belowWarn 0 676 = true ∧ ready.atReset 0 676 = false ∧ ready.dip 0 = none
      ∧ ready.belowWarn 0 677 = false)
    ∧ (let s := ready.setDip 1 (some { low := 700, below := true, since := 9 * 10 ^ 12 - 5000, first := 4 })
       s.dip 1 = some { low := 700, below := true, since := 9 * 10 ^ 12 - 5000, first := 4 } ∧ s.clocksRun = true
         ∧ 9 * 10 ^ 12 - 5000 + 5000 ≤ s.clk.real
         ∧ (s.reachReal (9 * 10 ^ 12 - 5000 + 5000)).isSome = true)
    ∧ ([800][0]? = some 800 ∧ ready.outOfRange 800 = some (2, 800))
    ∧ (let s := ready.setDip 8 (some { low := 700, below := false, since := 9 * 10 ^ 12 - 125000, first := 4 })
       (s.dip 8).map (·.below) = some false ∧ 9 * 10 ^ 12 - 125000 + 125000 ≤ s.clk.real
         ∧ (s.reachReal (9 * 10 ^ 12 - 125000 + 125000)).isSome = true)
    ∧ ((ready.reach ready.nextMeasurement).isSome = true ∧ ready.get F.PWR_LIMIT_WATTS < 1023 ∧ 2 < ready.get F.PWR_STATUS_ARRAY_FRACTION)
    ∧ (let s := { set_ ready [(F.PWR_STATUS_ARRAY_FRACTION, 7)] with power := { ready.power with below97 := 9 } }
       100 * 0 < 97 * s.get F.PWR_LIMIT_WATTS ∧ s.get F.PWR_STATUS_ARRAY_FRACTION < 8 ∧ s.power.below97 % 10 = 9 ∧ s.power.underLimit < 999)
    ∧ (let s := { set_ ready [(F.PWR_STATUS_ARRAY_FRACTION, 1)] with power := { ready.power with eighthFrom := some (9 * 10 ^ 12 - 50000) } }
       s.get F.PWR_STATUS_ARRAY_FRACTION = 1 ∧ s.power.eighthFrom = some (9 * 10 ^ 12 - 50000) ∧ 9 * 10 ^ 12 - 50000 + 50000 ≤ s.clk.cycle
         ∧ s.on F.PWR_STATUS_ALERT = false)
    ∧ ((ready.put (F.SEC_CORE_STATUS_STATE 7) 1).coreState 7 = 1 ∧ ready.power.moved = none ∧ ready.nv.coreMv = 720 ∧ ready.coreSet = 720)
    ∧ ((ready.get F.PWR_TWARN_LEVEL : Int) < (1150#16).toInt ∧ ready.power.warned = false
      ∧ (1149#16).toInt < 1150 ∧ 1150 ≤ (1150#16).toInt ∧ (0#16).toInt ≤ (ready.get F.PWR_TWARN_LEVEL : Int)) := by decide +kernel

theorem test_witness_SelfTestsRun :
    let ist := fun u => { set_ ready [(F.PWR_IST_CTRL_EN, 1), (F.SEC_CORE_STATUS_STATE 7, 1)] with power := { ready.power with tests := [⟨u, 9 * 10 ^ 12 - 2500000⟩] } }
    (ready.live = true ∧ ready.pcieUp = true ∧ (ready.put F.GLB_STATUS_LIFECYCLE 2).get F.GLB_STATUS_LIFECYCLE = 2
      ∧ ready.get F.GLB_STATUS_LIFECYCLE ≠ 2 ∧ ready.get F.GLB_STATUS_LIFECYCLE ≠ 4 ∧ ready.outOfRange 720 = none ∧ ready.outOfRange 800 = some (2, 800))
    ∧ ({ ready with phase := .bist }.phase = .bist ∧ ready.on F.PWR_BIST_STATUS_REFUSED_RANGE = false ∧ ready.phase ≠ .bist)
    ∧ (let s := set_ lit [(F.PWR_IST_CTRL_EN, 1), (F.SEC_CORE_STATUS_STATE 7, 1)]
       s.on F.PWR_IST_CTRL_EN = true ∧ s.outOfRange 720 = none ∧ s.istTest (.headerLane 23) = none ∧ s.istReady (.headerLane 23) = true
         ∧ s.istReady (.tile 67) = false ∧ lit.tended 7 = false)
    ∧ (let s := ist (.headerLane 23)
       s.istTest (.headerLane 23) = some ⟨.headerLane 23, 9 * 10 ^ 12 - 2500000⟩ ∧ s.istOver (.headerLane 23) = true
         ∧ (s.reach (9 * 10 ^ 12 - 2500000 + istCycles (.headerLane 23))).isSome = true)
    ∧ (∀ u ∈ [IstUnit.bank 5, .slice 18], (ist u).istOver u = true ∧ ((ist u).reach (9 * 10 ^ 12 - 2500000 + istCycles u)).isSome = true)
    ∧ (ready.put F.PWR_IST_CTRL_EN 0).on F.PWR_IST_CTRL_EN = false
    ∧ ((ist (.slice 18)).istTest (.slice 18) = some ⟨.slice 18, 9 * 10 ^ 12 - 2500000⟩ ∧ (sget (0, 0) (ist (.slice 18)).power.aborts 18).1 < 999
      ∧ 999 ≤ (sget (0, 0) [(18, 999, 0)] 18).1) := by
  decide +kernel

theorem test_witness_FreezesStopTheClocks :
    ready.phase ≠ .safe ∧ ready.takesWrite R.DBG_CTRL = true ∧ ready.freezable = true ∧ ready.on F.DBG_CTRL_PREBYPASS = false
    ∧ (ready.put F.DBG_CTRL_PREBYPASS 1).on F.DBG_CTRL_PREBYPASS = true ∧ ready.phase = .ready ∧ frozen.freezable = false
    ∧ { ready with phase := .safe }.phase = .safe ∧ { ready with phase := .safe }.freezable = true
    ∧ (ready.put F.DBG_CTRL_PIN_EN 1).on F.DBG_CTRL_PIN_EN = true ∧ (ready.put F.DBG_CTRL_PIN_EN 0).on F.DBG_CTRL_PIN_EN = false
    ∧ { ready with trigger := true }.trigger = true ∧ ready.trigger = false
    ∧ (let s := { ready with dbg := { ready.dbg with preFrom := some (9 * 10 ^ 12 - 250000) } }
       s.dbg.preFrom = some (9 * 10 ^ 12 - 250000) ∧ s.frozen = false ∧ (s.reach (9 * 10 ^ 12 - 250000 + 250000)).isSome = true) := by decide +kernel

theorem test_witness_ReadoutAndDebugPort :
    let s := set_ frozen [(F.DBG_CAP_LEN, 16)]
    let closed := set_ s [(F.GLB_STATUS_LIFECYCLE, 2), (F.DBG_CTRL_CAPTURE_EN, 0)]
    ready.takesWrite R.DBG_CAP_GO = true ∧ ready.pcieUp = true ∧ ready.dbgClock = true ∧ ready.frozen = false
    ∧ (s.frozen = true ∧ s.takesWrite R.DBG_CAP_GO = true ∧ s.spaceAllowed 0 = true
      ∧ capRangeOk (s.get F.DBG_CAP_SPACE_SPACE) (s.get F.DBG_CAP_SPACE_INSTANCE) (s.get64 R.DBG_CAP_ADDR_LO) (s.get F.DBG_CAP_LEN) = true
      ∧ s.on F.DBG_CAP_STATUS_BUSY = false)
    ∧ closed.spaceAllowed 0 = false ∧ capRangeOk 0 0 0 0 = false ∧ (s.put F.DBG_CAP_STATUS_BUSY 1).on F.DBG_CAP_STATUS_BUSY = true
    ∧ { s with dbg := { s.dbg with readout := some (0, 0, 0, 16) } }.dbg.readout = some (0, 0, 0, 16)
    ∧ s.get F.GLB_STATUS_LIFECYCLE ≠ 2
    ∧ (ready.put F.DBG_CTRL_CAPTURE_EN 1).on F.DBG_CTRL_CAPTURE_EN = true ∧ ready.retiredHold = false
    ∧ (ready.put F.DBG_CTRL_CAPTURE_EN 0).on F.DBG_CTRL_CAPTURE_EN = false ∧ { ready with dbgClock := false }.dbgClock = false := by decide +kernel

theorem test_witness_TheEndpointAnswers :
    ready.dbgClock = true ∧ { ready with dbgClock := false }.dbgClock = false ∧ eidAccepted 1 0xFE = true ∧ eidAccepted 1 0xFF = false
    ∧ eidAccepted 2 8 = false ∧ (1#8).toNat ≤ 1 ∧ 1 < (2#8).toNat ∧ (38#32).toNat ≤ 38 ∧ 38 < (39#32).toNat
    ∧ ready.get F.GLB_STATUS_STAGE ≠ 0 ∧ 22 < (23#16).toNat ∧ (99#16).toNat < 100 ∧ 115 < (116#16).toNat := by decide +kernel

theorem test_witness_CommandsActInService :
    lit.live = true ∧ lit.lit 6 = true ∧ (ready.hostStores [(4096, [1])]).live = true ∧ ready.clocked = true ∧ ready.frozen = false
    ∧ ready.barsOpen = true ∧ ready.pcieUp = true
    ∧ ([R.WH_STP_CTRL 23, R.WH_LINK_CTRL 23, R.EG_GCL_CTRL 23, R.WH_FE_CTRL, R.STK_PERIOD, R.STK_CTRL, R.HIF_QCTRL 79, R.HIF_EVT_CTRL,
        R.MSIX_CTRL 255, R.HIF_DMAW_0 255].all fun off => ready.takesWrite off) = true := by decide +kernel

/-! ## Ill-formed commands are refused -/

/-- One ill-formed term for each check of an operand's size, range or shape, next to a well-formed one at the boundary. -/
theorem test_wf_ranges :
    ([.ptpMeasurement (2 ^ 64) 0, .ptpMeasurement 0 (-129), .ptpMeasurement 0 128, .powerMeasurement (2 ^ 16) found.rails,
      .powerMeasurement 0 [1], .powerMeasurement 0 (List.replicate 9 65536), .registerWrite true 0x4000000 15 0, .stagingBankWrite 0x4000000 0,
      .stagingBankWrite 0x104002 0, .ruleWordRefetch ⟨0, 0, false⟩ .rule (2 ^ 23), .railWarnCross 0 65536, .railAboveWarning 0 65536,
      .railResetLevel 0 65536, .vddcSetMove 599, .vddcSetMove 801, .fullBistRequest 0 65536, .fullBistEnd [] 65536, .fullBistEnd [(0, 0)] 720,
      .fullBistEnd [(10, 0)] 720, .fullBistEnd [(1, 65536)] 720, .istStep (.slice 0) true 65536, .resetN 0, .configSpaceWrite .maxPayload (2 ^ 32),
      .jtagBypass 1 [], .jtagBypass 0x21 [], .unsupportedPldmCmd 0 2 0x51, .unsupportedPldmCmd 0 0 2] : List Instr).all (fun c => !c.wf) = true
    ∧ ([.ptpMeasurement (2 ^ 64 - 1) 127, .powerMeasurement 65535 found.rails, .registerWrite true 0x3FFFFFF 15 0, .stagingBankWrite 0x104000 0,
      .ruleWordRefetch ⟨0, 0, false⟩ .rule (2 ^ 23 - 1), .vddcSetMove 600, .vddcSetMove 800, .fullBistEnd [(9, 65535)] 720, .resetN 1,
      .jtagBypass 3 [], .unsupportedPldmCmd 0 2 0x20] : List Instr).all Instr.wf = true := by decide +kernel

/-- The same for accesses, byte runs and frames. -/
theorem test_wf_accesses :
    ([.registerRead .bar0 true 2 4, .registerRead .bar0 true 0x4000000 4, .registerRead .bar0 true 0 16, .registerRead .bar2 true 0x400000 4,
      .sqTailWrite 0 0x1000 4 0 [], .sqTailWrite 0 0 4 (2 ^ 32) [], .sqTailWrite 0 0 4 0 [(2 ^ 64 - 1, [0, 0])], .sqTailWrite 0 0 0 0 [],
      .cqHeadWrite 0 0xFFE 4 0, .cqHeadWrite 0 4 1 256, .descriptorFetch 0 [(2 ^ 64, [0])], .floatSetWrite 0 8 8 0, .floatAddWrite 0 0 0 0,
      .copy 48 [(2 ^ 64, [0])], .ruleLoad 0 [(2 ^ 64, [0])], .ensLoad 0 [(2 ^ 64, [0])], .policerWrite 0 [(2 ^ 64, [0])],
      .capMapLoad 0 [(2 ^ 64, [0])], .prime 0 [(2 ^ 64, [0])], .routeWrite 0 [(2 ^ 64, [0])], .bar4Read (2 ^ 30) 4, .bar4Read 0 0,
      .bar4Write (2 ^ 30 - 1) [0, 0], .bar4Write 0 [], .originatedFrameSend 0 (zeros 59)] : List Instr).all (fun c => !c.wf) = true
    ∧ ([.registerRead .bar0 true 0x3FFFFFC 4, .registerRead .bar2 true 0x3FFFFF 1, .sqTailWrite 0 0xFFC 4 (2 ^ 32 - 1) [(2 ^ 64 - 1, [0])], .floatSetWrite 0 7 16 0,
      .bar4Read (2 ^ 30 - 4) 4, .bar4Write (2 ^ 30 - 1) [0], .originatedFrameSend 0 (zeros 60)] : List Instr).all Instr.wf = true := by
  decide +kernel

theorem test_wf_chunk : (Instr.frameReceive 0 true ⟨zeros 16385, []⟩ none).wf = false ∧ (Instr.originatedFrameSend 0 (zeros 16381)).wf = false := by
  decide +kernel

/-- The same for flits, upsets, faults, pins and what start-up meets. -/
theorem test_wf_shapes :
    ([.strokeMarkerReceive 0 [], .flitReceive 0 (.flit (zeros 255)), .flitReceive 0 (.words [2 ^ 10880]), .flitReceive 0 (.words (List.replicate 9 0)),
      .laneLock 24 0 (2 ^ 16320), .pageCorrection 2 0 [(200704, 0, false)], .pageCorrection 2 2 [], .lossOfLight 0 (-1600), .losClear 0 (-1400), .inletLow 0 1900, .inletPowerRestored 0 1899,
      .opticalClampTrip 0 899, .startup { found with pcie := ⟨7, 16, true⟩ }, .nak 0 (zeros 257), .init 0 [], .delayResp 0 [], .matmul 0 [(0, [2 ^ 21])],
      .conv 0 [(3, [2 ^ 21])], .pageCorrection 0 (2 ^ 20) [], .pageCorrection 1 (384 * 2 ^ 19) [], .pageCorrection 0 0 [(260, 0, false)],
      .pageCorrection 0 0 [(0, 2 ^ 137, false)], .scrubRead 1 [(65, 0, false)] 0, .scrubRead 0 [] 256, .scrubRead 1 [] 65536,
      .scrubRead 1 [(0, 2 ^ 266, true)] 0, .extest (List.replicate 30 true) [], .samplePreload [] [], .recalDone 0 [] [],
      .recalDone 0 (List.replicate 16 4096) [], .startup { found with rails := [] }, .startup { found with rails := List.replicate 9 65536 },
      .startup { found with failed := [(0, 0)] }, .startup { found with inlets := [] }, .startup { found with inlets := List.replicate 10 65536 },
      .startup { found with codes := [] }, .startup { found with codes := List.replicate 40 [] }] : List Instr).all (fun c => !c.wf) = true
    ∧ ([.flitReceive 0 (.flit (zeros 256)), .flitReceive 0 (.words (List.replicate 8 (2 ^ 10880 - 1))), .laneLock 24 0 (2 ^ 16320 - 1),
      .pageCorrection 2 1 [(200703, 0, false)], .lossOfLight 0 (-1601), .losClear 0 (-1399), .inletLow 0 1899, .inletPowerRestored 0 1900, .opticalClampTrip 0 900, .pageCorrection 0 (2 ^ 20 - 1) [(255, 2 ^ 137 - 1, false)], .scrubRead 0 [] 255, .scrubRead 1 [] 65535,
      .extest (List.replicate 31 true) [], .recalDone 0 (List.replicate 16 4095) [], .startup found] : List Instr).all Instr.wf = true := by
  decide +kernel

/-! ## The queue of commands -/

/-- No row of the table gives its command bits. -/
theorem test_no_words : decodeTableWord 32 0x12345678 = none ∧ ready.withFetchWord 32 0 = ready := ⟨rfl, rfl⟩

/-- Commands run first in, first out. -/
theorem test_front_runs_first :
    step { ready with pending := [.floatSetWrite 3 0 8 7, .floatAddWrite 3 0 8 1] }
      = exec (.floatSetWrite 3 0 8 7) { ready with pending := [.floatAddWrite 3 0 8 1] } := rfl

/-! ## Small steps, after the rules named -/

/-- The state that a command leads to; the state itself where it stops. -/
def after (c : Instr) (s : State) : State := match exec c s with
  | .next t => t
  | _ => s

/-- R60: the add alias adds modulo 2^64. -/
theorem test_float_wraps : (after (.floatAddWrite 131071 0 8 (BitVec.allOnes 64)) (ready.setFloat 131071 1)).float 131071 = 0 := by decide +kernel

/-- R10: a read of STK_NOW's low half latches its high half; no stroke runs: all ones (R26). -/
theorem test_stk_now_reads_all_ones :
    (after (.registerRead .bar0 true R.STK_NOW_LO 4) ready).out = [.data 0xFFFFFFFF] := by decide +kernel

/-- R24: 4,999 is no period, 5,000 is one. -/
theorem test_period_bounds :
    (after (.stkPeriodWrite 4999) ready).on F.STK_STATUS_PERIOD_REJECT = true ∧ (after (.stkPeriodWrite 5000) ready).get F.STK_PERIOD_PERIOD = 5000 := by
  decide +kernel

/-- R23, R28: a boundary opens the next stroke at its count. -/
theorem test_boundary_opens_stroke :
    let t := (stroking.elapseTo (stroking.count 6)).openStroke 6
    t.clk.time = 6 * 250000 ∧ t.nowReg = 6 := by decide +kernel

/-- R466: MCTP Get Message Type Support answers PLDM alone. -/
theorem test_message_types : (after (.getMessageTypeSupport 3) ready).out = [.mgmt (mctpReply 3 5 0 [1, 1])] := by decide +kernel

/-- R448: the 32 bits of IDCODE begin with a 1, its part number is 0x0880. -/
theorem test_idcode : bitsOf 32 (1 + 2 * 0x2AA + 0x0880 * 2 ^ 12) = (bitsOf 12 (1 + 2 * 0x2AA)) ++ bitsOf 16 0x0880 ++ bitsOf 4 0 := by decide +kernel

/-- R291, R382: SHAKE256 of the empty string begins 46 B9 DD 2B (FIPS 202). -/
theorem test_shake256 : shake256 4 [] = [0x46, 0xB9, 0xDD, 0x2B] := by decide +kernel

/-! ## Worked examples of the spec -/

/-- 05, "A tie vote and a missing feature": the path of tree (0, 8) ends in leaf 128. -/
theorem test_tree_path :
    leafFrom (fun i => [0x83000064, 0, 0xC1000003].getD i 0) (fun i => if i = 2 then 3 else 0x8000) 8 0 0 = 128 := by decide +kernel

/-- 05, the same example: the vote of the four leaves is class 1, margin 0, score 65. -/
theorem test_tie_vote :
    let l := fun cls w score => score * 256 + w * 16 + cls
    vote [l 1 3 40, l 2 3 90, l 1 2 60, l 2 2 70] = (5, 1, 0, 260) := by decide +kernel

/-- 05, the same example: class-action entry 0x0120_0727. -/
theorem test_class_action :
    let v := voteVerdict (2 * 2 ^ 28) 0x01200727 1 0 65
    v.action = 3 ∧ v.tc = 1 ∧ v.police = true ∧ v.mark = 7 ∧ v.policer = 0x120 := by decide +kernel

/-- 05, the same example: mark entry 7 rewrites DSCP and the checksum becomes 0xB1BE. -/
theorem test_mark_rewrite :
    let head : List Byte := (zeros 14 ++ [0x45, 0x00] ++ zeros 8 ++ [0xB1, 0xE6] ++ zeros 34)
    (rewriteHead head 0x000A940F 0x31).map (fun h => (byteAt h 15, be16 h 24)) = some (0x28, 0xB1BE) := by decide +kernel

/-- 05, the same example: the verdict record's 16 bytes. -/
theorem test_verdict_record :
    let e : RoEntry := { seq := 0, frame := 0, dealt := 0, time := 0, stroke := 0, rEpoch := 0, eEpoch := 0, fEpoch := 0, rBank := 0,
                         eBank := 0, head := [], port := 0x13, lseq := 0x4A21 }
    let v : Verdict := { action := 3, tc := 1, police := true, policer := 0x120, mark := 7, inspected := true, twoPass := true, cls := 1,
                         margin := 0, score := 65, ruleId := 0x200A }
    natBytes 16 (verdictRecord e v)
      = [0x21, 0x4A, 0, 0, 0x13, 0, 0x27, 0x16, 0x20, 1, 7, 0, 0x10, 0xA4, 0, 2] := by decide +kernel

/-- 04, "A program for the synchrophasor profile": the features of frame A. -/
theorem test_synchrophasor_program :
    let ctx := putField (putField (putField (putField (zeros 128) 92 4 50015625) 100 4 0xBF400000) 108 4 80999) 80 4 2
    let snd := putField (zeros 32) 17 1 6
    let p : Pass := { link := 6, seq := 0, second := false, lane := 0, frame := 0, dealt := 0, time := 10 ^ 9 + 50250000, stroke := 81000,
                      len := some 76, epoch := 0, profile := 12, frag := false, ctxSnap := some ctx, sndSnap := some snd,
                      prevTime := 10 ^ 9,
                      fields := [(0, false), (0, false), (0, false), (7, false), (2, false), (0, false), (0, false), (500, false)] }
    let bins := fun r => if r = R.WH_BIN_0 5 then 6 else if r = R.WH_BIN_100 5 0 then 0xFF38FC18 else if r = R.WH_BIN_100 5 1 then 0x0032FFCE
      else if r = R.WH_BIN_100 5 2 then 0x03E800C8 else 0
    (runProgram p bins [(0x6001, 0), (0xE051, 0), (0x2085, 5), (0x800040C2, 0), (0x80002104, 0), (0x50308148, 0),
        (0x4000018A, 0x20000), (0x21C3, 0)]).take 9
      = [7, 500, 5, 763, 766, 1028, 65536 - 192, 1, 0x8000] := by decide +kernel

/-- 03, "A synchrophasor profile": field 7's descriptor ends at byte 67 and reads FREQ. -/
theorem test_field_descriptor :
    descEnd 0x1BC42 = 67 ∧ descEnd 0x1843C = 60 ∧ extract (zeros 66 ++ [0x01, 0xF4]) 0x1BC42 0xFFFF = 500
      ∧ extract (zeros 60 ++ [0x80]) 0x1843C 3 = 2 := by decide +kernel

/-- 06, "An RFC 2697 policer": colours and buckets at each time (a ns is 2.5 core cycles). -/
theorem test_rfc2697_policer :
    let e := putField (putField (putField (putField (zeros 32) 0 4 8000000) 8 3 3000) 11 1 9) 12 3 3000
    let go := fun (b : Bucket) ns => (b.refresh e (ns * 5 / 2)).meter e 1500
    let seen := fun (r : Bucket × Colour) => (r.2, r.1.tc / 65536, r.1.te / 65536)
    let r0 := go { tc := 3000 * 65536, te := 3000 * 65536 } 0
    let r1 := go r0.1 100
    let r2 := go r1.1 200
    let r3 := go r2.1 300
    let r4 := go r3.1 400
    let r5 := go r4.1 2000
    [seen r0, seen r1, seen r2, seen r3, seen r4, seen r5]
      = [(.green, 1500, 3000), (.green, 100, 3000), (.yellow, 200, 1500), (.yellow, 300, 0), (.red, 400, 0), (.green, 500, 0)] := by
  decide +kernel

/-- 06, "A base time in the past": the takeover, and its tick. -/
theorem test_base_time_in_the_past :
    let t := takeoverNs ⟨[(0x80, 20000), (0x7F, 220000)], 3999999000000, 250000⟩ (nsTick 4000000100000)
    t = 4000000250000 ∧ nsTick t = 10000000625000 := by decide +kernel

/-- 06, "Shares over open time": the increments of two WFQ classes. -/
theorem test_wfq_increment : 65536 * (1500 + 20) / 1 = 99614720 ∧ 65536 * (1500 + 20) / 3 = 33204906 := by decide

/-- 11, "A context word written, then repaired": where context 1,000,000 lies. -/
theorem test_context_placement :
    tableAddr (ctxOff 1000000) = 0xC1458000 ∧ bayOf (tableAddr (ctxOff 1000000) / 16) = 12
      ∧ globalBank (tableAddr (ctxOff 1000000) / 16) = 1624 ∧ bankWord (tableAddr (ctxOff 1000000) / 16) = 256 * 40 := by decide +kernel

/-- 11, the same example: d0 and d9 wrong is an error that is not corrected; d0 and d1 lie at positions 3 and 5. -/
theorem test_double_error : syndrome .cis (1 + 2 ^ 9) = (13, 0) ∧ wordOut .cis (1 + 2 ^ 9) = .bad ∧ dataPos 0 = 3 ∧ dataPos 1 = 5
    ∧ wordCheck .cis 3 = 6 := by decide +kernel

/-- 11, R319: the poison pattern is recognised. -/
theorem test_poison_pattern : wordOut .cis (2 ^ 128 * 0xFF) = .poison := by decide +kernel

/-- 11, the same example: the page code's delta for word 0. -/
theorem test_page_code_delta : rsDelta [0, 0, 0, 0] 0 3 = [0xC0, 0x88, 0x5A, 0x11] := by decide +kernel

/-- 07, the run after R226: a tile at the start of cycle 339, its marker having passed band 13, and row 237 written. The load of the next
block freezes it in cycles 339 and 341 to 355, and every band has switched by cycle 357. -/
theorem test_wave_freezes :
    let w : Wave := { wait := 0, loads := 0, rows := some 238, shadows := List.replicate 14 .empty ++ [.loading, .loading]
                      on := List.replicate 14 2 ++ [1, 1]
                      slices := List.replicate 13 (some (2, false)) ++ [some (1, true), some (1, false), some (1, false)]
                      started := true, block := 2, left := 227, blocks := 3, width := 240 }
    ((List.range 18).filter fun k => (Wave.steps k w).load.frozen).map (· + 339) = 339 :: (List.range 15).map (· + 341)
      ∧ (Wave.steps 18 w).on = List.replicate 16 2 ∧ (Wave.steps 18 w).shadows = List.replicate 16 .empty := by decide +kernel

/-- 14, "A VDD_CORE dip across a boundary": depth and stretch. -/
theorem test_brownout_depth : depthOf 7200 6552 = 18 ∧ 2500 * (stretchOf 7200 6552).1 * 10 = 19375 * (stretchOf 7200 6552).2 := by decide +kernel

/-- 08, "Requantising a scan layer": multipliers, shifts and codes of the three columns. -/
theorem test_requant_columns :
    let r := fun (m : Nat) (e : Int) => mulShift (.fin false m e)
    r 1 (-9) = (1073741824, 39, false) ∧ r 3 (-10) = (1610612736, 39, false)
      ∧ requantInt (-1280) 1073741824 39 0 = -2 ∧ requantInt 3584 1073741824 39 0 = 7 ∧ requantInt 1300 1610612736 39 0 = 4 := by
  decide +kernel

/-- 08, the same example: row scale 0.0625 of a row whose greatest value is 0.4375, in i4; an all-zero row is ZERO. -/
theorem test_row_scale :
    binary32.round (dynScale 3 false [.fin false 7 (-4), .fin true 5 (-5)]).scale = 0x3D800000
      ∧ (dynScale 3 false [Flt.ofInt 0, Flt.ofInt 0]).flags = 1 := by decide +kernel

/-- 98, "VDDC_SET moves a step": the VID codes of 720 mV and 735 mV. -/
theorem test_vid_code : vidCode 720 = 24 ∧ vidCode 735 = 27 := by decide

/-- CRC-32C of "123456789" under the seed 0xFFFF_FFFF is 0xE306_9283; CRC-32 (the FCS) is 0xCBF4_3926. -/
theorem test_crcs :
    let bs : List Byte := [0x31, 0x32, 0x33, 0x34, 0x35, 0x36, 0x37, 0x38, 0x39]
    crc32c 0xFFFFFFFF bs = 0xE3069283 ∧ crcOf 0xEDB88320 0xFFFFFFFF bs = 0xCBF43926 ∧ crc64 bs = 0x995DC9BBDF1939FA := by decide +kernel

end Sys2Proof.Tests
end

section
/-! Register map, register file and float ticks: what `findRow` answers, that every register write keeps the register file's form,
and what step 5 of the boundary does to the floats (R9, R28, R63, R82). -/

namespace Sys2Proof.Machine

/-! ## The register map (R9, R63) -/

/-- What `findRow` answers is a row of the map whose indices the offset names. -/
theorem findRow_eq_some {rows : List RegRow} {off : Nat} {row : RegRow} {ix : List Nat}
    (h : findRow rows off = some (row, ix)) :
    row ∈ rows ∧ row.base ≤ off ∧ splitIndex row.dims (off - row.base) = some ix := by
  induction rows with
  | nil => simp [findRow] at h
  | cons r rs ih =>
    have later (h : findRow rs off = some (row, ix)) :
        row ∈ r :: rs ∧ row.base ≤ off ∧ splitIndex row.dims (off - row.base) = some ix := by
      obtain ⟨hmem, hbase, hix⟩ := ih h
      exact ⟨List.mem_cons_of_mem _ hmem, hbase, hix⟩
    unfold findRow at h
    split at h
    · exact later h
    · rename_i hbase
      split at h
      · rename_i jx hjx
        obtain ⟨rfl, rfl⟩ : r = row ∧ jx = ix := by simpa using h
        exact ⟨List.mem_cons_self, Nat.le_of_not_lt hbase, hjx⟩
      · exact later h

/-- A row whose registers all lie outside `[lo, hi)`: from `hi` on, or ended by `lo`. -/
def RegRow.outside (r : RegRow) (lo hi : Nat) : Bool :=
  hi ≤ r.base || match r.dims with
    | [] => r.base < lo
    | (c, st) :: _ => 0 < st && r.base + c * st ≤ lo

/-- No index of a row outside a range names an offset in it. -/
theorem splitIndex_of_outside {r : RegRow} {lo hi off : Nat} (h : r.outside lo hi = true) (hbase : r.base ≤ off) (hlo : lo ≤ off)
    (hhi : off < hi) : splitIndex r.dims (off - r.base) = none := by
  obtain ⟨base, dims, half, fields⟩ := r
  dsimp only at hbase ⊢
  simp only [RegRow.outside, Bool.or_eq_true, decide_eq_true_eq] at h
  have hd := h.resolve_left (by omega)
  cases dims with
  | nil =>
    have hlt : base < lo := by simpa using hd
    have hne : off - base ≠ 0 := by omega
    simp [splitIndex, hne]
  | cons d ds =>
    obtain ⟨c, st⟩ := d
    obtain ⟨hst, hend⟩ : 0 < st ∧ base + c * st ≤ lo := by simpa using hd
    have hge : ¬(off - base) / st < c := by
      rw [Nat.div_lt_iff_lt_mul hst]; omega
    simp [splitIndex, hge]

/-- Fields whose reset value is 0 make a reset word of 0. -/
theorem resetOf_eq_zero (i : Nat) {fs : List FieldRow} (h : ∀ f ∈ fs, f.rst = .val 0) : resetOf i fs = 0 := by
  induction fs with
  | nil => rfl
  | cons f fs ih =>
    obtain ⟨hf, hfs⟩ := List.forall_mem_cons.1 h
    simp [resetOf, resetField, hf, ih hfs]

/-- Of the map's rows, FLT_TICKn alone lies in the float tick block, and its fields reset to 0 (R82). -/
theorem regRows_tickBlock : ∀ r ∈ regRows, r.outside 0x40000 0x80000 = false → ∀ f ∈ r.fields, f.rst = .val 0 := by
  decide +kernel

/-- The tick increments reset to 0. -/
theorem resetWord_tickBlock {off : Nat} (hlo : 0x40000 ≤ off) (hhi : off < 0x80000) : resetWord off = 0 := by
  unfold resetWord
  split
  · rename_i row ix hrow
    obtain ⟨hmem, hbase, hix⟩ := findRow_eq_some hrow
    have hin : row.outside 0x40000 0x80000 = false := by
      refine Bool.eq_false_iff.2 fun hout => ?_
      rw [splitIndex_of_outside hout hbase hlo hhi] at hix
      exact absurd hix (Option.some_ne_none ix).symm
    rw [resetOf_eq_zero _ (regRows_tickBlock row hmem hin)]
    rfl
  · rfl

/-! ## The register file's form (R9) -/

theorem mem_sset {α : Type} [DecidableEq α] {d : α} {m : SMap α} {k : Nat} {v : α} {e : Nat × α} (h : e ∈ sset d m k v) :
    e = (k, v) ∨ e ∈ m := by
  unfold sset at h
  split at h
  · exact .inr (List.mem_filter.1 h).1
  · exact mem_sput h

theorem sset_pairwise {α : Type} [DecidableEq α] (d : α) {m : SMap α} (k : Nat) (v : α) (h : (m.map (·.1)).Pairwise (· < ·)) :
    ((sset d m k v).map (·.1)).Pairwise (· < ·) := by
  unfold sset
  split
  · exact h.sublist ((List.filter_sublist (l := m)).map _)
  · exact sput_pairwise k v h

/-- A table reads its default where no entry is listed. -/
theorem sget_of_unlisted {α : Type} (d : α) {m : SMap α} {k : Nat} (h : ∀ e ∈ m, e.1 ≠ k) : sget d m k = d := by
  induction m with
  | nil => rfl
  | cons e m ih =>
    obtain ⟨hne, hrest⟩ := List.forall_mem_cons.1 h
    obtain ⟨j, v⟩ := e
    simp only [sget, if_neg hne, ih hrest]

theorem regFileWf_reset : State.reset.RegFileWf := ⟨List.Pairwise.nil, fun _ h => absurd h List.not_mem_nil⟩

theorem setWord_regFileWf {s : State} (h : s.RegFileWf) {off : Nat} (v : Word) (hoff : off % 4 = 0) :
    (s.setWord off v).RegFileWf := by
  obtain ⟨hrise, halign⟩ := h
  refine ⟨sset_pairwise _ off v hrise, fun e he => ?_⟩
  rcases mem_sset he with rfl | hold
  · exact hoff
  · exact halign e hold

theorem put_regFileWf {s : State} (h : s.RegFileWf) {f : Fld} (v : Nat) (hf : f.reg % 4 = 0) : (s.put f v).RegFileWf :=
  setWord_regFileWf h _ hf

theorem put64_regFileWf {s : State} (h : s.RegFileWf) {lo : Nat} (v : Nat) (hlo : lo % 4 = 0) : (s.put64 lo v).RegFileWf :=
  setWord_regFileWf (setWord_regFileWf h _ hlo) _ (by omega)

/-! ## Step 5 of the boundary (R28, R82, R83) -/

theorem addFloat_float (s : State) (n v m : Nat) :
    (s.addFloat n v).float m = s.float m + if m = n then BitVec.ofNat 64 v else 0#64 := by
  by_cases h : m = n
  · subst h
    rw [if_pos rfl]
    exact State.setFloat_float_same s m _
  · rw [if_neg h, BitVec.add_zero]
    exact State.setFloat_float_other s _ h

/-- What one listed register adds to the floats at the boundary: FLT_TICKn its two increments, any other nothing. -/
def tickStep (t : State) (e : Nat × Word) : State :=
  if 0x40000 ≤ e.1 && e.1 < 0x80000 then
    let n := (e.1 - 0x40000) / 4
    (t.addFloat (2 * n) (e.2.toNat % 65536)).addFloat (2 * n + 1) (e.2.toNat / 65536)
  else t

theorem tickFloats_eq_foldl (s : State) : s.tickFloats = s.regs.foldl tickStep s := rfl

/-- The increment that a word of FLT_TICKn holds for float `f`. -/
def tickIn (f : Nat) (w : Word) : BitVec 64 := BitVec.ofNat 64 (bits w.toNat (tickFld f).lo (tickFld f).w)

@[simp] theorem tickIn_zero (f : Nat) : tickIn f 0 = 0#64 := by simp [tickIn, bits]

theorem tickFld_reg (f : Nat) : (tickFld f).reg = 0x40000 + 4 * (f / 2) := by
  unfold tickFld; split <;> rfl

theorem tickIn_even {f : Nat} (h : f % 2 = 0) (w : Word) : tickIn f w = BitVec.ofNat 64 (w.toNat % 65536) := by
  simp [tickIn, tickFld, h, bits]

theorem tickIn_odd {f : Nat} (h : f % 2 = 1) (w : Word) : tickIn f w = BitVec.ofNat 64 (w.toNat / 65536) := by
  have hw := w.isLt
  have hmod : w.toNat / 65536 % 65536 = w.toNat / 65536 := Nat.mod_eq_of_lt (by omega)
  simp [tickIn, tickFld, h, bits, hmod]

/-- One listed register adds to float `f` the increment it holds for it, if it is `f`'s register. -/
theorem tickStep_float (t : State) {e : Nat × Word} (he : e.1 % 4 = 0) {f : Nat} (hf : f < 131072) :
    (tickStep t e).float f = t.float f + if e.1 = (tickFld f).reg then tickIn f e.2 else 0#64 := by
  obtain ⟨off, w⟩ := e
  dsimp only at he ⊢
  rw [tickFld_reg]
  by_cases hin : 0x40000 ≤ off ∧ off < 0x80000
  · obtain ⟨n, rfl⟩ : ∃ n, off = 0x40000 + 4 * n := ⟨(off - 0x40000) / 4, by omega⟩
    have hn : (0x40000 + 4 * n - 0x40000) / 4 = n := by omega
    have hstep : tickStep t (0x40000 + 4 * n, w)
        = (t.addFloat (2 * n) (w.toNat % 65536)).addFloat (2 * n + 1) (w.toNat / 65536) := by
      simp only [tickStep, hn]
      exact if_pos (by simpa using hin)
    rw [hstep, addFloat_float, addFloat_float]
    by_cases hmine : n = f / 2
    · subst hmine
      rw [if_pos rfl]
      rcases Nat.mod_two_eq_zero_or_one f with hpar | hpar
      · rw [if_pos (by omega), if_neg (by omega), BitVec.add_zero, tickIn_even hpar]
      · rw [if_neg (by omega), if_pos (by omega), BitVec.add_zero, tickIn_odd hpar]
    · rw [if_neg (by omega), if_neg (by omega), if_neg (by omega), BitVec.add_zero]
  · have hstep : tickStep t (off, w) = t := if_neg (by simpa using hin)
    rw [hstep, if_neg (by omega), BitVec.add_zero]

/-- The boundary adds to float `f` the increment that its register's entry holds, once. -/
theorem foldl_tickStep_float {l : SMap Word} (hrise : (l.map (·.1)).Pairwise (· < ·)) (halign : ∀ e ∈ l, e.1 % 4 = 0) (t : State)
    {f : Nat} (hf : f < 131072) : (l.foldl tickStep t).float f = t.float f + tickIn f (sget 0 l (tickFld f).reg) := by
  induction l generalizing t with
  | nil => simp only [List.foldl_nil, sget, tickIn_zero, BitVec.add_zero]
  | cons e l ih =>
    obtain ⟨hlt, hrise⟩ := List.pairwise_cons.1 hrise
    obtain ⟨he, halign⟩ := List.forall_mem_cons.1 halign
    rw [List.foldl_cons, ih hrise halign, tickStep_float t he hf]
    by_cases hreg : e.1 = (tickFld f).reg
    · have hlater : sget 0 l (tickFld f).reg = 0 := by
        refine sget_of_unlisted 0 fun d hd => ?_
        have hgt : e.1 < d.1 := hlt d.1 (List.mem_map_of_mem hd)
        omega
      simp only [sget, hreg, if_true, hlater, tickIn_zero, BitVec.add_zero]
    · simp only [sget, if_neg hreg, BitVec.add_zero]

/-- The float's increment as its field reads, of the entry that the register file lists. -/
theorem ofNat_get_tickFld (s : State) {f : Nat} (hf : f < 131072) :
    BitVec.ofNat 64 (s.get (tickFld f)) = tickIn f (sget 0 s.regs (tickFld f).reg) := by
  have hreset : resetWord (tickFld f).reg = 0 := by
    rw [tickFld_reg]; exact resetWord_tickBlock (by omega) (by omega)
  simp only [State.get, State.word, hreset, tickIn]

theorem tickFloats_float {s : State} (h : s.RegFileWf) {f : Nat} (hf : f < 131072) :
    s.tickFloats.float f = s.float f + BitVec.ofNat 64 (s.get (tickFld f)) := by
  obtain ⟨hrise, halign⟩ := h
  rw [tickFloats_eq_foldl, foldl_tickStep_float hrise halign s hf, ofNat_get_tickFld s hf]

/-- `s` with the floats of `t`, and with what goes with them: the WAITs that saw them and this cycle's updates. -/
def State.withFloatsOf (s t : State) : State :=
  { s with host := { s.host with floats := t.host.floats, queues := t.host.queues, floatNow := t.host.floatNow } }

/-- Additions to floats change the floats and what goes with them alone. -/
theorem addFloat_eq_withFloatsOf (s : State) (n v : Nat) : s.addFloat n v = s.withFloatsOf (s.addFloat n v) := rfl

theorem withFloatsOf_trans {s t u : State} (hst : t = s.withFloatsOf t) (htu : u = t.withFloatsOf u) : u = s.withFloatsOf u :=
  calc u = t.withFloatsOf u := htu
    _ = (s.withFloatsOf t).withFloatsOf u := congrArg (fun x => State.withFloatsOf x u) hst
    _ = s.withFloatsOf u := rfl

theorem tickStep_eq_withFloatsOf (t : State) (e : Nat × Word) : tickStep t e = t.withFloatsOf (tickStep t e) := by
  unfold tickStep
  split
  · exact withFloatsOf_trans (addFloat_eq_withFloatsOf t _ _) (addFloat_eq_withFloatsOf _ _ _)
  · rfl

theorem foldl_tickStep_eq_withFloatsOf (l : SMap Word) (t : State) :
    l.foldl tickStep t = t.withFloatsOf (l.foldl tickStep t) := by
  induction l generalizing t with
  | nil => rfl
  | cons e l ih => exact withFloatsOf_trans (tickStep_eq_withFloatsOf t e) (ih (tickStep t e))

/-- Settles O9: a register write is a `setWord` of an aligned offset, and the boundary's fold over a rising register file meets each
float's register once. -/
theorem registerFileAndFloatsTick : Obligations.RegisterFileAndFloatsTick := by
  unfold Obligations.RegisterFileAndFloatsTick
  refine ⟨⟨regFileWf_reset, fun s h => ⟨fun off v => setWord_regFileWf h v, fun f v => put_regFileWf h v,
    fun lo v => put64_regFileWf h v⟩⟩, fun s f hf h => ⟨tickFloats_float h hf, ?_⟩⟩
  exact foldl_tickStep_eq_withFloatsOf s.regs s

end Sys2Proof.Machine
end

section
/-! The host's accesses to BAR0, BAR2 and BAR4: how a read is answered, what a write reaches, and what reset leaves (R9-R14, R58-R62). -/

namespace Sys2Proof.Machine

theorem exec_registerRead (bar : Bar) (host : Bool) (off size : Nat) (s : State) :
    exec (.registerRead bar host off size) s = .next (s.registerRead bar host off size) := rfl

theorem exec_registerWrite (host : Bool) (off : Nat) (enables : BitVec 4) (v : Word) (s : State) :
    exec (.registerWrite host off enables v) s
      = .next (if (if host then s.pcieUp else s.live) then s.writeReg host off enables.toNat v.toNat else s) := rfl

theorem exec_bar4Read (offset size : Nat) (s : State) : exec (.bar4Read offset size) s = .next (s.doBar4Read offset size) := rfl

theorem exec_bar4Write (offset : Nat) (data : List Byte) (s : State) :
    exec (.bar4Write offset data) s = .next (if s.barsOpen && s.bar4Open && bar4Shape offset data.length
      then s.wrRange .cis (s.bar4Addr offset) data else s) := rfl

/-- BAR2 and BAR4 are open in service and at start-up, over a link that is up (R58, R61). -/
theorem barsOpen_iff {s : State} :
    s.barsOpen = true ↔ (s.phase = .ready ∨ s.phase = .startup) ∧ s.frozen = false ∧ s.pcieUp = true := by
  simp [State.barsOpen, and_assoc]

theorem barsOpen_not_aborting {s : State} (h : s.barsOpen = true) : (s.frozen || s.phase == .safe) = false := by
  obtain ⟨hphase, hfrozen, -⟩ := barsOpen_iff.1 h
  rcases hphase with hphase | hphase <;> simp [hphase, hfrozen]

/-! ## Reset -/

theorem reset_word (off : Nat) : State.reset.word off = resetWord off := rfl

theorem reset_pairs_in_bypass (p : Fin 12) : State.reset.get (F.LK_PAIR_STATUS_STATE p) = 0 := by
  revert p; decide +kernel

theorem reset_justReset : JustReset State.reset where
  phase := .inr rfl
  frozen := by decide +kernel
  cycle := rfl
  strokes := rfl
  queues := rfl
  floats := rfl
  intake := rfl
  flow := rfl
  egress := rfl
  models := rfl

/-- Settles O3: the reset state lists nothing, so every table reads its default. -/
theorem resetLeaves : Obligations.ResetLeaves := by
  unfold Obligations.ResetLeaves
  exact ⟨reset_justReset, rfl, reset_word, reset_pairs_in_bypass, fun _ => rfl, rfl, rfl, rfl, rfl⟩

/-! ## Reads of BAR0 and BAR2 (R10, R14, R58-R62) -/

/-- A read reaches the 880: of host software over a link that is up while internal reset is not held, of a control core in service. -/
def State.reads (s : State) (host : Bool) : Prop :=
  (host = true → s.pcieUp = true ∧ s.phase ≠ .reset) ∧ (host = false → s.live = true)

theorem ready_reads {s : State} (hphase : s.phase = .ready) (hfrozen : s.frozen = false) (hlink : s.pcieUp = true) (host : Bool) :
    s.reads host :=
  ⟨fun _ => ⟨hlink, by simp [hphase]⟩, fun _ => live_iff.2 ⟨hphase, hfrozen⟩⟩

/-- A BAR0 read that reaches the 880 is answered by what lies at its word. -/
theorem exec_bar0Read {s : State} {host : Bool} (h : s.reads host) (off size : Nat) :
    exec (.registerRead .bar0 host off size) s = .next (s.readBar0 off) := by
  obtain ⟨hhost, hcore⟩ := h
  rw [exec_registerRead]
  cases host with
  | true => simp [State.registerRead, hhost rfl]
  | false => simp [State.registerRead, hcore rfl]

/-- A BAR2 read of host software that reaches the 880. -/
theorem exec_bar2Read {s : State} (hlink : s.pcieUp = true) (hphase : s.phase ≠ .reset) (off size : Nat) :
    exec (.registerRead .bar2 true off size) s = .next (s.readBar2 off size) := by
  simp [exec_registerRead, State.registerRead, hlink, hphase]

theorem hostRead_linkDown {s : State} (h : s.pcieUp = false ∨ s.phase = .reset) (bar : Bar) (off size : Nat) :
    exec (.registerRead bar true off size) s = .next s := by
  rcases h with h | h <;> simp [exec_registerRead, State.registerRead, h]

theorem coreRead_notLive {s : State} (h : s.live = false) (bar : Bar) (off size : Nat) :
    exec (.registerRead bar false off size) s = .next s := by
  simp [exec_registerRead, State.registerRead, h]

theorem coreRead_bar2 (s : State) (off size : Nat) : exec (.registerRead .bar2 false off size) s = .next s := by
  cases h : s.live <;> simp [exec_registerRead, State.registerRead, h]

theorem readBar2_open {s : State} (h : s.barsOpen = true) (off size : Nat) :
    s.readBar2 off size = s.emit (.data (s.bar2Value off size)) := by
  simp [State.readBar2, barsOpen_not_aborting h, h]

theorem readBar2_abort {s : State} (h : s.frozen = true ∨ s.phase = .safe) (off size : Nat) : s.readBar2 off size = s.abortRead := by
  rcases h with h | h <;> simp [State.readBar2, h]

/-- In service every register answers its value while DBG_CLK runs. -/
theorem answer_ready {s : State} (hphase : s.phase = .ready) (hfrozen : s.frozen = false) (hclock : s.dbgClock = true) (off : Nat) :
    s.answer off = .value := by
  simp [State.answer, State.retiredHold, hphase, hfrozen, hclock]

theorem readBar0_value {s : State} {off : Nat} (h : s.answer (off / 4 * 4) = .value) :
    s.readBar0 off = (s.readReg (off / 4 * 4)).1.emit (.data (s.readReg (off / 4 * 4)).2) := by
  simp [State.readBar0, h]

theorem readBar0_abort {s : State} {off : Nat} (h : s.answer (off / 4 * 4) = .abort) : s.readBar0 off = s.abortRead := by
  simp [State.readBar0, h]

theorem readBar0_reset {s : State} {off : Nat} (h : s.answer (off / 4 * 4) = .reset) :
    s.readBar0 off = s.emit (.data (resetWord (off / 4 * 4)).toNat) := by
  simp [State.readBar0, h]

theorem readBar0_zero {s : State} {off : Nat} (h : s.answer (off / 4 * 4) = .zero) : s.readBar0 off = s.emit (.data 0) := by
  simp [State.readBar0, h]

theorem readReg_none {s : State} {off : Nat} (h : findRow regRows off = none) : s.readReg off = (s, 0) := by
  simp [State.readReg, h]

/-- A register that has nothing latched answers its value, with the effect that its read has. -/
theorem readReg_value {s : State} {off : Nat} {row : RegRow} {ix : List Nat} (hrow : findRow regRows off = some (row, ix))
    (hlatch : row.half = .hi → sget 0 s.host.readLatch off = 0) : s.readReg off = (s.readEffect row off, s.regValue off) := by
  by_cases hhi : row.half = .hi
  · simp [State.readReg, hrow, hlatch hhi]
  · simp [State.readReg, hrow, hhi]

/-- A high half with something latched answers that, once. -/
theorem readReg_latched {s : State} {off : Nat} {row : RegRow} {ix : List Nat} (hrow : findRow regRows off = some (row, ix))
    (hhi : row.half = .hi) (hlatch : sget 0 s.host.readLatch off ≠ 0) :
    s.readReg off = ({ s with host := { s.host with readLatch := sset 0 s.host.readLatch off 0 } },
      sget 0 s.host.readLatch off % 2 ^ 32) := by
  simp [State.readReg, hrow, hhi, hlatch]

/-- A read sends nothing but its answer. -/
theorem readEffect_out (s : State) (row : RegRow) (off : Nat) : (s.readEffect row off).out = s.out := by
  cases hhalf : row.half <;> simp only [State.readEffect, hhalf, apply_ite State.out, State.put_out, ite_self]

/-- PWR_NOW, whose read changes a register, and WH_STP_FILLn are no half of a pair. -/
theorem regRows_lo_half : ∀ r ∈ regRows, r.half = .lo → r.base ≠ R.PWR_NOW ∧ r.base ≠ R.WH_STP_FILL 0 := by decide +kernel

/-- A read of a low half latches the high half and does nothing else (R10). -/
theorem readEffect_lo {s : State} {off : Nat} {row : RegRow} {ix : List Nat} (hrow : findRow regRows off = some (row, ix))
    (hlo : row.half = .lo) : s.readEffect row off
      = { s with host := { s.host with readLatch := sset 0 s.host.readLatch (off + 4) (2 ^ 32 + s.regValue (off + 4)) } } := by
  obtain ⟨hmem, -, -⟩ := findRow_eq_some hrow
  obtain ⟨hpwr, hfill⟩ := regRows_lo_half row hmem hlo
  simp only [State.readEffect, hlo, if_neg hpwr, if_neg hfill]

/-- A BAR0 read of an aligned register in service. -/
theorem exec_bar0Read_ready {s : State} (hphase : s.phase = .ready) (hfrozen : s.frozen = false) (hlink : s.pcieUp = true)
    (hclock : s.dbgClock = true) (host : Bool) {off : Nat} (hoff : off % 4 = 0) (size : Nat) :
    exec (.registerRead .bar0 host off size) s = .next ((s.readReg off).1.emit (.data (s.readReg off).2)) := by
  have halign : off / 4 * 4 = off := by omega
  rw [exec_bar0Read (ready_reads hphase hfrozen hlink host), readBar0_value (answer_ready hphase hfrozen hclock _), halign]

/-- A read of a low half in service answers it and latches the high half (R10). -/
theorem exec_lowHalfRead {s : State} (hphase : s.phase = .ready) (hfrozen : s.frozen = false) (hlink : s.pcieUp = true)
    (hclock : s.dbgClock = true) {off : Nat} (hoff : off % 4 = 0) {row : RegRow} {ix : List Nat}
    (hrow : findRow regRows off = some (row, ix)) (hlo : row.half = .lo) :
    ∃ t, exec (.registerRead .bar0 true off 4) s = .next t ∧ t.out = .data (s.regValue off) :: s.out ∧ t.regs = s.regs
      ∧ t.host.readLatch = sset 0 s.host.readLatch (off + 4) (2 ^ 32 + s.regValue (off + 4)) := by
  have hnone : row.half = .hi → sget 0 s.host.readLatch off = 0 := by simp [hlo]
  rw [exec_bar0Read_ready hphase hfrozen hlink hclock true hoff, readReg_value hrow hnone, readEffect_lo hrow hlo]
  exact ⟨_, rfl, rfl, rfl, rfl⟩

/-- A read of a high half in service answers what its low half latched (R10). -/
theorem exec_highHalfRead {u : State} (hphase : u.phase = .ready) (hfrozen : u.frozen = false) (hlink : u.pcieUp = true)
    (hclock : u.dbgClock = true) {off : Nat} (hoff : off % 4 = 0) {row : RegRow} {ix : List Nat}
    (hrow : findRow regRows off = some (row, ix)) (hhi : row.half = .hi) {v : Nat}
    (hlatch : sget 0 u.host.readLatch off = 2 ^ 32 + v) :
    ∃ t, exec (.registerRead .bar0 true off 4) u = .next t ∧ t.out = .data (v % 2 ^ 32) :: u.out ∧ t.regs = u.regs := by
  have hset : sget 0 u.host.readLatch off ≠ 0 := by omega
  rw [exec_bar0Read_ready hphase hfrozen hlink hclock true hoff, readReg_latched hrow hhi hset, hlatch, Nat.add_mod_left]
  exact ⟨_, rfl, rfl, rfl⟩

/-- A read that a register answers with its value, to whoever reads it. -/
theorem exec_bar0Read_value {s : State} {host : Bool} (h : s.reads host) {off : Nat} {row : RegRow} {ix : List Nat}
    (hans : s.answer (off / 4 * 4) = .value) (hrow : findRow regRows (off / 4 * 4) = some (row, ix))
    (hlatch : row.half = .hi → sget 0 s.host.readLatch (off / 4 * 4) = 0) (size : Nat) :
    ∃ t, exec (.registerRead .bar0 host off size) s = .next t ∧ t.out = .data (s.regValue (off / 4 * 4)) :: s.out := by
  rw [exec_bar0Read h, readBar0_value hans, readReg_value hrow hlatch]
  exact ⟨_, rfl, congrArg _ (readEffect_out s row _)⟩

/-! ## Register writes (R9, R11, R14, R441) -/

/-- A write with a byte enable missing, or to an offset that takes no writes, is discarded. -/
theorem exec_registerWrite_discarded {s : State} {off : Nat} {enables : BitVec 4}
    (h : enables ≠ 15 ∨ s.takesWrite off = false) (host : Bool) (v : Word) : exec (.registerWrite host off enables v) s = .next s := by
  have hnone : s.writeReg host off enables.toNat v.toNat = s := by
    refine if_pos ?_
    rcases h with h | h
    · have hne : enables.toNat ≠ 15 := fun e => h (BitVec.eq_of_toNat_eq e)
      simp [hne]
    · simp [h]
  rw [exec_registerWrite, hnone, ite_self]

theorem exec_registerWrite_unmapped {s : State} {off : Nat} (h : findRow regRows off = none) (host : Bool) (enables : BitVec 4)
    (v : Word) : exec (.registerWrite host off enables v) s = .next s := by
  have hnone : s.writeReg host off enables.toNat v.toNat = s := by
    simp [State.writeReg, h]
  rw [exec_registerWrite, hnone, ite_self]

/-- A full-word write reaches the register that lies at its offset. -/
theorem exec_registerWrite_reaches {s : State} {host : Bool} {off : Nat} {row : RegRow} {ix : List Nat}
    (hhost : host = true → s.pcieUp = true) (hcore : host = false → s.live = true) (hoff : off % 4 = 0)
    (htakes : s.takesWrite off = true) (hrow : findRow regRows off = some (row, ix)) (v : Word) :
    exec (.registerWrite host off 15 v) s = .next (s.writeWord host row (ix.headD 0) off v.toNat) := by
  have hopen : (if host then s.pcieUp else s.live) = true := by
    cases host with
    | true => exact hhost rfl
    | false => exact hcore rfl
  rw [exec_registerWrite, if_pos hopen]
  simp [State.writeReg, hoff, htakes, hrow]

theorem takesWrite_frozen {s : State} {off : Nat} (hfrozen : s.frozen = true) (hdbg : dbgBlock off = false) :
    s.takesWrite off = false := by
  simp [State.takesWrite, hfrozen, hdbg]

/-! ## STK_HOLDOVER (R22) -/

/-- STK_HOLDOVER's row of the map. -/
def holdoverRow : RegRow := ⟨R.STK_HOLDOVER, [], .single, [⟨0, 16, .rw, true, .val 2000⟩]⟩

theorem findRow_holdover : findRow regRows R.STK_HOLDOVER = some (holdoverRow, []) := by decide +kernel

/-- What STK_HOLDOVER holds after a write of `v`: the written value where its range admits it, else its own. -/
def State.holdoverAfter (s : State) (v : Nat) : Nat :=
  if 1 ≤ v % 2 ^ 16 ∧ v % 2 ^ 16 ≤ 60000 then v % 2 ^ 16 else s.get F.STK_HOLDOVER_MS

theorem writeWord_holdover (s : State) (v : Nat) :
    s.writeWord true holdoverRow 0 R.STK_HOLDOVER v = s.plainWrite true holdoverRow 0 R.STK_HOLDOVER v := by
  have hmem : s.writeMem holdoverRow v = none := by
    unfold State.writeMem
    split <;> rfl
  unfold State.writeWord
  rw [hmem]
  rfl

/-- What a write of STK_HOLDOVER stores. -/
theorem plainWrite_holdover (s : State) (v : Nat) :
    s.plainWrite true holdoverRow 0 R.STK_HOLDOVER v = s.setWord R.STK_HOLDOVER (BitVec.ofNat 32 (s.holdoverAfter v)) := by
  have hopen : s.fieldOpen true 0 R.STK_HOLDOVER ⟨0, 16, .rw, true, .val 2000⟩ = true := rfl
  have hrange (x : Nat) : admits R.STK_HOLDOVER 0 x = decide (1 ≤ x ∧ x ≤ 60000) := rfl
  simp [State.plainWrite, State.store, State.putWord, holdoverRow, mergeWord, writtenField, hopen, hrange, bits,
    State.holdoverAfter, State.get]

theorem holdoverAfter_lt (s : State) (v : Nat) : s.holdoverAfter v < 2 ^ 16 := by
  unfold State.holdoverAfter
  split
  · exact Nat.mod_lt _ (by decide)
  · exact bits_lt _ 0 16

/-- A host's write of STK_HOLDOVER, as the register file then stands. -/
theorem exec_holdoverWrite {s : State} (hlink : s.pcieUp = true) (htakes : s.takesWrite R.STK_HOLDOVER = true) (v : Word) :
    exec (.registerWrite true R.STK_HOLDOVER 15 v) s
      = .next (s.setWord R.STK_HOLDOVER (BitVec.ofNat 32 (s.holdoverAfter v.toNat))) := by
  rw [exec_registerWrite_reaches (fun _ => hlink) (fun h => absurd h (by decide)) (by decide) htakes findRow_holdover]
  exact congrArg _ ((writeWord_holdover s _).trans (plainWrite_holdover s _))

theorem get_holdover_written (s : State) (v : Nat) :
    (s.setWord R.STK_HOLDOVER (BitVec.ofNat 32 (s.holdoverAfter v))).get F.STK_HOLDOVER_MS = s.holdoverAfter v := by
  have hfits := holdoverAfter_lt s v
  have hword : s.holdoverAfter v % 2 ^ 32 = s.holdoverAfter v := Nat.mod_eq_of_lt (by omega)
  simp only [State.get, word_setWord_same, BitVec.toNat_ofNat, hword, bits, Nat.pow_zero, Nat.div_one]
  exact Nat.mod_eq_of_lt hfits

/-- STK_HOLDOVER takes a value of its range. -/
theorem holdoverAfter_inRange (s : State) {v : Nat} (hmin : 1 ≤ v) (hmax : v ≤ 60000) : s.holdoverAfter v = v := by
  have hcut : v % 2 ^ 16 = v := Nat.mod_eq_of_lt (by omega)
  simp only [State.holdoverAfter, hcut, hmin, hmax, and_self, if_true]

/-- STK_HOLDOVER keeps its value against one beyond its range. -/
theorem holdoverAfter_beyond (s : State) {v : Nat} (h : 60000 < v % 2 ^ 16) : s.holdoverAfter v = s.get F.STK_HOLDOVER_MS :=
  if_neg (by omega)

/-! ## The register statements -/

/-- Settles O6: no row of the map, so nothing is read and nothing reached. -/
theorem unmappedRegisters : Obligations.UnmappedRegisters := by
  unfold Obligations.UnmappedRegisters
  intro s off size host value enables hoff hrow hphase hfrozen hlink hclock
  refine ⟨?_, exec_registerWrite_unmapped hrow host enables value⟩
  rw [exec_bar0Read_ready hphase hfrozen hlink hclock host hoff, readReg_none hrow]

/-- Settles O7, by how a read is answered, by the latch of R10, and by what a write reaches. -/
theorem registersAreReadAndWritten : Obligations.RegistersAreReadAndWritten := by
  unfold Obligations.RegistersAreReadAndWritten
  refine ⟨?_, ?_, ?_, ?_⟩
  · intro s row hi off ix jx hoff hrow hrow' hlo hhi hphase hfrozen hlink hclock
    obtain ⟨t, hexec, hout, hregs, hlatch⟩ := exec_lowHalfRead hphase hfrozen hlink hclock hoff hrow hlo
    refine ⟨t, hexec, hout, hregs, fun u hu hphase hfrozen hlink hclock => ?_⟩
    refine exec_highHalfRead hphase hfrozen hlink hclock (by omega) hrow' hhi ?_
    rw [hu, hlatch, sget_sset_same]
  · intro s host off size hhost hcore
    have hreads : s.reads host := ⟨hhost, hcore⟩
    refine ⟨fun row ix hans hrow hlatch => exec_bar0Read_value hreads hans hrow hlatch size, fun hans => ?_, fun hans => ?_,
      fun hans => ?_, fun hopen => ?_, fun hstop hlink hphase => ?_, coreRead_bar2 s off size⟩
    · rw [exec_bar0Read hreads, readBar0_abort hans]
    · rw [exec_bar0Read hreads, readBar0_reset hans]
    · rw [exec_bar0Read hreads, readBar0_zero hans]
    · obtain ⟨hphase, -, hlink⟩ := barsOpen_iff.1 hopen
      have hrun : s.phase ≠ .reset := by rcases hphase with h | h <;> simp [h]
      rw [exec_bar2Read hlink hrun, readBar2_open hopen]
    · rw [exec_bar2Read hlink hphase, readBar2_abort hstop]
  · exact fun s bar off size => ⟨fun h => hostRead_linkDown h bar off size, fun h => coreRead_notLive h bar off size⟩
  · intro s v
    refine ⟨fun host off row ix hhost hcore hoff htakes hrow => exec_registerWrite_reaches hhost hcore hoff htakes hrow v,
      fun hlink htakes hmin hmax => ?_, fun hlink htakes hbeyond => ?_,
      fun host off enables hen => exec_registerWrite_discarded (.inl hen) host v,
      fun host off enables hfrozen hdbg => exec_registerWrite_discarded (.inr (takesWrite_frozen hfrozen hdbg)) host v⟩
    · exact ⟨_, exec_holdoverWrite hlink htakes v, (get_holdover_written s _).trans (holdoverAfter_inRange s hmin hmax),
        fun off hoff => word_setWord_other s _ hoff, rfl⟩
    · exact ⟨_, exec_holdoverWrite hlink htakes v, (get_holdover_written s _).trans (holdoverAfter_beyond s hbeyond)⟩

/-! ## BAR4 (R61, R62) -/

theorem bit_or_two_pow (n i : Nat) : bit (n ||| 2 ^ i) i = true := by
  have htest : bit (n ||| 2 ^ i) i = (n ||| 2 ^ i).testBit i := Nat.testBit_eq_decide_div_mod_eq.symm
  rw [htest, Nat.testBit_or, Nat.testBit_two_pow_self, Bool.or_true]

/-- A Completer Abort is answered and logged in the AER status (R62). -/
theorem abortRead_logged (s : State) :
    s.abortRead.out = .completerAbort :: s.out ∧ bit s.abortRead.host.config.aer 15 = true :=
  ⟨rfl, bit_or_two_pow _ 15⟩

theorem doBar4Read_frozen {s : State} (h : s.frozen = true) (offset size : Nat) : s.doBar4Read offset size = s.abortRead := by
  simp [State.doBar4Read, h]

theorem doBar4Read_closed {s : State} (hbars : s.barsOpen = true) (hclosed : s.bar4Open = false) (offset size : Nat) :
    s.doBar4Read offset size = s.emit .unsupported := by
  simp [State.doBar4Read, barsOpen_not_aborting hbars, hclosed]

/-- An aligned read through the open window answers the data of Cistern words that are good. -/
theorem doBar4Read_good {s : State} (hbars : s.barsOpen = true) (hopen : s.bar4Open = true) {offset size : Nat}
    (hshape : bar4Shape offset size = true) (hgood : (s.rdRange .cis (s.bar4Addr offset) size).2.2.any id = false) :
    s.doBar4Read offset size = (s.rdRange .cis (s.bar4Addr offset) size).1.emit
      (.data (bytesNat (s.rdRange .cis (s.bar4Addr offset) size).2.1)) := by
  simp only [State.doBar4Read, barsOpen_not_aborting hbars, hbars, hopen, hshape, hgood, Bool.not_true, Bool.or_self,
    Bool.false_eq_true, if_false]

/-- One of a Cistern word that is marked is a Completer Abort. -/
theorem doBar4Read_marked {s : State} (hbars : s.barsOpen = true) (hopen : s.bar4Open = true) {offset size : Nat}
    (hshape : bar4Shape offset size = true) (hbad : (s.rdRange .cis (s.bar4Addr offset) size).2.2.any id = true) :
    s.doBar4Read offset size = (s.rdRange .cis (s.bar4Addr offset) size).1.abortRead := by
  simp only [State.doBar4Read, barsOpen_not_aborting hbars, hbars, hopen, hshape, hbad, Bool.not_true, Bool.or_self,
    Bool.false_eq_true, if_false, if_true]

/-- Settles O17, by the cases of a BAR4 read: aborted, closed, or a read of the Cistern. -/
theorem bar4ReachesTheCistern : Obligations.Bar4ReachesTheCistern := by
  unfold Obligations.Bar4ReachesTheCistern
  intro s offset size data
  refine ⟨fun hfrozen => ?_, abortRead_logged s, fun hbars hoff => ?_, fun hbars hopen hshape => ⟨fun hgood => ?_, fun hbad => ?_⟩,
    fun hbars hopen hshape => ?_⟩
  · rw [exec_bar4Read, doBar4Read_frozen hfrozen]
  · have hclosed : s.bar4Open = false := by simp [State.bar4Open, hoff]
    rw [exec_bar4Read, doBar4Read_closed hbars hclosed]
  · exact congrArg _ (doBar4Read_good hbars hopen hshape hgood)
  · exact congrArg _ (doBar4Read_marked hbars hopen hshape hbad)
  · rw [exec_bar4Write, if_pos (by simp [hbars, hopen, hshape])]
    rfl

end Sys2Proof.Machine
end

section
/-! Strokes, budgets and the timebase: what a queue whose budget is used up may start, what a measurement does to the servo, how the
period changes, and what the overrun policy does with a queue's unfinished command (R18-R24, R33-R38). -/

namespace Sys2Proof.Machine

/-! ## Budgets (R33, R34) -/

theorem exec_commandAdmit (q : Fin 80) (s : State) :
    exec (.commandAdmit q) s = .next (if s.live then s.takeHead q else s) := rfl

theorem budgetOk_unlimited {s : State} {q : Nat} (h : s.getF (F.STK_BUDGET_BUDGET q) = 0xFFFFFFFF) : s.budgetOk q = true := by
  simp [State.budgetOk, h]

/-- A limited budget that the queue's charge has reached admits nothing (R34). -/
theorem budgetOk_usedUp {s : State} {q : Nat} (hstrokes : s.clk.strokes = true)
    (hlimited : s.getF (F.STK_BUDGET_BUDGET q) ≠ 0xFFFFFFFF) (hspent : s.getF (F.STK_BUDGET_BUDGET q) ≤ (s.q q).spent) :
    s.budgetOk q = false := by
  have hnot : ¬(s.q q).spent < s.getF (F.STK_BUDGET_BUDGET q) := Nat.not_lt.2 hspent
  simp [State.budgetOk, hstrokes, hlimited, hnot]

theorem headReady_noBudget {s : State} {q : Nat} (h : s.budgetOk q = false) : s.headReady q = false := by
  simp [State.headReady, h]

theorem rung4_noBudget {s : State} {q : Nat} (h : s.budgetOk q = false) : s.rung4 q = false := by
  simp [State.rung4, h]

/-- A queue whose head is not ready starts nothing. -/
theorem exec_commandAdmit_notReady {s : State} {q : Fin 80} (h : s.headReady q = false) : exec (.commandAdmit q) s = .next s := by
  have hhead : s.takeHead q = s := by simp [State.takeHead, h]
  rw [exec_commandAdmit, hhead, ite_self]

/-- Settles O13: the budget stands in the way of the queue's head, and of its rung 4. -/
theorem budgetAdmits : Obligations.BudgetAdmits := by
  unfold Obligations.BudgetAdmits
  intro s q hstrokes
  have starts_nothing (hlimited : s.getF (F.STK_BUDGET_BUDGET q) ≠ 0xFFFFFFFF)
      (hspent : s.getF (F.STK_BUDGET_BUDGET q) ≤ (s.q q).spent) :
      s.rung4 q = false ∧ exec (.commandAdmit q) s = .next s :=
    have hused := budgetOk_usedUp hstrokes hlimited hspent
    ⟨rung4_noBudget hused, exec_commandAdmit_notReady (headReady_noBudget hused)⟩
  refine ⟨starts_nothing, fun hzero => ?_, budgetOk_unlimited⟩
  exact (starts_nothing (by omega) (by omega)).2

/-! ## Measurements (R18, R20-R22) -/

theorem exec_ptpMeasurement (ns : Nat) (log : Int) (s : State) :
    exec (.ptpMeasurement ns log) s = whenLive s fun s =>
      if s.source = 0 && s.lit (s.get F.STK_CTRL_PTP_LINK) then s.measure (ns * 5 / 2) (syncInterval log) else s := rfl

theorem exec_ppsEdge (s : State) :
    exec .ppsEdge s = whenClocked s fun s =>
      if s.source = 1 then s.measure (2500000000 * s.get F.STK_TOD_SEC_SEC) 2500000000 else s := rfl

theorem whenClocked_true {s : State} (h : s.clocked = true) (f : State → State) : whenClocked s f = .next (f s) := by
  simp [whenClocked, h]

theorem whenClocked_same {s : State} {f : State → State} (h : f s = s) : whenClocked s f = .next s := by
  simp [whenClocked, h]

theorem whenLive_same {s : State} {f : State → State} (h : f s = s) : whenLive s f = .next s := by
  simp [whenLive, h]

theorem servo_putState (s : State) {v : Nat} (h : v < 8) : (s.put F.STK_STATUS_STATE v).servo = v :=
  (get_put_same s _ v (by decide)).trans (Nat.mod_eq_of_lt h)

/-- How far the count is ahead of a measurement that puts it at `target`. -/
def State.ahead (s : State) (target : Nat) : Int := (s.clk.time : Int) - target

/-- The state with a measurement's offset and interval noted, nothing else. -/
def State.noted (s : State) (target interval : Nat) : State :=
  { s with clk := { s.clk with lastOffset := s.ahead target * 2 / 5, interval := interval } }

/-- The state locked on a valid measurement, with `c` the clock that it leaves. -/
def State.lockedOn (s : State) (c : Clock) : State :=
  { s with clk := { c with lastValid := some s.clk.real } }.put F.STK_STATUS_STATE 1

/-- The first measurement of an acquisition steps the count to it (R20, R21). -/
def State.steppedTo (s : State) (target interval : Nat) : State :=
  s.lockedOn { (s.noted target interval).clk with time := target, slew := 0, armed := true }

/-- A valid measurement of a servo that has locked is slewed in (R20). -/
def State.slewingTo (s : State) (target interval : Nat) : State :=
  s.lockedOn { (s.noted target interval).clk with slew := -s.ahead target }

/-- A measurement beyond the step limit that comes to a LOST servo keeps it so (R22). -/
def State.lostFor (s : State) (target interval : Nat) : State :=
  { s with clk := { (s.noted target interval).clk with stepLost := true } }

theorem lockedOn_servo (s : State) (c : Clock) : (s.lockedOn c).servo = 1 := servo_putState _ (by decide)

theorem measure_eq (s : State) (target interval : Nat) : s.measure target interval =
    if !s.on F.STK_CTRL_ENABLE || s.servo = 4 then s
    else if s.servo = 0 then (s.steppedTo target interval).lockEvent
    else if 5 * s.get F.STK_STEP_LIMIT_NS < 2 * (s.ahead target).natAbs then
      (if s.servo = 3 then s.lostFor target interval
       else if s.clk.strokes then (s.noted target interval).loseServo 2 else s.noted target interval)
    else if s.servo = 3 && s.clk.stepLost then s.noted target interval
    else if s.servo = 3 then (s.slewingTo target interval).lockEvent else s.slewingTo target interval := rfl

section
variable {s : State} {target : Nat} (interval : Nat) (hon : s.on F.STK_CTRL_ENABLE = true)

theorem measure_free (hservo : s.servo = 4) : s.measure target interval = s := by
  simp [measure_eq, hservo]

include hon

theorem measure_acquiring (hservo : s.servo = 0) : s.measure target interval = (s.steppedTo target interval).lockEvent := by
  simp [measure_eq, hon, hservo]

section
variable (hnear : 2 * (s.ahead target).natAbs ≤ 5 * s.get F.STK_STEP_LIMIT_NS)
include hnear

theorem measure_near (hservo : s.servo = 1 ∨ s.servo = 2) : s.measure target interval = s.slewingTo target interval := by
  rcases hservo with h | h <;> simp [measure_eq, hon, h, Nat.not_lt.2 hnear]

theorem measure_near_relocks (hservo : s.servo = 3) (hstep : s.clk.stepLost = false) :
    s.measure target interval = (s.slewingTo target interval).lockEvent := by
  simp [measure_eq, hon, hservo, hstep, Nat.not_lt.2 hnear]

theorem measure_near_staysLost (hservo : s.servo = 3) (hstep : s.clk.stepLost = true) :
    s.measure target interval = s.noted target interval := by
  simp [measure_eq, hon, hservo, hstep, Nat.not_lt.2 hnear]

end

section
variable (hfar : ¬2 * (s.ahead target).natAbs ≤ 5 * s.get F.STK_STEP_LIMIT_NS)
include hfar

theorem measure_far_running (hservo : s.servo = 1 ∨ s.servo = 2) (hstrokes : s.clk.strokes = true) :
    s.measure target interval = (s.noted target interval).loseServo 2 := by
  rcases hservo with h | h <;> simp [measure_eq, hon, h, hstrokes, Nat.not_le.1 hfar]

theorem measure_far_stopped (hservo : s.servo = 1 ∨ s.servo = 2) (hstrokes : s.clk.strokes = false) :
    s.measure target interval = s.noted target interval := by
  rcases hservo with h | h <;> simp [measure_eq, hon, h, hstrokes, Nat.not_le.1 hfar]

theorem measure_far_lost (hservo : s.servo = 3) : s.measure target interval = s.lostFor target interval := by
  simp [measure_eq, hon, hservo, Nat.not_le.1 hfar]

end
end

/-- What a servo that enters LOST leaves, but for the event and the bypass moves that TIMEBASE_LOST brings (R22). -/
def State.servoLost (s : State) : State :=
  let t := (s.put F.STK_STATUS_STATE 3).unlockBank
  { t with clk := { t.clk with slew := 0 } }

theorem loseServo_eq (s : State) (reason : Nat) : s.loseServo reason = s.servoLost.timebaseLost reason := rfl

theorem servoLost_servo (s : State) : s.servoLost.servo = 3 := servo_putState s (by decide)

/-! ## Holdover (R21, R22) -/

theorem exec_holdoverEntry (s : State) : exec .holdoverEntry s = whenClocked s State.enterHoldover := rfl

theorem exec_holdoverExpiry (s : State) : exec .holdoverExpiry s = whenClocked s State.expireHoldover := rfl

section
variable {s : State} {c0 : Nat} (hvalid : s.clk.lastValid = some c0)
include hvalid

/-- 1.5 expected intervals have passed, STK_HOLDOVER has not: HOLDOVER. -/
theorem enterHoldover_due (hservo : s.servo = 1) (hdue : c0 + 3 * s.expected / 2 ≤ s.clk.real)
    (hend : s.clk.real < s.holdoverEnd c0) : s.enterHoldover = (s.put F.STK_STATUS_STATE 2).unlockBank := by
  have hopen : ¬s.holdoverEnd c0 ≤ max (c0 + 3 * s.expected / 2) s.clk.real := by omega
  simp [State.enterHoldover, hvalid, hservo, hopen, reachReal_now s _ hdue]

/-- STK_HOLDOVER ended first: the servo goes to LOST without HOLDOVER. -/
theorem enterHoldover_ended (hend : s.holdoverEnd c0 ≤ s.clk.real) : s.enterHoldover = s := by
  have hover : s.holdoverEnd c0 ≤ max (c0 + 3 * s.expected / 2) s.clk.real := by omega
  simp [State.enterHoldover, hvalid, hover]

theorem expireHoldover_due (hservo : s.servo = 1 ∨ s.servo = 2) (hend : s.holdoverEnd c0 ≤ s.clk.real) :
    s.expireHoldover = s.loseServo 1 := by
  rcases hservo with h | h <;> simp [State.expireHoldover, hvalid, h, reachReal_now s _ hend]

end

/-- Settles O18: the branches of a measurement by the servo's state and the step limit, and the two ends of holdover. -/
theorem theServoFollowsItsSource : Obligations.TheServoFollowsItsSource := by
  unfold Obligations.TheServoFollowsItsSource
  refine ⟨fun s ns log => ⟨fun hlive hsource hlit => ?_, fun hnone => ?_, fun hclocked hsource => ?_, fun hsource => ?_⟩, ?_,
    fun s c0 hclocked hvalid => ⟨fun hservo hdue hend => ?_, fun _ hend => ?_, fun hservo hend => ?_⟩⟩
  · rw [exec_ptpMeasurement, whenLive_true hlive, if_pos (by simp [hsource, hlit])]
  · rw [exec_ptpMeasurement]
    exact whenLive_same (if_neg (by rcases hnone with h | h <;> simp [h]))
  · rw [exec_ppsEdge, whenClocked_true hclocked, if_pos hsource]
  · rw [exec_ppsEdge]
    exact whenClocked_same (if_neg hsource)
  · intro s target interval hon off near slews
    have slewing_slews : slews (s.slewingTo target interval) := ⟨rfl, rfl, lockedOn_servo s _, rfl, rfl⟩
    refine ⟨fun hservo => ?_, fun hservo hnear => ?_, fun hservo hfar hstrokes => ?_, fun hservo hfar hstrokes => ?_,
      fun hservo hnear hstep => ?_, fun hservo hfar => ?_, fun hservo hnear hstep => ?_, measure_free interval⟩
    · exact ⟨_, measure_acquiring interval hon hservo, rfl, lockedOn_servo s _, rfl, rfl, rfl⟩
    · rw [measure_near interval hon hnear hservo]
      exact slewing_slews
    · exact ⟨_, (measure_far_running interval hon hfar hservo hstrokes).trans (loseServo_eq _ 2), servoLost_servo _, rfl, rfl⟩
    · exact ⟨_, measure_far_stopped interval hon hfar hservo hstrokes, rfl, rfl, rfl⟩
    · exact ⟨_, measure_near_relocks interval hon hnear hservo hstep, slewing_slews⟩
    · rw [measure_far_lost interval hon hfar hservo]
      rfl
    · rw [measure_near_staysLost interval hon hnear hservo hstep]
      exact hservo
  · rw [exec_holdoverEntry, whenClocked_true hclocked, enterHoldover_due hvalid hservo hdue hend]
  · rw [exec_holdoverEntry, whenClocked_same (enterHoldover_ended hvalid hend)]
  · rw [exec_holdoverExpiry, whenClocked_true hclocked, expireHoldover_due hvalid hservo hend, loseServo_eq]
    exact ⟨_, rfl, rfl, rfl, rfl⟩

/-! ## The stroke period (R24) -/

theorem get64_congr {s t : State} {lo : Nat} (hlo : t.word lo = s.word lo) (hhi : t.word (lo + 4) = s.word (lo + 4)) :
    t.get64 lo = s.get64 lo := by
  simp only [State.get64, hlo, hhi]

theorem get64_put_other (s : State) (f : Fld) (v : Nat) {lo : Nat} (hlo : lo ≠ f.reg) (hhi : lo + 4 ≠ f.reg) :
    (s.put f v).get64 lo = s.get64 lo :=
  get64_congr (word_setWord_other s _ hlo) (word_setWord_other s _ hhi)

/-- A 64-bit quantity apart from the one put keeps its value. -/
theorem get64_put64_other (s : State) (v : Nat) {lo lo' : Nat} (h : lo' + 8 ≤ lo ∨ lo + 8 ≤ lo') :
    (s.put64 lo v).get64 lo' = s.get64 lo' :=
  get64_congr (word_put64_other s v (by omega) (by omega)) (word_put64_other s v (by omega) (by omega))

theorem exec_stkPeriodWrite {s : State} (htakes : s.takesWrite R.STK_PERIOD = true) (v : Word) :
    exec (.stkPeriodWrite v) s = .next (s.writePeriod v.toNat) := whenWritable_true htakes fun s => s.writePeriod v.toNat

theorem writePeriod_accepted {s : State} {v : Nat} (hmin : 5000 ≤ v) (hmax : v ≤ 2500000000) :
    s.writePeriod v = (s.put F.STK_PERIOD_PERIOD v).putB F.STK_STATUS_PERIOD_PENDING true := by
  simp [State.writePeriod, Nat.not_lt.2 hmin, Nat.not_lt.2 hmax]

theorem writePeriod_rejected {s : State} {v : Nat} (h : v < 5000 ∨ 2500000000 < v) :
    s.writePeriod v = s.putB F.STK_STATUS_PERIOD_REJECT true := if_pos (by simpa using h)

/-- Boundary `k` takes the pending period into force: STK_BASE and STK_ORIGIN move to it (R24). -/
def State.takePeriod (s : State) (k : Nat) : State :=
  (((s.put64 R.STK_BASE_LO k).put64 R.STK_ORIGIN_LO (s.count k)).put F.STK_ACTIVE_PERIOD_PERIOD (s.get F.STK_PERIOD_PERIOD)).putB
    F.STK_STATUS_PERIOD_PENDING false

theorem changePeriod_due {s : State} {k : Nat} (hpending : s.on F.STK_STATUS_PERIOD_PENDING = true)
    (hdue : s.get64 R.STK_PERIOD_AT_LO = 0 ∨ s.get64 R.STK_PERIOD_AT_LO ≤ k) :
    s.changePeriod k = (s.takePeriod k).raise 0x0103 (payload 16 [(0, 4, s.period), (4, 4, s.get F.STK_PERIOD_PERIOD)]) := by
  refine if_neg ?_
  rcases hdue with h | h
  · simp [hpending, h]
  · simp [hpending, Nat.not_lt.2 h]

theorem changePeriod_early {s : State} {k : Nat} (hat : s.get64 R.STK_PERIOD_AT_LO ≠ 0) (hearly : k < s.get64 R.STK_PERIOD_AT_LO) :
    s.changePeriod k = s := if_pos (by simp [hat, hearly])

theorem takePeriod_base (s : State) (k : Nat) : (s.takePeriod k).get64 R.STK_BASE_LO = k % 2 ^ 64 := by
  unfold State.takePeriod State.putB
  rw [get64_put_other _ _ _ (by decide) (by decide), get64_put_other _ _ _ (by decide) (by decide),
    get64_put64_other _ _ (by decide), get64_put64]

theorem takePeriod_origin (s : State) (k : Nat) : (s.takePeriod k).get64 R.STK_ORIGIN_LO = s.count k % 2 ^ 64 := by
  unfold State.takePeriod State.putB
  rw [get64_put_other _ _ _ (by decide) (by decide), get64_put_other _ _ _ (by decide) (by decide), get64_put64]

theorem takePeriod_period (s : State) (k : Nat) : (s.takePeriod k).period = s.get F.STK_PERIOD_PERIOD := by
  have hfits : s.get F.STK_PERIOD_PERIOD < 2 ^ 32 := bits_lt _ 0 32
  unfold State.takePeriod State.period
  rw [get_putB_other _ _ _ _ (by decide) (by decide), get_put_same _ _ _ (by decide), Nat.mod_eq_of_lt hfits]

theorem takePeriod_notPending (s : State) (k : Nat) : (s.takePeriod k).on F.STK_STATUS_PERIOD_PENDING = false :=
  on_putB_same _ _ false rfl (by decide)

/-- Settles O20: a write by its range, a boundary by whether the pending period is due at it. -/
theorem periodChanges : Obligations.PeriodChanges := by
  unfold Obligations.PeriodChanges
  intro s v k
  refine ⟨fun htakes hmin hmax => ?_, fun htakes hbeyond => ?_, fun hpending hdue => ?_, changePeriod_early⟩
  · rw [exec_stkPeriodWrite htakes, writePeriod_accepted hmin hmax]
    refine ⟨_, rfl, ?_, on_putB_same _ _ true rfl (by decide), ?_, rfl⟩
    · rw [get_putB_other _ _ _ _ (by decide) (by decide), get_put_same _ _ _ (by decide)]
      exact Nat.mod_eq_of_lt v.isLt
    · unfold State.period
      rw [get_putB_other _ _ _ _ (by decide) (by decide), get_put_other _ _ _ _ (by decide) (by decide)]
  · rw [exec_stkPeriodWrite htakes, writePeriod_rejected hbeyond]
    exact ⟨_, rfl, on_putB_same _ _ true rfl (by decide), get_putB_other _ _ _ _ (by decide) (by decide),
      on_putB_other _ _ _ _ (by decide) (by decide), rfl⟩
  · exact ⟨_, changePeriod_due hpending hdue, takePeriod_base s k, takePeriod_origin s k, takePeriod_period s k,
      takePeriod_notPending s k⟩

/-! ## The overrun policy (R35-R38) -/

/-- A CARRY queue's work goes on (R35). -/
theorem overrunQueue_carry {s0 s : State} {q : Nat} (h : s.onF (F.STK_QPOL_POLICY q) = false) : State.overrunQueue s0 s q = s := by
  simp [State.overrunQueue, h]

section
variable {s0 s : State} {q : Nat} {c : Fetched} {rest : List Fetched} (hcmds : (s.q q).cmds = c :: rest)
  (habort : s.onF (F.STK_QPOL_POLICY q) = true) (hunfinished : s0.unfinished q = true)
include hcmds habort hunfinished

/-- A WAIT that the boundary's own tick satisfies is no unfinished work (R38). -/
theorem overrunQueue_waitMet (hmet : s.waitMet q = true) : State.overrunQueue s0 s q = s.complete q Status.ok 1 := by
  simp [State.overrunQueue, hcmds, habort, hunfinished, hmet]

/-- A running command ends with OVERRUN, its charge and a DEADLINE_MISS that names the cause (R36, R43). -/
theorem overrunQueue_running {r : Run} (hcur : (s.q q).cur = some r) (hmet : s.waitMet q = false) :
    State.overrunQueue s0 s q
      = ((((s.missCause q).1.overrunDest q c.bytes).complete q Status.overrun r.charged).skipRest q).raise 0x0105
          (payload 16 [(0, 1, 4), (1, 1, q), (2, 1, (s.missCause q).2.1), (3, 1, (s.missCause q).2.2.1),
            (4, 4, (s.missCause q).2.2.2)]) := by
  simp [State.overrunQueue, hcmds, habort, hunfinished, hmet, hcur]

end

/-- Settles O22: the policy's three answers to a queue's first command. -/
theorem overrunPolicy : Obligations.OverrunPolicy := by
  unfold Obligations.OverrunPolicy
  intro s0 s q
  refine ⟨overrunQueue_carry, fun c rest => overrunQueue_waitMet, fun c rest r hcmds hcur habort hunfinished hmet => ?_⟩
  exact ⟨_, _, _, _, overrunQueue_running hcmds habort hunfinished hcur hmet, rfl⟩

end Sys2Proof.Machine
end

section
/-! Doorbells and float windows: what a BAR2 write of an SQ_TAIL, a CQ_HEAD or a float does, and how the updates of one float in one core
cycle combine (R59, R60, R66, R67, R81, R83). -/

namespace Sys2Proof.Machine

theorem exec_sqTailWrite (q : Fin 80) (offset size value : Nat) (stores : List (Nat × List Byte)) (s : State) :
    exec (.sqTailWrite q offset size value stores) s
      = .next (if (s.hostStores stores).barsOpen && doorbellWrite 0 offset size
          then (s.hostStores stores).setSqTail q (value % 2 ^ 32) else s.hostStores stores) := rfl

theorem exec_cqHeadWrite (q : Fin 80) (offset size value : Nat) (s : State) :
    exec (.cqHeadWrite q offset size value) s
      = .next (if s.barsOpen && doorbellWrite 4 offset size then s.setCqHead q (value % 2 ^ 32) else s) := rfl

theorem exec_floatSetWrite (f : Fin 131072) (offset size : Nat) (v : BitVec 64) (s : State) :
    exec (.floatSetWrite f offset size v) s = .next (if floatWrite s offset size then s.assignFloat true f v else s) := rfl

theorem exec_floatAddWrite (f : Fin 131072) (offset size : Nat) (v : BitVec 64) (s : State) :
    exec (.floatAddWrite f offset size v) s = .next (if floatWrite s offset size then s.addFloat f v.toNat else s) := rfl

/-! ## Doorbells (R59, R66, R67) -/

theorem doorbellWrite_iff {reg offset size : Nat} : doorbellWrite reg offset size = true ↔ offset = reg ∧ size = 4 := by
  simp [doorbellWrite]

/-- A doorbell write of the right shape, through an open BAR2. -/
theorem exec_sqTailWrite_open {s : State} {stores : List (Nat × List Byte)} (hopen : (s.hostStores stores).barsOpen = true)
    (q : Fin 80) {value : Nat} (hv : value < 2 ^ 32) :
    exec (.sqTailWrite q 0 4 value stores) s = .next ((s.hostStores stores).setSqTail q value) := by
  have hword : value % 2 ^ 32 = value := Nat.mod_eq_of_lt hv
  simp only [exec_sqTailWrite, hopen, doorbellWrite_iff.2 ⟨rfl, rfl⟩, Bool.and_self, if_true, hword]

theorem exec_sqTailWrite_discarded {s : State} {offset size : Nat} {stores : List (Nat × List Byte)}
    (h : ¬(offset = 0 ∧ size = 4) ∨ (s.hostStores stores).barsOpen = false) (q : Fin 80) (value : Nat) :
    exec (.sqTailWrite q offset size value stores) s = .next (s.hostStores stores) := by
  rw [exec_sqTailWrite, if_neg]
  rw [Bool.and_eq_true, doorbellWrite_iff]
  rintro ⟨hopen, hshape⟩
  rcases h with h | h
  · exact h hshape
  · simp [h] at hopen

theorem exec_cqHeadWrite_open {s : State} (hopen : s.barsOpen = true) (q : Fin 80) {value : Nat} (hv : value < 2 ^ 32) :
    exec (.cqHeadWrite q 4 4 value) s = .next (s.setCqHead q value) := by
  have hword : value % 2 ^ 32 = value := Nat.mod_eq_of_lt hv
  simp only [exec_cqHeadWrite, hopen, doorbellWrite_iff.2 ⟨rfl, rfl⟩, Bool.and_self, if_true, hword]

theorem exec_cqHeadWrite_discarded {offset size : Nat} (h : ¬(offset = 4 ∧ size = 4)) (q : Fin 80) (value : Nat) (s : State) :
    exec (.cqHeadWrite q offset size value) s = .next s := by
  rw [exec_cqHeadWrite, if_neg]
  rw [Bool.and_eq_true, doorbellWrite_iff]
  exact fun hw => h hw.2

theorem setSqTail_inside {s : State} {q v : Nat} (h : v < s.sqSize q) :
    s.setSqTail q v = s.modQ q fun Q => { Q with sqTail := v } := if_neg (Nat.not_le.2 h)

theorem setSqTail_outside {s : State} {q v : Nat} (h : s.sqSize q ≤ v) : s.setSqTail q v = s.ringError q 1 := if_pos h

theorem setCqHead_inside {s : State} {q v : Nat} (h : v < s.cqSize q) :
    s.setCqHead q v = s.modQ q fun Q => { Q with cqHead := v } := if_neg (Nat.not_le.2 h)

theorem setCqHead_outside {s : State} {q v : Nat} (h : s.cqSize q ≤ v) : s.setCqHead q v = s.ringError q 1 := if_pos h

/-! ## The floats of one core cycle (R60, R81, R83) -/

theorem floatWrite_iff {s : State} {offset size : Nat} :
    floatWrite s offset size = true ↔ s.barsOpen = true ∧ offset = 0 ∧ size = 8 := by
  simp [floatWrite, and_assoc]

theorem exec_floatWrites_open {s : State} (hopen : s.barsOpen = true) (f : Fin 131072) (v : BitVec 64) :
    exec (.floatSetWrite f 0 8 v) s = .next (s.assignFloat true f v)
      ∧ exec (.floatAddWrite f 0 8 v) s = .next (s.addFloat f v.toNat) := by
  have hw : floatWrite s 0 8 = true := floatWrite_iff.2 ⟨hopen, rfl, rfl⟩
  exact ⟨by rw [exec_floatSetWrite, if_pos hw], by rw [exec_floatAddWrite, if_pos hw]⟩

theorem exec_floatWrites_discarded {offset size : Nat} (h : ¬(offset = 0 ∧ size = 8)) (f : Fin 131072) (v : BitVec 64) (s : State) :
    exec (.floatSetWrite f offset size v) s = .next s ∧ exec (.floatAddWrite f offset size v) s = .next s := by
  have hw : ¬floatWrite s offset size = true := fun hw => h (floatWrite_iff.1 hw).2
  exact ⟨by rw [exec_floatSetWrite, if_neg hw], by rw [exec_floatAddWrite, if_neg hw]⟩

/-- What the floats have taken in this core cycle is of this core cycle. -/
theorem floatsNow_real (s : State) : s.floatsNow.real = s.clk.real := by
  unfold State.floatsNow
  split
  · assumption
  · rfl

theorem floatsNow_noteFloats {s : State} {n : FloatNow} (h : n.real = s.clk.real) : (s.noteFloats n).floatsNow = n :=
  if_pos h

/-- An addition is among what its float has taken in this core cycle. -/
theorem adds_addFloat (s : State) (f v : Nat) :
    sget 0 (s.addFloat f v).floatsNow.adds f = sget 0 s.floatsNow.adds f + BitVec.ofNat 64 v := by
  have hnow : (s.addFloat f v).floatsNow = { s.floatsNow with
      adds := sset 0 s.floatsNow.adds f (sget 0 s.floatsNow.adds f + BitVec.ofNat 64 v) } := floatsNow_noteFloats (floatsNow_real s)
  rw [hnow]
  exact sget_sset_same _ _ _ _

/-- A float that the host sets takes the value and what the same core cycle has added. -/
theorem assignFloat_host_float (s : State) (f : Nat) (v : BitVec 64) :
    (s.assignFloat true f v).float f = v + sget 0 s.floatsNow.adds f := State.setFloat_float_same s f _

theorem assignFloat_host_other (s : State) {f g : Nat} (v : BitVec 64) (h : g ≠ f) :
    (s.assignFloat true f v).float g = s.float g := State.setFloat_float_other s _ h

theorem addFloat_float_other (s : State) {f g : Nat} (v : Nat) (h : g ≠ f) : (s.addFloat f v).float g = s.float g :=
  State.setFloat_float_other s _ h

/-- Every WAIT on a float that is set sees its new value (R83). -/
theorem assignFloat_host_q (s : State) (f : Nat) (v : BitVec 64) (g : Nat) :
    (s.assignFloat true f v).q g = (s.q g).sees f ((s.assignFloat true f v).float f).toNat := by
  rw [assignFloat_host_float]
  exact State.setFloat_q s f g _

/-- Every WAIT on a float that is added to sees its new value (R83). -/
theorem addFloat_q (s : State) (f v g : Nat) :
    (s.addFloat f v).q g = (s.q g).sees f ((s.addFloat f v).float f).toNat := by
  rw [addFloat_float, if_pos rfl]
  exact State.setFloat_q s f g _

/-- The value of a host write stands over that of a SET of the same core cycle (R81). -/
theorem assignFloat_after_host (s : State) (f : Nat) (v w : BitVec 64) :
    (s.assignFloat true f v).assignFloat false f w = s.assignFloat true f v := by
  have hset : (s.assignFloat true f v).floatsNow.hostSet.contains f = true := by
    have hnow : (s.assignFloat true f v).floatsNow = { s.floatsNow with hostSet := f :: s.floatsNow.hostSet } :=
      floatsNow_noteFloats (floatsNow_real s)
    rw [hnow]
    exact List.contains_iff_mem.2 List.mem_cons_self
  exact if_pos (by simpa using hset)

/-- A write in the read-and-set window: the float set, and nothing else but the WAITs on it. -/
theorem exec_floatSetWrite_open {s : State} (hopen : s.barsOpen = true) (f : Fin 131072) (v : BitVec 64) :
    ∃ t, exec (.floatSetWrite f 0 8 v) s = .next t ∧ t.float f = v + sget 0 s.floatsNow.adds f
      ∧ (∀ w, t.assignFloat false f w = t) ∧ (∀ g : Nat, g ≠ f → t.float g = s.float g)
      ∧ (∀ g, t.q g = (s.q g).sees f (t.float f).toNat) ∧ t = s.withFloatsOf t :=
  ⟨s.assignFloat true f v, (exec_floatWrites_open hopen f v).1, assignFloat_host_float s f v, assignFloat_after_host s f v,
    fun _ hg => assignFloat_host_other s v hg, assignFloat_host_q s f v, rfl⟩

/-- A write in the add alias: the float added to, now and for a later write of the same core cycle, and nothing else but the WAITs
on it. -/
theorem exec_floatAddWrite_open {s : State} (hopen : s.barsOpen = true) (f : Fin 131072) (v : BitVec 64) :
    ∃ t, exec (.floatAddWrite f 0 8 v) s = .next t ∧ t.float f = s.float f + v
      ∧ (∀ w, ∃ u, exec (.floatSetWrite f 0 8 w) t = .next u ∧ u.float f = w + (sget 0 s.floatsNow.adds f + v))
      ∧ (∀ g : Nat, g ≠ f → t.float g = s.float g)
      ∧ (∀ g, t.q g = (s.q g).sees f (t.float f).toNat) ∧ t = s.withFloatsOf t := by
  refine ⟨s.addFloat f v.toNat, (exec_floatWrites_open hopen f v).2, ?_, fun w => ?_, fun _ hg => addFloat_float_other s _ hg,
    addFloat_q s f _, addFloat_eq_withFloatsOf s _ _⟩
  · rw [addFloat_float, if_pos rfl, BitVec.ofNat_toNat, BitVec.setWidth_eq]
  · refine ⟨_, (exec_floatWrites_open (s := s.addFloat f v.toNat) hopen f w).1, ?_⟩
    rw [assignFloat_host_float, adds_addFloat, BitVec.ofNat_toNat, BitVec.setWidth_eq]

/-- An aligned read of 8 bytes in the float window answers the float. -/
theorem bar2Value_float (s : State) (f : Fin 131072) : s.bar2Value (0x100000 + 8 * f) 8 = (s.float f).toNat := by
  have hf := f.isLt
  have hdoor : ¬0x100000 + 8 * (f : Nat) < 0x50000 := by omega
  have hwin : 0x100000 ≤ 0x100000 + 8 * (f : Nat) ∧ 0x100000 + 8 * (f : Nat) < 0x200000 := by omega
  have hidx : (0x100000 + 8 * (f : Nat) - 0x100000) / 8 = f := by omega
  have halign : (0x100000 + 8 * (f : Nat)) % 8 = 0 := by omega
  simp only [State.bar2Value, if_neg hdoor, hwin, halign, hidx, decide_true, Bool.and_self, if_true]

/-- Settles O8: a doorbell write is discarded, refused or set; a float write is one `assignFloat` or `addFloat` of the core cycle. -/
theorem doorbellsAndFloatWindows : Obligations.DoorbellsAndFloatWindows := by
  unfold Obligations.DoorbellsAndFloatWindows
  refine ⟨fun s0 q value stores hv => ⟨fun hopen hin => ?_, fun hopen hout => ?_, fun offset size h => ?_⟩,
    fun s q value hopen hv => ⟨fun hin => ?_, fun hout => ?_, fun offset size h => ?_⟩,
    fun s f v hopen => ⟨exec_floatSetWrite_open hopen f v, exec_floatAddWrite_open hopen f v, bar2Value_float s f,
      fun offset size h => exec_floatWrites_discarded h f v s⟩⟩
  · rw [exec_sqTailWrite_open hopen q hv, setSqTail_inside hin]
  · rw [exec_sqTailWrite_open hopen q hv, setSqTail_outside hout]
  · exact exec_sqTailWrite_discarded h q value
  · rw [exec_cqHeadWrite_open hopen q hv, setCqHead_inside hin]
  · rw [exec_cqHeadWrite_open hopen q hv, setCqHead_outside hout]
  · exact exec_cqHeadWrite_discarded h q value s

end Sys2Proof.Machine
end

section
/-! Common commands: which command a queue runs, what passing time leaves of it, how NOP, WAIT, SET, ARM and TIMESTAMP end (R32, R74,
R81, R83), and what rewritten windows make of a command's effect (R86, R91). -/

namespace Sys2Proof.Machine

theorem exec_nop (q : Fin 80) (s : State) : exec (.nop q) s = whenLive s fun s => s.doNop q := rfl

theorem exec_set (q : Fin 80) (s : State) : exec (.set q) s = whenLive s fun s => s.doSet q := rfl

theorem exec_arm (q : Fin 80) (s : State) : exec (.arm q) s = whenLive s fun s => s.doArm q := rfl

theorem exec_wait (q : Fin 80) (s : State) : exec (.wait q) s = whenLive s fun s => s.doWait q := rfl

theorem exec_waitSatisfied (q : Fin 80) (s : State) :
    exec (.waitSatisfied q) s = whenLive s fun s => if (s.q q).cur.any (·.waiting) then s.doWait q else s := rfl

theorem exec_timestamp (q : Fin 80) (s : State) : exec (.timestamp q) s = whenLive s fun s => s.doTimestamp q := rfl

/-! ## The running command and the passing of time (R32, R74) -/

/-- A queue runs `c` with opcode `op`: it has a run, and `c` is the first of its commands. -/
theorem running_iff {s : State} {q op : Nat} {c : List Byte} {r : Run} :
    s.running q op = some (c, r) ↔ (s.q q).cur = some r ∧ (∃ rest, (s.q q).cmds = .cmd c :: rest) ∧ cmdOp c = op := by
  unfold State.running
  constructor
  · intro h
    split at h
    · rename_i r' c' rest hcur hcmds
      split at h
      · rename_i hop
        obtain ⟨rfl, rfl⟩ : c' = c ∧ r' = r := by simpa using h
        exact ⟨hcur, ⟨rest, hcmds⟩, hop⟩
      · exact absurd h (by simp)
    · exact absurd h (by simp)
  · rintro ⟨hcur, ⟨rest, hcmds⟩, hop⟩
    simp [hcur, hcmds, hop]

/-- A listed entry of a table, passed through a function of its key. -/
theorem sget_mapKeyed {α : Type} (d : α) (f : Nat → α → α) {m : SMap α} {k : Nat} (h : sget d m k ≠ d) :
    sget d (m.map fun e => (e.1, f e.1 e.2)) k = f k (sget d m k) := by
  induction m with
  | nil => exact absurd rfl h
  | cons e m ih =>
    obtain ⟨j, v⟩ := e
    by_cases hj : j = k
    · simp [sget, hj]
    · simp only [sget, if_neg hj] at h
      simp only [List.map_cons, sget, if_neg hj, ih h]

/-- Passing time charges a run and leaves it its start. -/
theorem accrueQ_cur (s : State) (n q : Nat) {Q : Queue} {r : Run} (h : Q.cur = some r) :
    ∃ r', (s.accrueQ n q Q).cur = some r' ∧ r'.startTime = r.startTime ∧ r'.startStroke = r.startStroke := by
  simp only [State.accrueQ, h]
  split
  · exact ⟨r, h, rfl, rfl⟩
  · exact ⟨_, rfl, rfl, rfl⟩

theorem elapse_queues (s : State) (n : Nat) :
    (s.elapse n).host.queues = s.host.queues.map fun e => (e.1, s.accrueQ n e.1 e.2) := rfl

/-- A running command keeps running while time passes, its start kept. -/
theorem elapse_cur (s : State) (n : Nat) {q : Nat} {r : Run} (h : (s.q q).cur = some r) :
    ∃ r', ((s.elapse n).q q).cur = some r' ∧ r'.startTime = r.startTime ∧ r'.startStroke = r.startStroke := by
  have hlisted : sget {} s.host.queues q ≠ {} := fun hd => by
    have hnone : (s.q q).cur = none := congrArg Queue.cur hd
    simp [hnone] at h
  have hq : (s.elapse n).q q = s.accrueQ n q (s.q q) := by
    rw [State.q, elapse_queues]
    exact sget_mapKeyed {} (s.accrueQ n) hlisted
  rw [hq]
  exact accrueQ_cur s n q h

/-- `s` with the waiting of queue `q`'s run over. -/
def State.endWaiting (s : State) (q : Nat) : State :=
  s.modQ q fun Q => { Q with cur := Q.cur.map fun r => { r with waiting := false } }

/-- What can complete still can once its waiting is over. -/
theorem endWaiting_canComplete {s : State} {q op n : Nat} {c : List Byte} {r : Run} (h : CanComplete s q op n c r) :
    CanComplete (s.endWaiting q) q op n c { r with waiting := false } where
  live := h.live
  run := by
    obtain ⟨hcur, ⟨rest, hcmds⟩, hop⟩ := running_iff.1 h.run
    exact running_iff.2 ⟨by simp [State.endWaiting, hcur], ⟨rest, by simp [State.endWaiting, hcmds]⟩, hop⟩
  link := h.link
  time := h.time

theorem endWaiting_cyclesLeft (s : State) (q n : Nat) (r : Run) :
    (s.endWaiting q).cyclesLeft q n { r with waiting := false } = s.cyclesLeft q n r := by
  have hop : ((s.endWaiting q).q q).op = (s.q q).op := by simp [State.endWaiting, Queue.op]
  have hrate : (s.endWaiting q).rate8 = s.rate8 := rfl
  unfold State.cyclesLeft arrayClocked
  rw [hop, hrate]

/-! ## NOP, SET, ARM and WAIT (R32, R74, R81, R83) -/

/-- A WAIT that is over completes, whether it waited or not. -/
theorem doWait_over {s : State} {q : Nat} {c : List Byte} {r : Run} (h : CanComplete s q 1 (s.cyclesLeft q 1 r) c r)
    (hover : s.waitOver c r = true) :
    (.next (s.doWait q) : Res)
      = (s.endWaiting q).finish q (s.cyclesLeft q 1 r) c { r with waiting := false } fun _ t => (t, Status.ok) := by
  have hwait : s.doWait q = (s.endWaiting q).runOp q 1 oneCycle fun _ t => (t, Status.ok) := by
    simp only [State.doWait, h.run, hover, Bool.not_true, Bool.false_eq_true, if_false, State.endWaiting]
  have hcan := endWaiting_canComplete h
  rw [← endWaiting_cyclesLeft] at hcan ⊢
  rw [hwait]
  exact runOp_timed rfl hcan _

/-- A WAIT is over when its float holds its value now, or when an update has satisfied it since. -/
theorem waitOver_iff {s : State} {c : List Byte} {r : Run} :
    s.waitOver c r = true ↔ r.waiting = false ∨ r.met = true ∨ waitValue c ≤ (s.float (waitFloat c)).toNat := by
  simp [State.waitOver, or_assoc]

theorem exec_wait_over {s : State} {q : Fin 80} {c : List Byte} {r : Run} (h : CanComplete s q 1 (s.cyclesLeft q 1 r) c r)
    (hover : s.waitOver c r = true) :
    exec (.wait q) s
      = (s.endWaiting q).finish q (s.cyclesLeft q 1 r) c { r with waiting := false } fun _ t => (t, Status.ok) := by
  rw [exec_wait, whenLive_true h.live]
  exact doWait_over h hover

/-- WAIT_SATISFIED completes a WAIT that waited. -/
theorem exec_waitSatisfied_over {s : State} {q : Fin 80} {c : List Byte} {r : Run} (h : CanComplete s q 1 (s.cyclesLeft q 1 r) c r)
    (hover : s.waitOver c r = true) (hwaiting : r.waiting = true) :
    exec (.waitSatisfied q) s
      = (s.endWaiting q).finish q (s.cyclesLeft q 1 r) c { r with waiting := false } fun _ t => (t, Status.ok) := by
  obtain ⟨hcur, -, -⟩ := running_iff.1 h.run
  rw [exec_waitSatisfied, whenLive_true h.live, if_pos (by simp [hcur, hwaiting])]
  exact doWait_over h hover

/-- NOP, SET and ARM complete after their one cycle with their effect. -/
theorem exec_oneCycle {s : State} {q : Fin 80} {c : List Byte} {r : Run} {i : Instr} {op : Nat} {eff : List Byte → State → State}
    (hexec : exec i s = whenLive s fun s => s.runOp q op oneCycle fun c t => (eff c t, Status.ok))
    (h : CanComplete s q op (s.cyclesLeft q 1 r) c r) :
    exec i s = s.finish q (s.cyclesLeft q 1 r) c r fun c t => (eff c t, Status.ok) := by
  rw [hexec, whenLive_true h.live]
  exact runOp_timed rfl h _

/-- A command's effect is that of its own words. -/
theorem finish_ownWords (s : State) (q n : Nat) (c : List Byte) (r : Run) (eff : List Byte → State → State × Nat) :
    s.finish q n c r eff = s.finish q n c r fun _ => eff c := rfl

/-! ## TIMESTAMP (R74, R86) -/

/-- TIMESTAMP's effect: the count and stroke of its start cycle written to its host address, where the windows grant it. -/
def stampEffect (q : Nat) (c : List Byte) (t : State) : State × Nat :=
  match (t.q q).cur, t.hostGrant true (fieldAt c 16 8) 16 with
  | _, some t' => (t', Status.dmaFault)
  | some r, none => (t.hostWrite (fieldAt c 16 8) (natBytes 8 r.startTime ++ natBytes 8 r.startStroke), Status.ok)
  | none, none => (t, Status.ok)

theorem doTimestamp_eq (s : State) (q : Nat) : s.doTimestamp q = s.runOp q 4 openTime (stampEffect q) := rfl

theorem hostGrant_none {s : State} {write : Bool} {addr len : Nat}
    (h : s.host.granted = true ∨ s.dmaRefused write addr len = none) : s.hostGrant write addr len = none := by
  rcases h with h | h <;> simp [State.hostGrant, h]

theorem hostGrant_some {s : State} {write : Bool} {addr len a : Nat} (hungranted : s.host.granted = false)
    (h : s.dmaRefused write addr len = some a) : s.hostGrant write addr len = some (s.trip 4 0 a) := by
  simp [State.hostGrant, hungranted, h]

/-- A granted TIMESTAMP writes what its run noted at its start. -/
theorem stampEffect_granted {t : State} {q : Nat} {c : List Byte} {r r' : Run} (hcur : (t.q q).cur = some r')
    (htime : r'.startTime = r.startTime) (hstroke : r'.startStroke = r.startStroke)
    (hgrant : t.hostGrant true (fieldAt c 16 8) 16 = none) :
    stampEffect q c t
      = (t.hostWrite (fieldAt c 16 8) (natBytes 8 r.startTime ++ natBytes 8 r.startStroke), Status.ok) := by
  simp only [stampEffect, hcur, hgrant, htime, hstroke]

theorem stampEffect_refused {t t' : State} {q : Nat} {c : List Byte} (hgrant : t.hostGrant true (fieldAt c 16 8) 16 = some t') :
    stampEffect q c t = (t', Status.dmaFault) := by
  simp only [stampEffect, hgrant]

theorem exec_timestamp_runs {s : State} {q : Fin 80} {c : List Byte} {r : Run} (h : CanComplete s q 4 (leastCycles r) c r) :
    exec (.timestamp q) s = s.finish q (leastCycles r) c r (stampEffect q) := by
  rw [exec_timestamp, whenLive_true h.live, doTimestamp_eq]
  exact runOp_openTime h _

/-- A step that completes a command, by what its effect answers. -/
theorem finish_of_effect {s t : State} {q n st : Nat} {c : List Byte} {r : Run} {eff : List Byte → State → State × Nat}
    (h : (s.elapse n).effectOf q c r eff = (t, st)) :
    s.finish q n c r eff = .next (t.complete q st ((s.elapse n).chargedTo q)) := by
  simp only [State.finish, h]

/-! ## Windows rewritten under a running command (R86, R91) -/

theorem effectOf_refused {t : State} {q : Nat} {c : List Byte} {r : Run} {a : Nat} (hchecked : r.checked = true)
    (h : t.lowestRefused (rangesBeyond r.issued (hostRanges q c)) = some a) (eff : List Byte → State → State × Nat) :
    (t.effectOf q c r eff).2 = Status.dmaFault := by
  simp [State.effectOf, hchecked, h]

/-- Requests that the rewritten windows grant, and those issued before, are all granted. -/
theorem effectOf_granted {t : State} {q : Nat} {c : List Byte} {r : Run} (hchecked : r.checked = true)
    (h : t.lowestRefused (rangesBeyond r.issued (hostRanges q c)) = none) (eff : List Byte → State → State × Nat) :
    t.effectOf q c r eff = ((eff c (t.setGranted true)).1.setGranted false, (eff c (t.setGranted true)).2) := by
  simp [State.effectOf, hchecked, h]

/-- A TIMESTAMP that no rewritten window concerns is checked as it completes. -/
theorem exec_timestamp_unchecked {s : State} {q : Fin 80} {c : List Byte} {r : Run} (h : CanComplete s q 4 (leastCycles r) c r)
    (hchecked : r.checked = false) (hungranted : s.host.granted = false) :
    ((s.elapse (leastCycles r)).dmaRefused true (fieldAt c 16 8) 16 = none →
      exec (.timestamp q) s = .next (((s.elapse (leastCycles r)).hostWrite (fieldAt c 16 8)
        (natBytes 8 r.startTime ++ natBytes 8 r.startStroke)).complete q Status.ok ((s.elapse (leastCycles r)).chargedTo q)))
    ∧ (∀ a, (s.elapse (leastCycles r)).dmaRefused true (fieldAt c 16 8) 16 = some a →
      exec (.timestamp q) s = .next (((s.elapse (leastCycles r)).trip 4 0 a).complete q Status.dmaFault
        ((s.elapse (leastCycles r)).chargedTo q))) := by
  obtain ⟨hcur, -, -⟩ := running_iff.1 h.run
  obtain ⟨r', hcur', htime, hstroke⟩ := elapse_cur s (leastCycles r) hcur
  have hplain := effectOf_unchecked (s.elapse (leastCycles r)) q c r (stampEffect q) hchecked
  rw [exec_timestamp_runs h]
  refine ⟨fun hgrant => finish_of_effect (hplain.trans ?_), fun a hrefuse => finish_of_effect (hplain.trans ?_)⟩
  · exact stampEffect_granted hcur' htime hstroke (hostGrant_none (.inr hgrant))
  · exact stampEffect_refused (hostGrant_some hungranted hrefuse)

/-- A TIMESTAMP whose requests the rewritten windows grant, or that were issued before, is not checked again. -/
theorem exec_timestamp_granted {s : State} {q : Fin 80} {c : List Byte} {r : Run} (h : CanComplete s q 4 (leastCycles r) c r)
    (hchecked : r.checked = true)
    (hgrant : (s.elapse (leastCycles r)).lowestRefused (rangesBeyond r.issued (hostRanges q c)) = none) :
    exec (.timestamp q) s = .next (((((s.elapse (leastCycles r)).setGranted true).hostWrite (fieldAt c 16 8)
      (natBytes 8 r.startTime ++ natBytes 8 r.startStroke)).setGranted false).complete q Status.ok
        ((s.elapse (leastCycles r)).chargedTo q)) := by
  obtain ⟨hcur, -, -⟩ := running_iff.1 h.run
  obtain ⟨r', hcur', htime, hstroke⟩ := elapse_cur s (leastCycles r) hcur
  have heff := stampEffect_granted (t := (s.elapse (leastCycles r)).setGranted true) (q := q) (c := c) hcur' htime hstroke
    (hostGrant_none (.inl rfl))
  rw [exec_timestamp_runs h]
  refine finish_of_effect ((effectOf_granted hchecked hgrant _).trans ?_)
  rw [heff]

/-- Settles O10: each common command is a `runOp`, whose completion is `State.finish` with the command's effect. -/
theorem commonCommandsComplete : Obligations.CommonCommandsComplete := by
  unfold Obligations.CommonCommandsComplete
  refine ⟨fun s q c r => ⟨fun h => ?_, fun h => ?_, fun h => ?_, fun h hstarted => ?_, fun h hmet hwaiting => ?_⟩,
    fun s q c r h hchecked hungranted => exec_timestamp_unchecked h hchecked hungranted,
    fun s q c r h hchecked hgrant => ⟨_, exec_timestamp_granted h hchecked hgrant, rfl⟩,
    fun t q c r eff => ⟨effectOf_unchecked t q c r eff, fun a hchecked hrefuse => effectOf_refused hchecked hrefuse eff,
      fun hchecked hgrant => effectOf_granted hchecked hgrant eff⟩⟩
  · exact exec_oneCycle (exec_nop q s) h
  · exact (exec_oneCycle (exec_set q s) h).trans (finish_ownWords s q _ c r _)
  · exact (exec_oneCycle (exec_arm q s) h).trans (finish_ownWords s q _ c r _)
  · exact exec_wait_over h (waitOver_iff.2 (.inl hstarted))
  · have hover : s.waitOver c r = true := waitOver_iff.2 (.inr hmet.symm)
    exact ⟨exec_waitSatisfied_over h hover hwaiting, exec_wait_over h hover⟩

end Sys2Proof.Machine
end

section
/-! Lists and their commands: what the fetch of a descriptor leaves, what a record adds to its queue, and how a queue's head is taken
(R28, R32, R66-R71, R74, R86). -/

namespace Sys2Proof.Machine

theorem exec_descriptorFetch (q : Fin 80) (stores : List (Nat × List Byte)) (s : State) :
    exec (.descriptorFetch q stores) s = whenLive (s.hostStores stores) fun s => s.fetchDesc q := rfl

theorem qRuns_live {s : State} {q : Nat} (h : s.qRuns q = true) : s.live = true := by
  simp only [State.qRuns, Bool.and_eq_true] at h
  obtain ⟨⟨⟨⟨⟨hlive, -⟩, -⟩, -⟩, -⟩, -⟩ := h
  exact hlive

theorem headReady_live {s : State} {q : Nat} (h : s.headReady q = true) : s.live = true := by
  simp only [State.headReady, Bool.and_eq_true] at h
  obtain ⟨⟨⟨⟨⟨⟨hruns, -⟩, -⟩, -⟩, -⟩, -⟩, -⟩ := h
  exact qRuns_live hruns

/-! ## Records (R72, R78) -/

/-- The record that `State.addRec` puts to a queue's waiting records. -/
def State.newRec (s : State) (q status first count cycles : Nat) (notify last : Bool) : Rec :=
  { slot := (s.q q).slot, status := status, first := first, count := count, cycles := min cycles 0xFFFFFFFF
    stroke := s.nowReg % 2 ^ 32, last := last, irq := notify || status != 0 || (last && (s.q q).notify), at_ := s.clk.cycle }

/-- A record joins its queue's waiting records, and changes nothing else of the queue. -/
theorem addRec_q (s : State) (q status first count cycles : Nat) (notify last : Bool) :
    (s.addRec q status first count cycles notify last).q q
      = { s.q q with recs := (s.q q).recs ++ [s.newRec q status first count cycles notify last] } := by
  have hput (t : State) (f g : Fld) (v w : Nat) : ((t.put f v).put g w).q q = t.q q := rfl
  unfold State.addRec
  split
  · exact State.modQ_q_same s q _
  · rw [hput]
    exact State.modQ_q_same s q _

/-- Of the registers a record touches its queue's HIF_QLAST alone. -/
theorem addRec_get (s : State) (q status first count cycles : Nat) (notify last : Bool) {f : Fld} (h : f.reg ≠ R.HIF_QLAST q) :
    (s.addRec q status first count cycles notify last).get f = s.get f := by
  unfold State.addRec
  split
  · rfl
  · rw [get_put_otherReg _ _ _ _ h, get_put_otherReg _ _ _ _ h]
    rfl

/-! ## Descriptors (R66, R68, R69) -/

/-- The state in which queue `q` has taken the descriptor `d` from the slot at SQ_HEAD. -/
def State.takeDescriptor (s : State) (q : Nat) (d : List Byte) : State :=
  (s.put (F.HIF_QSQHEAD_INDEX q) ((s.get (F.HIF_QSQHEAD_INDEX q) + 1) % s.sqSize q)).modQ q fun Q =>
    { Q with slot := s.get (F.HIF_QSQHEAD_INDEX q), notify := bit (fieldAt d 12 4) 0, idx := 0 }

theorem takeDescriptor_head (s : State) (q : Nat) (d : List Byte) : (s.takeDescriptor q d).get (F.HIF_QSQHEAD_INDEX q)
    = (s.get (F.HIF_QSQHEAD_INDEX q) + 1) % s.sqSize q % 2 ^ (F.HIF_QSQHEAD_INDEX q).w :=
  get_put_same s (F.HIF_QSQHEAD_INDEX q) _ (by decide : 0 + 16 ≤ 32)

theorem takeDescriptor_q (s : State) (q : Nat) (d : List Byte) : (s.takeDescriptor q d).q q
    = { s.q q with slot := s.get (F.HIF_QSQHEAD_INDEX q), notify := bit (fieldAt d 12 4) 0, idx := 0 } :=
  State.modQ_q_same _ q _

/-- The state in which queue `q` holds the list that a good descriptor `d` names. -/
def State.takeList (s : State) (q : Nat) (d : List Byte) : State :=
  (s.takeDescriptor q d).modQ q fun Q =>
    { Q with active := true, cmds := s.fetchList (fieldAt d 8 4 / 32) (fieldAt d 0 8) (fieldAt d 8 4) }

section
variable {s : State} {q : Nat} (hruns : s.qRuns q = true) (hlink : s.pcieUp = true) (hidle : (s.q q).active = false)
  (hpending : s.sqPending q ≠ 0) (hgrant : s.dmaRefused false (s.descAddr q) 64 = none)
include hruns hlink hidle hpending hgrant

/-- A good descriptor gives the queue its list. -/
theorem fetchDesc_good (hgood : descBad (s.hostRead (s.descAddr q) 64) = false) :
    s.fetchDesc q = s.takeList q (s.hostRead (s.descAddr q) 64) := by
  simp [State.fetchDesc, hruns, hlink, hidle, hpending, hgrant, hgood, State.takeList, State.takeDescriptor]

/-- A refused one gives it a BAD_DESCRIPTOR record (R69). -/
theorem fetchDesc_bad (hbad : descBad (s.hostRead (s.descAddr q) 64) = true) :
    s.fetchDesc q = (s.takeDescriptor q (s.hostRead (s.descAddr q) 64)).addRec q Status.badDescriptor 0 1 0 false true := by
  simp [State.fetchDesc, hruns, hlink, hidle, hpending, hgrant, hbad, State.takeDescriptor]

/-- A fetch moves SQ_HEAD on, whatever the descriptor holds (R66). -/
theorem fetchDesc_head : (s.fetchDesc q).get (F.HIF_QSQHEAD_INDEX q)
    = (s.get (F.HIF_QSQHEAD_INDEX q) + 1) % s.sqSize q % 2 ^ (F.HIF_QSQHEAD_INDEX q).w := by
  cases hd : descBad (s.hostRead (s.descAddr q) 64) with
  | false =>
    rw [fetchDesc_good hruns hlink hidle hpending hgrant hd]
    exact takeDescriptor_head s q (s.hostRead (s.descAddr q) 64)
  | true =>
    rw [fetchDesc_bad hruns hlink hidle hpending hgrant hd, addRec_get _ _ _ _ _ _ _ _ (by simp)]
    exact takeDescriptor_head s q _

end

/-! ## COMMAND_ADMIT (R28, R32, R71, R74, R86) -/

theorem exec_commandAdmit_ready {s : State} {q : Fin 80} (h : s.headReady q = true) :
    exec (.commandAdmit q) s = .next (s.takeHead q) := by
  rw [exec_commandAdmit, if_pos (headReady_live h)]

/-- The run of a command `c` that starts now: it notes the cycle, the count and the stroke of its start (R74). -/
def State.startRun (s : State) (c : List Byte) : Run :=
  { start := s.clk.cycle, startTime := s.clk.time, startStroke := s.nowReg
    waiting := cmdOp c == 1 && decide ((s.float (waitFloat c)).toNat < waitValue c) }

theorem startCommand_eq (s : State) (q : Nat) (c : List Byte) : s.startCommand q c
    = (if q / 16 = 4 ∧ cmdOp c = 0x61 then s.beginPrime (byteAt c 25) s.tilesNow else s).modQ q fun Q =>
        { Q with cur := some (s.startRun c) } := by
  simp [State.startCommand, State.startRun]

section
variable {s : State} {q : Nat} (hready : s.headReady q = true) (hfree : s.unitFree q = true)
include hready hfree

/-- A head command that no check refuses starts. -/
theorem takeHead_starts {c : List Byte} {rest : List Fetched} (hcmds : (s.q q).cmds = .cmd c :: rest)
    (hok : s.refusal q c = none) : s.takeHead q = (s.pastBoundary c).startCommand q c := by
  simp [State.takeHead, hready, hfree, hcmds, hok]

theorem takeHead_refused {c : List Byte} {rest : List Fetched} {st : Nat} (hcmds : (s.q q).cmds = .cmd c :: rest)
    (hrefused : s.refusal q c = some st) : s.takeHead q = s.complete q st 0 := by
  simp [State.takeHead, hready, hfree, hcmds, hrefused]

theorem takeHead_cut {c : List Byte} {rest : List Fetched} (hcmds : (s.q q).cmds = .cut c :: rest) :
    s.takeHead q = s.complete q Status.badCommand 0 := by
  simp [State.takeHead, hready, hfree, hcmds]

theorem takeHead_windows {a left : Nat} {head : List Byte} {rest : List Fetched} (hcmds : (s.q q).cmds = .refused a head left :: rest) :
    s.takeHead q = s.listRefused q a head left := by
  simp [State.takeHead, hready, hfree, hcmds]

end

/-- Settles O12, by the fetch of a good and of a bad descriptor, and by what the head of a list can be. -/
theorem listsAreFetchedAndStarted : Obligations.ListsAreFetchedAndStarted := by
  unfold Obligations.ListsAreFetchedAndStarted
  refine ⟨?_, fun s q hready hfree => ⟨fun c rest hcmds hok => ?_, fun c rest st hcmds hrefused => ?_, fun c rest hcmds => ?_,
    fun a head left rest hcmds => ?_⟩⟩
  · rintro s0 _ q stores rfl hruns hlink hidle hpending hgrant
    rw [exec_descriptorFetch, whenLive_true (qRuns_live hruns)]
    refine ⟨_, rfl, fetchDesc_head hruns hlink hidle hpending hgrant, fun hgood => ?_, fun hbad => ?_⟩
    · rw [fetchDesc_good hruns hlink hidle hpending hgrant hgood, State.takeList, State.modQ_q_same, takeDescriptor_q]
      exact ⟨rfl, rfl, rfl⟩
    · rw [fetchDesc_bad hruns hlink hidle hpending hgrant hbad, addRec_q, takeDescriptor_q]
      exact ⟨hidle, _, rfl, rfl, rfl, rfl, rfl⟩
  · rw [exec_commandAdmit_ready hready, takeHead_starts hready hfree hcmds hok]
    exact ⟨_, (s.pastBoundary c).startRun c, rfl, startCommand_eq _ q c, rfl, rfl, rfl, rfl⟩
  · rw [exec_commandAdmit_ready hready, takeHead_refused hready hfree hcmds hrefused]
  · rw [exec_commandAdmit_ready hready, takeHead_cut hready hfree hcmds]
  · rw [exec_commandAdmit_ready hready, takeHead_windows hready hfree hcmds]

end Sys2Proof.Machine
end

section
/-! Completion records and interrupts: what a fired vector changes, when a ring fires, and where a queue's oldest record goes (R65, R67,
R78, R84, R86, R88, R110). -/

namespace Sys2Proof.Machine

theorem exec_completionRecordWrite (q : Fin 80) (s : State) :
    exec (.completionRecordWrite q) s = whenLive s fun s => s.writeRec q := rfl

/-! ## A vector fires (R84) -/

/-- Firing a vector changes its pending bit, or sends its message. -/
theorem fire_cases (s : State) (v : Nat) : s.fire v = s ∨ s.fire v = s.setPending v true ∨ s.fire v = s.emit (.irq v) := by
  unfold State.fire
  split
  · exact .inl rfl
  · split
    · exact .inr (.inl rfl)
    · exact .inr (.inr rfl)

theorem fire_host (s : State) (v : Nat) : (s.fire v).host = s.host := by
  rcases fire_cases s v with h | h | h <;> rw [h] <;> rfl

theorem fire_q (s : State) (v q : Nat) : (s.fire v).q q = s.q q := by
  simp only [State.q, fire_host]

/-- Of the registers, firing a vector touches its word of the pending bit array alone. -/
theorem fire_get (s : State) (v : Nat) {f : Fld} (h : f.reg ≠ R.MSIX_PBA (v / 32)) : (s.fire v).get f = s.get f := by
  rcases fire_cases s v with hf | hf | hf <;> rw [hf]
  · exact get_put_otherReg s _ f _ h
  · rfl

/-- A vector that nothing masks sends its message. -/
theorem fire_unmasked {s : State} {v : Nat} (henable : s.host.config.msixEnable = true) (hlink : s.pcieUp = true)
    (hmask : s.masked v = false) : s.fire v = s.emit (.irq v) := by
  simp [State.fire, henable, hlink, hmask]

/-! ## Completion records (R67, R78, R84, R110) -/

/-- `Q` with the count of records with IRQ, and the cycle of the oldest, as given. -/
def Queue.withIrq (Q : Queue) (count since : Nat) : Queue := { Q with irqCount := count, irqSince := since }

/-- A record with IRQ is counted, and fires the queue's vector where enough of them wait. -/
theorem cqIrq_eq (s : State) (q : Nat) : s.cqIrq q =
    let since := if (s.q q).irqCount = 0 then s.clk.cycle else (s.q q).irqSince
    if s.on (F.HIF_QCTRL_IRQ_EN q) && max 1 (s.get (F.HIF_QIRQ_COUNT q)) ≤ (s.q q).irqCount + 1 then
      (s.modQ q (·.withIrq 0 since)).fire (s.get (F.HIF_QCTRL_VECTOR q))
    else s.modQ q fun Q => Q.withIrq (Q.irqCount + 1) since := rfl

/-- Counting a record with IRQ changes the count and the cycle of its queue, and may fire a vector. -/
theorem cqIrq_cases (s : State) (q : Nat) : ∃ (count : Queue → Nat) (since v : Nat), v < 256
    ∧ (s.cqIrq q = s.modQ q (fun Q => Q.withIrq (count Q) since)
      ∨ s.cqIrq q = (s.modQ q fun Q => Q.withIrq (count Q) since).fire v) := by
  have hv : s.get (F.HIF_QCTRL_VECTOR q) < 256 := bits_lt _ 16 8
  rw [cqIrq_eq]
  dsimp only
  split
  · exact ⟨fun _ => 0, _, _, hv, .inr rfl⟩
  · exact ⟨fun Q => Q.irqCount + 1, _, _, hv, .inl rfl⟩

theorem cqIrq_q (s : State) (q : Nat) : ∃ count since, (s.cqIrq q).q q = (s.q q).withIrq count since := by
  obtain ⟨count, since, v, -, h | h⟩ := cqIrq_cases s q <;> refine ⟨count (s.q q), since, ?_⟩
  · rw [h, State.modQ_q_same]
  · rw [h, fire_q, State.modQ_q_same]

theorem cqIrq_mem (s : State) (q : Nat) : (s.cqIrq q).host.mem = s.host.mem := by
  obtain ⟨count, since, v, -, h | h⟩ := cqIrq_cases s q
  · rw [h, State.modQ_host_mem]
  · rw [h, fire_host, State.modQ_host_mem]

/-- A register below the pending bit array keeps its fields. -/
theorem cqIrq_get (s : State) (q : Nat) {f : Fld} (h : f.reg < 0x31000) : (s.cqIrq q).get f = s.get f := by
  obtain ⟨count, since, v, hv, hc | hc⟩ := cqIrq_cases s q
  · rw [hc]
    rfl
  · rw [hc, fire_get _ _ (show f.reg ≠ 0x31000 + 4 * (v / 32) by omega)]
    rfl

/-- HALTED follows a stop alone (R80). -/
theorem haltCheck_notStopping {s : State} {q : Nat} (h : (s.q q).stopping = false) : s.haltCheck q = s := by
  simp [State.haltCheck, h]

/-- A record that has waited its cycle is taken (R110). -/
theorem writeRec_due {s : State} {q : Nat} {r : Rec} {rs : List Rec} (hrecs : (s.q q).recs = r :: rs)
    (hdue : r.at_ + 1 ≤ s.clk.cycle) : s.writeRec q = s.popRec q := by
  simp [State.writeRec, hrecs, hdue]

/-- The address of a queue's next completion slot. -/
def State.slotAddr (s : State) (q : Nat) : Nat := s.get64 (R.HIF_QCQBASE_LO q) + 16 * s.get (F.HIF_QCQTAIL_INDEX q)

/-- CQ_TAIL one on. -/
def State.nextTail (s : State) (q : Nat) : Nat := (s.get (F.HIF_QCQTAIL_INDEX q) + 1) % s.cqSize q

/-- The state in which the queue's record `r` lies in its completion slot, and the records `rs` go on waiting. -/
def State.storeRec (s : State) (q : Nat) (r : Rec) (rs : List Rec) : State :=
  ((s.hostPut (s.slotAddr q) (recBytes r (s.q q).phase)).put (F.HIF_QCQTAIL_INDEX q) (s.nextTail q)).modQ q fun Q =>
    { Q with recs := rs, phase := if s.nextTail q = 0 then !Q.phase else Q.phase }

theorem storeRec_q (s : State) (q : Nat) (r : Rec) (rs : List Rec) : (s.storeRec q r rs).q q
    = { s.q q with recs := rs, phase := if s.nextTail q = 0 then !(s.q q).phase else (s.q q).phase } :=
  State.modQ_q_same _ q _

theorem storeRec_tail (s : State) (q : Nat) (r : Rec) (rs : List Rec) :
    (s.storeRec q r rs).get (F.HIF_QCQTAIL_INDEX q) = s.nextTail q % 2 ^ (F.HIF_QCQTAIL_INDEX q).w :=
  get_put_same _ (F.HIF_QCQTAIL_INDEX q) _ (by decide : 0 + 16 ≤ 32)

/-- A granted record goes to its slot, and its IRQ bit to the queue's interrupt. -/
theorem popRec_granted {s : State} {q : Nat} {r : Rec} {rs : List Rec} (hlink : s.pcieUp = true) (hrecs : (s.q q).recs = r :: rs)
    (hfree : s.cqFree q ≠ 0) (hhalt : s.on (F.HIF_QSTATUS_DMA_HALT q) = false) (hgrant : s.dmaRefused true (s.slotAddr q) 16 = none) :
    s.popRec q = (if r.irq then (s.storeRec q r rs).cqIrq q else s.storeRec q r rs).haltCheck q := by
  unfold State.slotAddr at hgrant
  have hwrite (a : Nat) (bs : List Byte) : s.hostWrite a bs = s.hostPut a bs := if_pos hlink
  have hopen : ¬(s.cqFree q = 0 || s.on (F.HIF_QSTATUS_DMA_HALT q)) = true := by simp [hfree, hhalt]
  simp only [State.popRec, hrecs, if_neg hopen, hgrant, hwrite]
  rfl

/-- What a record leaves once it lies in its slot, whether it asks for an interrupt or not. -/
theorem popRec_leaves {s : State} {q : Nat} {r : Rec} {rs : List Rec} (hlink : s.pcieUp = true) (hrecs : (s.q q).recs = r :: rs)
    (hfree : s.cqFree q ≠ 0) (hhalt : s.on (F.HIF_QSTATUS_DMA_HALT q) = false) (hstop : (s.q q).stopping = false)
    (hq : q < 80) (hgrant : s.dmaRefused true (s.slotAddr q) 16 = none) :
    (s.popRec q).host.mem = Memory.write s.host.mem (s.slotAddr q) (recBytes r (s.q q).phase)
      ∧ (s.popRec q).get (F.HIF_QCQTAIL_INDEX q) = s.nextTail q % 2 ^ (F.HIF_QCQTAIL_INDEX q).w
      ∧ ((s.popRec q).q q).recs = rs ∧ (r.irq = false → (s.popRec q).out = s.out) := by
  have hstored : ((s.storeRec q r rs).q q).stopping = false := by rw [storeRec_q]; exact hstop
  rw [popRec_granted hlink hrecs hfree hhalt hgrant]
  cases hirq : r.irq with
  | false =>
    simp only [Bool.false_eq_true, if_false, haltCheck_notStopping hstored]
    exact ⟨rfl, storeRec_tail s q r rs, by rw [storeRec_q], fun _ => rfl⟩
  | true =>
    obtain ⟨count, since, hcq⟩ := cqIrq_q (s.storeRec q r rs) q
    have hkeeps : (((s.storeRec q r rs).cqIrq q).q q).stopping = false := by rw [hcq]; exact hstored
    simp only [if_true, haltCheck_notStopping hkeeps]
    refine ⟨?_, ?_, ?_, fun h => absurd h (by decide)⟩
    · rw [cqIrq_mem]
      rfl
    · rw [cqIrq_get _ _ (show 0x2001c + 0x40 * q < 0x31000 by omega)]
      exact storeRec_tail s q r rs
    · rw [hcq, storeRec_q]
      rfl

/-- Settles O14: the oldest record is due, granted and stored, and no stop waits for it. -/
theorem recordsAreWritten : Obligations.RecordsAreWritten := by
  unfold Obligations.RecordsAreWritten
  intro s q r rs hlive hlink hrecs hdue hfree hhalt hstop hgrant
  rw [exec_completionRecordWrite, whenLive_true hlive, writeRec_due hrecs hdue]
  exact ⟨_, rfl, popRec_leaves hlink hrecs hfree hhalt hstop q.isLt hgrant⟩

end Sys2Proof.Machine
end

section
/-! Queue control, the DMA window table and the event ring's controls: what a write of each sets (R80, R85-R87, R91). -/

namespace Sys2Proof.Machine

theorem exec_queueEnable (q : Fin 80) (s : State) :
    exec (.queueEnable q) s = whenWritable s (R.HIF_QCTRL q) fun s => s.enableQueue q := rfl

theorem exec_queueDisable (q : Fin 80) (s : State) :
    exec (.queueDisable q) s = whenWritable s (R.HIF_QCTRL q) fun s => s.disableQueue q := rfl

theorem exec_queueStop (q : Fin 80) (s : State) :
    exec (.queueStop q) s = whenWritable s (R.HIF_QCTRL q) fun s => s.setStop q := rfl

theorem exec_queueResume (q : Fin 80) (s : State) :
    exec (.queueResume q) s = whenWritable s (R.HIF_QCTRL q) fun s => s.clearStop q := rfl

theorem exec_queueReset (q : Fin 80) (s : State) :
    exec (.queueReset q) s = whenWritable s (R.HIF_QCTRL q) fun s => s.resetQueue q := rfl

theorem exec_dmaHaltClear (q : Fin 80) (s : State) :
    exec (.dmaHaltClear q) s = whenWritable s (R.HIF_QSTATUS q) fun s => s.putB (F.HIF_QSTATUS_DMA_HALT q) false := rfl

theorem exec_dmaWindowWrite (n : Fin 256) (part : Fin 4) (v : Word) (s : State) :
    exec (.dmaWindowWrite n part v) s = whenHost s (R.HIF_DMAW_0 n) fun s => s.rewriteWindow n part v.toNat := rfl

theorem exec_hifLock (s : State) : exec .hifLock s = whenHost s R.HIF_LOCK fun s => s.putB F.HIF_LOCK_LOCK true := rfl

theorem exec_evtRingEnable (s : State) : exec .evtRingEnable s = whenWritable s R.HIF_EVT_CTRL State.enableEvents := rfl

theorem exec_evtHeadWrite (v : Word) (s : State) :
    exec (.evtHeadWrite v) s = whenWritable s R.HIF_EVT_HEAD fun s => s.put F.HIF_EVT_HEAD_INDEX v.toNat := rfl

theorem exec_evtHaltClear (s : State) :
    exec .evtHaltClear s = whenWritable s R.GLB_STATUS fun s => s.putB F.GLB_STATUS_EVT_HALT false := rfl

/-! ## A queue's controls and status (R80)

ENABLE, STOP and HALTED of one queue, each after another is set. -/

theorem enable_set (s : State) (q : Nat) (b : Bool) : (s.putB (F.HIF_QCTRL_ENABLE q) b).on (F.HIF_QCTRL_ENABLE q) = b :=
  on_putB_same s _ b rfl (by decide : 0 + 1 ≤ 32)

theorem stop_set (s : State) (q : Nat) (b : Bool) : (s.putB (F.HIF_QCTRL_STOP q) b).on (F.HIF_QCTRL_STOP q) = b :=
  on_putB_same s _ b rfl (by decide : 1 + 1 ≤ 32)

theorem halted_set (s : State) (q : Nat) (b : Bool) : (s.putB (F.HIF_QSTATUS_HALTED q) b).on (F.HIF_QSTATUS_HALTED q) = b :=
  on_putB_same s _ b rfl (by decide : 1 + 1 ≤ 32)

/-- HALTED lies in another register than the controls. -/
theorem control_haltedSet (s : State) (q : Nat) (b : Bool) {f : Fld} (h : f.reg = R.HIF_QCTRL q) :
    (s.putB (F.HIF_QSTATUS_HALTED q) b).on f = s.on f := by
  have hreg : f.reg ≠ (F.HIF_QSTATUS_HALTED q).reg := by rw [h]; simp
  simp only [State.on, State.putB, get_put_otherReg s _ f _ hreg]

/-- A queue enabled with aligned bases, with no stop set or under way, runs. -/
theorem enableQueue_runs {s : State} {q : Nat} (hoff : s.on (F.HIF_QCTRL_ENABLE q) = false)
    (hsq : s.raw (R.HIF_QSQBASE_LO q) % 4096 = 0) (hcq : s.raw (R.HIF_QCQBASE_LO q) % 4096 = 0)
    (hstopping : (s.q q).stopping = false) (hstop : s.on (F.HIF_QCTRL_STOP q) = false) :
    s.enableQueue q = (s.putB (F.HIF_QCTRL_ENABLE q) true).putB (F.HIF_QSTATUS_HALTED q) false := by
  simp [State.enableQueue, hoff, hsq, hcq, hstopping, hstop]

/-- One with a misaligned base is refused. -/
theorem enableQueue_misaligned {s : State} {q : Nat} (hoff : s.on (F.HIF_QCTRL_ENABLE q) = false)
    (hbase : s.raw (R.HIF_QSQBASE_LO q) % 4096 ≠ 0 ∨ s.raw (R.HIF_QCQBASE_LO q) % 4096 ≠ 0) :
    s.enableQueue q = (s.putB (F.HIF_QSTATUS_CONFIG_ERR q) true).ringError q 2 := by
  have hbad : (s.raw (R.HIF_QSQBASE_LO q) % 4096 != 0 || s.raw (R.HIF_QCQBASE_LO q) % 4096 != 0) = true := by simpa using hbase
  simp only [State.enableQueue, hoff, hbad, Bool.false_eq_true, if_false, if_true]

theorem disableQueue_busy {s : State} {q : Nat} (hon : s.on (F.HIF_QCTRL_ENABLE q) = true)
    (hbusy : (s.q q).active = true ∨ (s.q q).recs ≠ []) :
    s.disableQueue q = (s.putB (F.HIF_QCTRL_ENABLE q) false).stopQueue q := by
  have hwork : ((s.q q).active || !(s.q q).recs.isEmpty) = true := by simpa using hbusy
  simp only [State.disableQueue, hon, hwork, Bool.not_true, Bool.false_eq_true, if_false, if_true]

theorem disableQueue_idle {s : State} {q : Nat} (hon : s.on (F.HIF_QCTRL_ENABLE q) = true) (hlist : (s.q q).active = false)
    (hrecs : (s.q q).recs = []) : s.disableQueue q = s.putB (F.HIF_QCTRL_ENABLE q) false := by
  simp [State.disableQueue, hon, hlist, hrecs]

theorem setStop_starts {s : State} {q : Nat} (h : s.on (F.HIF_QCTRL_STOP q) = false) :
    s.setStop q = (s.putB (F.HIF_QCTRL_STOP q) true).stopQueue q := by
  simp [State.setStop, h]

/-- A stop with nothing in hand is over at once: the queue HALTED, no list held. -/
theorem stopQueue_idle {s : State} {q : Nat} (hcur : (s.q q).cur = none) (hcmds : (s.q q).cmds = []) (hrecs : (s.q q).recs = []) :
    ∃ u : State, s.stopQueue q = u.putB (F.HIF_QSTATUS_HALTED q) true ∧ u.regs = s.regs ∧ (u.q q).stopping = false
      ∧ (u.q q).active = false := by
  refine ⟨((s.modQ q fun Q => { Q with stopping := true, rearmed := false }).endList q).modQ q fun Q =>
    { Q with stopping := false, rearmed := false }, ?_, rfl, ?_, ?_⟩
  · simp [State.stopQueue, hcur, State.restOfList, hcmds, State.haltCheck, State.endList, hrecs]
  · rw [State.modQ_q_same]
  · rw [State.modQ_q_same, State.endList, State.modQ_q_same]

/-- STOP set with nothing in hand: the queue is HALTED at once. -/
theorem setStop_idle {s : State} {q : Nat} (hstop : s.on (F.HIF_QCTRL_STOP q) = false) (hcur : (s.q q).cur = none)
    (hcmds : (s.q q).cmds = []) (hrecs : (s.q q).recs = []) :
    (s.setStop q).on (F.HIF_QCTRL_STOP q) = true ∧ (s.setStop q).on (F.HIF_QSTATUS_HALTED q) = true
      ∧ ((s.setStop q).q q).stopping = false ∧ ((s.setStop q).q q).active = false := by
  obtain ⟨u, heq, hregs, hstopping, hlist⟩ := stopQueue_idle (s := s.putB (F.HIF_QCTRL_STOP q) true) hcur hcmds hrecs
  rw [setStop_starts hstop, heq]
  refine ⟨?_, halted_set u q true, hstopping, hlist⟩
  rw [control_haltedSet u q true rfl, on_congr hregs]
  exact stop_set s q true

section
variable {s : State} {q : Nat} (hstop : s.on (F.HIF_QCTRL_STOP q) = true)
include hstop

/-- STOP cleared on an enabled queue: it goes on. -/
theorem clearStop_resumes (hon : s.on (F.HIF_QCTRL_ENABLE q) = true) (hstopping : (s.q q).stopping = false) :
    s.clearStop q = (s.putB (F.HIF_QCTRL_STOP q) false).putB (F.HIF_QSTATUS_HALTED q) false := by
  simp [State.clearStop, hstop, hon, hstopping]

/-- STOP cleared while the stop is under way: the queue goes on after it (log 32). -/
theorem clearStop_rearms (hon : s.on (F.HIF_QCTRL_ENABLE q) = true) (hstopping : (s.q q).stopping = true) :
    s.clearStop q = (s.putB (F.HIF_QCTRL_STOP q) false).modQ q fun Q => { Q with rearmed := true } := by
  simp [State.clearStop, hstop, hon, hstopping]

theorem clearStop_disabled (hoff : s.on (F.HIF_QCTRL_ENABLE q) = false) : s.clearStop q = s.putB (F.HIF_QCTRL_STOP q) false := by
  simp [State.clearStop, hstop, hoff]

end

/-- A queue's indices and phase at their start. -/
def State.ringsReset (s : State) (q : Nat) : State :=
  ((s.put (F.HIF_QSQHEAD_INDEX q) 0).put (F.HIF_QCQTAIL_INDEX q) 0).modQ q fun Q => { Q with phase := true }

theorem resetQueue_taken {s : State} {q : Nat} (h : s.on (F.HIF_QSTATUS_HALTED q) = true
    ∨ (s.on (F.HIF_QCTRL_ENABLE q) = false ∧ (s.q q).recs = [] ∧ (s.q q).stopping = false)) : s.resetQueue q = s.ringsReset q := by
  refine if_pos ?_
  rcases h with h | ⟨hoff, hrecs, hstopping⟩
  · simp [h]
  · simp [hoff, hrecs, hstopping]

theorem ringsReset_head (s : State) (q : Nat) : (s.ringsReset q).get (F.HIF_QSQHEAD_INDEX q) = 0 := by
  have hreg : (F.HIF_QSQHEAD_INDEX q).reg ≠ (F.HIF_QCQTAIL_INDEX q).reg := by simp
  rw [State.ringsReset, get_congr (State.modQ_regs _ q _), get_put_otherReg _ _ _ 0 hreg,
    get_put_same s _ 0 (by decide : 0 + 16 ≤ 32), Nat.zero_mod]

theorem ringsReset_tail (s : State) (q : Nat) : (s.ringsReset q).get (F.HIF_QCQTAIL_INDEX q) = 0 := by
  rw [State.ringsReset, get_congr (State.modQ_regs _ q _), get_put_same _ _ 0 (by decide : 0 + 16 ≤ 32), Nat.zero_mod]

theorem ringsReset_q (s : State) (q : Nat) : (s.ringsReset q).q q = { s.q q with phase := true } := State.modQ_q_same _ q _

/-! ## The window table (R85, R91) -/

/-- A queue that runs nothing issues nothing. -/
theorem issueSome_idle {s : State} {q : Nat} (h : (s.q q).cur = none) : s.issueSome q = s := by
  simp [State.issueSome, h]

theorem foldl_issueSome_idle {s : State} (h : ∀ q, (s.q q).cur = none) (qs : List Nat) : qs.foldl State.issueSome s = s := by
  induction qs with
  | nil => rfl
  | cons q qs ih => rw [List.foldl_cons, issueSome_idle (h q), ih]

theorem rewriteWindow_locked {s : State} (h : s.on F.HIF_LOCK_LOCK = true) (n part v : Nat) : s.rewriteWindow n part v = s := by
  simp [State.rewriteWindow, h]

theorem rewriteWindow_unlocked {s : State} (h : s.on F.HIF_LOCK_LOCK = false) (n part v : Nat) :
    s.rewriteWindow n part v = ((List.range 80).foldl State.issueSome s).writeWindow n part v := by
  simp [State.rewriteWindow, h]

/-- The end of a window as its base and pages put it. -/
def State.windowEnd (s : State) (n : Nat) : Nat :=
  s.raw (R.HIF_DMAW_0 n) + 2 ^ 32 * s.raw (R.HIF_DMAW_4 n) + 4096 * s.raw (R.HIF_DMAW_8 n)

/-- The state with one register of a window written. -/
def State.windowPut (s : State) (n part v : Nat) : State :=
  match part with
  | 0 => s.put (F.HIF_DMAW_0_BASE_LO n) (v / 4096)
  | 1 => s.put (F.HIF_DMAW_4_BASE_HI n) v
  | 2 => s.put (F.HIF_DMAW_8_PAGES n) v
  | _ => (s.put (F.HIF_DMAW_C_READ n) v).put (F.HIF_DMAW_C_WRITE n) (v / 2)

theorem writeWindow_eq (s : State) (n part v : Nat) : s.writeWindow n part v =
    if s.on F.HIF_LOCK_LOCK then s
    else if part < 3 && 2 ^ 64 < (s.windowPut n part v).windowEnd n then s else s.windowPut n part v := rfl

/-- A window's base and pages take what keeps its end within 2^64. -/
theorem writeWindow_range {s : State} (h : s.on F.HIF_LOCK_LOCK = false) {part : Nat} (hpart : part < 3) (n v : Nat) :
    s.writeWindow n part v = if 2 ^ 64 < (s.windowPut n part v).windowEnd n then s else s.windowPut n part v := by
  simp only [writeWindow_eq, h, hpart, Bool.false_eq_true, if_false, decide_true, Bool.true_and, decide_eq_true_eq]

/-- A window's permissions are no part of its range. -/
theorem writeWindow_permissions {s : State} (h : s.on F.HIF_LOCK_LOCK = false) (n v : Nat) :
    s.writeWindow n 3 v = s.windowPut n 3 v := by
  rw [writeWindow_eq, h, if_neg Bool.false_ne_true, if_neg (by simp)]

theorem windowPut_permissions (s : State) (n v : Nat) :
    s.windowPut n 3 v = (s.put (F.HIF_DMAW_C_READ n) v).put (F.HIF_DMAW_C_WRITE n) (v / 2) := rfl

theorem permissions_read (s : State) (n v : Nat) :
    (s.windowPut n 3 v).get (F.HIF_DMAW_C_READ n) = v % 2 := by
  rw [windowPut_permissions, get_put_other _ _ _ _ (by decide : 0 + 1 ≤ 32) (.inr (.inl (by decide : 0 + 1 ≤ 1)))]
  exact get_put_same s _ v (by decide : 0 + 1 ≤ 32)

theorem permissions_write (s : State) (n v : Nat) :
    (s.windowPut n 3 v).get (F.HIF_DMAW_C_WRITE n) = v / 2 % 2 :=
  get_put_same _ _ _ (by decide : 1 + 1 ≤ 32)

/-! ## The event ring (R87) -/

theorem enableEvents_aligned {s : State} (hoff : s.on F.HIF_EVT_CTRL_ENABLE = false) (hbase : s.raw R.HIF_EVT_BASE_LO % 4096 = 0) :
    s.enableEvents = s.putB F.HIF_EVT_CTRL_ENABLE true := by
  simp [State.enableEvents, hoff, hbase]

theorem enableEvents_misaligned {s : State} (hoff : s.on F.HIF_EVT_CTRL_ENABLE = false)
    (hbase : s.raw R.HIF_EVT_BASE_LO % 4096 ≠ 0) : s.enableEvents = s.ringError 0xFF 2 := by
  simp [State.enableEvents, hoff, hbase]

/-! ## The statement -/

/-- Settles O15, by what each control's write does with the state of the queue, of the window and of the event ring. -/
theorem queuesAndTablesAreSet : Obligations.QueuesAndTablesAreSet := by
  unfold Obligations.QueuesAndTablesAreSet
  refine ⟨fun s q hctrl hstatus => ?_, fun s n v hwindow hlock hevt hhead hglb hlink => ?_⟩
  · rw [exec_queueEnable, exec_queueDisable, exec_queueStop, exec_queueResume, exec_queueReset, exec_dmaHaltClear]
    simp only [whenWritable_true hctrl, whenWritable_true hstatus]
    refine ⟨fun hoff hsq hcq hstopping hstop => ?_, fun hoff hbase => ?_, fun hon hbusy => ?_, fun hstop => ?_,
      fun hon hlist hrecs => ?_, fun hstop hcur hcmds hrecs => ?_, fun hstop hon hstopping => ?_, fun hstop hon hstopping => ?_,
      fun hstop hoff => ?_, fun h => ?_, ?_⟩
    · rw [enableQueue_runs hoff hsq hcq hstopping hstop]
      exact ⟨_, rfl, (control_haltedSet _ q false rfl).trans (enable_set s q true), halted_set _ q false, rfl⟩
    · rw [enableQueue_misaligned hoff hbase]
    · rw [disableQueue_busy hon hbusy]
    · rw [setStop_starts hstop]
    · rw [disableQueue_idle hon hlist hrecs]
      exact ⟨_, rfl, enable_set s q false, rfl⟩
    · exact ⟨_, rfl, setStop_idle hstop hcur hcmds hrecs⟩
    · rw [clearStop_resumes hstop hon hstopping]
      exact ⟨_, rfl, (control_haltedSet _ q false rfl).trans (stop_set s q false), halted_set _ q false, rfl⟩
    · rw [clearStop_rearms hstop hon hstopping]
      exact ⟨_, rfl, stop_set s q false, congrArg Queue.rearmed (State.modQ_q_same _ q _)⟩
    · rw [clearStop_disabled hstop hoff]
    · rw [resetQueue_taken h]
      exact ⟨_, rfl, ringsReset_head s q, ringsReset_tail s q, by rw [ringsReset_q], by rw [ringsReset_q]⟩
    · exact ⟨_, rfl, on_putB_same s _ false rfl (by decide : 2 + 1 ≤ 32), rfl⟩
  · simp only [exec_dmaWindowWrite, exec_hifLock, exec_evtRingEnable, exec_evtHeadWrite, exec_evtHaltClear,
      whenHost_true hwindow hlink, whenHost_true hlock hlink, whenWritable_true hevt, whenWritable_true hhead, whenWritable_true hglb]
    refine ⟨fun hlocked part => ?_, fun hopen part => ?_, fun hopen hidle => ?_, fun u hopen => ⟨?_, ?_, ?_⟩, ?_,
      fun hoff hbase => ?_, fun hoff hbase => ?_, ?_, ?_⟩
    · rw [rewriteWindow_locked hlocked]
    · rw [rewriteWindow_unlocked hopen]
    · refine ⟨s.windowPut n 3 v.toNat, ?_, permissions_read s n _, permissions_write s n _, rfl⟩
      rw [rewriteWindow_unlocked hopen, foldl_issueSome_idle hidle]
      exact congrArg _ (writeWindow_permissions hopen n _)
    · exact writeWindow_range hopen (by decide) n _
    · exact writeWindow_range hopen (by decide) n _
    · exact writeWindow_range hopen (by decide) n _
    · exact ⟨_, rfl, on_putB_same s _ true rfl (by decide), rfl⟩
    · rw [enableEvents_aligned hoff hbase]
      exact ⟨_, rfl, on_putB_same s _ true rfl (by decide), rfl⟩
    · rw [enableEvents_misaligned hoff hbase]
    · exact ⟨_, rfl, get_put_same s _ _ (by decide), rfl⟩
    · exact ⟨_, rfl, on_putB_same s _ false rfl (by decide), rfl⟩

end Sys2Proof.Machine
end

section
/-! Event loss, interrupt masks and holdoffs (R84, R87, R88). -/

namespace Sys2Proof.Machine

theorem exec_eventLoss (s : State) : exec .eventLoss s = .next (if s.frozen then s else s.lossStep) := rfl

theorem exec_eventLoss_running {s : State} (h : s.frozen = false) : exec .eventLoss s = .next s.lossStep := by
  rw [exec_eventLoss, h, if_neg Bool.false_ne_true]

theorem exec_msixUnmask (v : Fin 256) (s : State) :
    exec (.msixUnmask v) s = whenWritable s (R.MSIX_CTRL v) fun s => s.unmask v := rfl

theorem exec_irqHoldoffExpiry (ring : Fin 81) (s : State) :
    exec (.irqHoldoffExpiry ring) s = .next (if s.frozen || !s.barsOpen then s else s.holdoff ring) := rfl

/-! ## EVENT_LOSS (R88) -/

section
variable {s : State} (hlost : s.get F.HIF_EVT_LOST_COUNT ≠ 0) (hon : s.evtOn = true) (hroom : s.evtFree ≠ 0)
include hlost hon hroom

/-- Masked, the count of lost events returns to 0 alone. -/
theorem lossStep_masked (hmask : s.evtMasked 0x0201 = true) : s.lossStep = s.put F.HIF_EVT_LOST_COUNT 0 := by
  simp [State.lossStep, State.evtLoss, hlost, hon, hroom, hmask]

/-- Granted, the EVENT_LOSS record goes in and the count returns to 0. -/
theorem lossStep_granted (hmask : s.evtMasked 0x0201 = false) (hgrant : s.evtRefused 0 1 = none) : s.lossStep
    = (s.evtPut 0x0201 (payload 16 [(0, 4, s.get F.HIF_EVT_LOST_COUNT)]) []).put F.HIF_EVT_LOST_COUNT 0 := by
  simp [State.lossStep, State.evtLoss, hlost, hon, hroom, hmask, hgrant]

end

theorem lostCount_cleared (s : State) : (s.put F.HIF_EVT_LOST_COUNT 0).get F.HIF_EVT_LOST_COUNT = 0 :=
  get_put_same s _ 0 (by decide)

/-! ## Vectors unmasked (R84) -/

/-- The pending bit of a vector. -/
def pendingFld (v : Nat) : Fld := ⟨R.MSIX_PBA (v / 32), v % 32, 1⟩

theorem pendingFld_fits (v : Nat) : (pendingFld v).lo + (pendingFld v).w ≤ 32 := by
  show v % 32 + 1 ≤ 32
  omega

/-- The mask of a vector below 256 lies in another register than any pending bit. -/
theorem mask_reg_ne_pending {v : Nat} (h : v < 256) (u : Nat) : (F.MSIX_CTRL_MASK v).reg ≠ (pendingFld u).reg := by
  show 0x3000c + 0x10 * v ≠ 0x31000 + 4 * (u / 32)
  omega

/-- The state with a vector's mask cleared. -/
def State.maskCleared (s : State) (v : Nat) : State := s.putB (F.MSIX_CTRL_MASK v) false

theorem maskCleared_pending (s : State) {v : Nat} (h : v < 256) : (s.maskCleared v).on (pendingFld v) = s.on (pendingFld v) :=
  on_putB_other s _ _ false (pendingFld_fits v) (.inl (mask_reg_ne_pending h v).symm)

theorem maskCleared_mask (s : State) (v : Nat) : (s.maskCleared v).on (F.MSIX_CTRL_MASK v) = false :=
  on_putB_same s _ false rfl (by decide : 0 + 1 ≤ 32)

section
variable {s : State} {v : Nat} (hv : v < 256)
include hv

/-- A vector that is not pending sends nothing as its mask is cleared. -/
theorem unmask_idle (hpending : s.on (pendingFld v) = false) : s.unmask v = s.maskCleared v := by
  have hidle : (s.maskCleared v).on (pendingFld v) = false := (maskCleared_pending s hv).trans hpending
  refine if_neg ?_
  rw [Bool.and_eq_true, Bool.and_eq_true]
  rintro ⟨⟨hp, -⟩, -⟩
  exact Bool.false_ne_true (hidle.symm.trans hp)

/-- One that is pending sends its message and is pending no more. -/
theorem unmask_pending (henable : s.host.config.msixEnable = true) (hfunction : s.host.config.msixMask = false)
    (hpending : s.on (pendingFld v) = true) : s.unmask v = ((s.maskCleared v).setPending v false).emit (.irq v) := by
  have hp : (s.maskCleared v).on (pendingFld v) = true := (maskCleared_pending s hv).trans hpending
  refine if_pos ?_
  rw [Bool.and_eq_true, Bool.and_eq_true]
  exact ⟨⟨hp, henable⟩, by simpa using hfunction⟩

theorem setPending_mask (b : Bool) : (s.setPending v b).on (F.MSIX_CTRL_MASK v) = s.on (F.MSIX_CTRL_MASK v) :=
  on_putB_other s (pendingFld v) _ b (by decide : 0 + 1 ≤ 32) (.inl (mask_reg_ne_pending hv v))

end

theorem setPending_pending (s : State) (v : Nat) (b : Bool) : (s.setPending v b).on (pendingFld v) = b :=
  on_putB_same s (pendingFld v) b rfl (pendingFld_fits v)

/-! ## Holdoff (R84) -/

theorem exec_irqHoldoffExpiry_open {s : State} (h : s.barsOpen = true) (ring : Fin 81) :
    exec (.irqHoldoffExpiry ring) s = .next (s.holdoff ring) := by
  obtain ⟨-, hfrozen, -⟩ := barsOpen_iff.1 h
  rw [exec_irqHoldoffExpiry, if_neg (by simp [h, hfrozen])]

/-- A completion ring whose holdoff ends fires its vector. -/
theorem holdoff_queue {s u : State} {q : Nat} (hq : q < 80) (hcount : (s.q q).irqCount ≠ 0) (hoff : s.get (F.HIF_QIRQ_HOLDOFF q) ≠ 0)
    (hon : s.on (F.HIF_QCTRL_IRQ_EN q) = true)
    (hreach : s.reach ((s.q q).irqSince + 250 * s.get (F.HIF_QIRQ_HOLDOFF q)) = some u) :
    s.holdoff q = (u.modQ q fun Q => { Q with irqCount := 0 }).fire (s.get (F.HIF_QCTRL_VECTOR q)) := by
  simp [State.holdoff, hq, hcount, hoff, hon, hreach]

/-- The state with no event record counted towards an interrupt. -/
def State.evtCountCleared (s : State) : State := { s with host := { s.host with evt := { s.host.evt with irqCount := 0 } } }

/-- The event ring whose holdoff ends fires its vector. -/
theorem holdoff_events {s u : State} (hcount : s.host.evt.irqCount ≠ 0) (hoff : s.get F.HIF_EVT_IRQ_HOLDOFF ≠ 0)
    (hon : s.on F.HIF_EVT_CTRL_IRQ_EN = true)
    (hreach : s.reach (s.host.evt.irqSince + 250 * s.get F.HIF_EVT_IRQ_HOLDOFF) = some u) :
    s.holdoff 80 = u.evtCountCleared.fire (s.get F.HIF_EVT_CTRL_VECTOR) := by
  simp [State.holdoff, hcount, hoff, hon, hreach, State.evtCountCleared]

/-- A ring whose holdoff has ended in an unmasked vector sends that vector's message. -/
theorem holdoff_queue_sends {s : State} {q : Nat} (hq : q < 80) (hopen : s.barsOpen = true)
    (henable : s.host.config.msixEnable = true) (hcount : (s.q q).irqCount ≠ 0) (hoff : s.get (F.HIF_QIRQ_HOLDOFF q) ≠ 0)
    (hon : s.on (F.HIF_QCTRL_IRQ_EN q) = true)
    (hdue : (s.q q).irqSince + 250 * s.get (F.HIF_QIRQ_HOLDOFF q) ≤ s.clk.cycle)
    (hmask : s.masked (s.get (F.HIF_QCTRL_VECTOR q)) = false) :
    s.holdoff q = (s.modQ q fun Q => { Q with irqCount := 0 }).emit (.irq (s.get (F.HIF_QCTRL_VECTOR q))) := by
  obtain ⟨-, -, hlink⟩ := barsOpen_iff.1 hopen
  rw [holdoff_queue hq hcount hoff hon (reach_now s _ hdue)]
  exact fire_unmasked henable hlink hmask

/-- Settles O16, by the answers of EVENT_LOSS, of a vector unmasked, and of a holdoff that ends. -/
theorem eventsAndInterrupts : Obligations.EventsAndInterrupts := by
  unfold Obligations.EventsAndInterrupts
  refine ⟨fun s hfrozen hlost hon hroom => ?_, fun s v q htakes henable hfunction =>
    ⟨fun hpending => ?_, fun hpending => ?_, fun hq hopen hcount hoff hon hdue hmask => ?_,
      fun hq hopen hcount hoff hon u hreach => ?_, fun hopen hcount hoff hon u hreach => ?_⟩⟩
  · rw [exec_eventLoss_running hfrozen]
    refine ⟨fun hmask hgrant => ?_, fun hmask => ?_⟩
    · rw [lossStep_granted hlost hon hroom hmask hgrant]
      exact ⟨_, rfl, lostCount_cleared _, rfl⟩
    · rw [lossStep_masked hlost hon hroom hmask]
      exact ⟨_, rfl, lostCount_cleared s, rfl⟩
  · rw [exec_msixUnmask, whenWritable_true htakes, unmask_pending v.isLt henable hfunction hpending]
    exact ⟨_, rfl, (setPending_mask v.isLt false).trans (maskCleared_mask s v), setPending_pending _ v false, rfl⟩
  · rw [exec_msixUnmask, whenWritable_true htakes, unmask_idle v.isLt hpending]
    exact ⟨_, rfl, maskCleared_mask s v, rfl⟩
  · rw [exec_irqHoldoffExpiry_open hopen, holdoff_queue_sends hq hopen henable hcount hoff hon hdue hmask]
    refine ⟨_, rfl, rfl, ?_⟩
    exact congrArg Queue.irqCount (State.modQ_q_same s q _)
  · rw [exec_irqHoldoffExpiry_open hopen, holdoff_queue hq hcount hoff hon hreach]
  · rw [exec_irqHoldoffExpiry_open hopen]
    exact ⟨u.evtCountCleared, congrArg _ (holdoff_events hcount hoff hon hreach), rfl, rfl⟩

end Sys2Proof.Machine
end

section
/-! Resets: which registers and stores a reset keeps, that each cause of one leaves the part just reset, what holds it, and what a write
to configuration space sets (R12, R54-R57, R84, R363, R384, R414, R423, R427, R441, R449, R457, R463, R468). -/

namespace Sys2Proof.Machine

theorem exec_powerOn (s : State) : exec .powerOn s = .next { State.reset with
    phase := .reset
    host := { mem := (s.cutStore true).host.mem }
    mems := { cis := { stuck := (s.cutStore true).mems.cis.stuck }, aq := { stuck := (s.cutStore true).mems.aq.stuck } }
    nv := (s.cutStore true).nv
    power := { tj := (s.cutStore true).power.tj }
    pins := { vid := some (vidCode (s.cutStore true).nv.coreMv) }
    out := (s.cutStore true).out
    fresh := (s.cutStore true).fresh
    pending := (s.cutStore true).pending } := rfl

theorem exec_glbReset (key : Word) (s : State) : exec (.glbReset key) s
    = whenHost s R.GLB_RESET fun s => if key = 0xC0DE0880#32 then s.resetWith 3 .startup else s := rfl

theorem exec_functionLevelReset (s : State) :
    exec .functionLevelReset s = .next (if s.phase != .reset && s.pcieUp then s.resetWith 2 .startup else s) := rfl

theorem exec_dbgRelease (key : Word) (s : State) : exec (.dbgRelease key) s
    = whenHost s R.DBG_RELEASE fun s => if key = 0xF12E0880#32 && s.frozen then s.resetWith 3 .startup else s := rfl

theorem exec_railResetLevel (rail : Fin 9) (mv : Nat) (s : State) :
    exec (.railResetLevel rail mv) s = .next (if s.atReset rail mv then s.railReset rail mv else s) := rfl

theorem exec_clkRefLoss (s : State) : exec .clkRefLoss s = .next s.clockLost := rfl

theorem exec_clkRefRestored (s : State) : exec .clkRefRestored s
    = .next (if s.power.clkRef then s else { s with power := { s.power with clkRef := true, clkAt := s.clk.real } }) := rfl

theorem exec_configSpaceWrite (field : ConfigField) (v : Nat) (s : State) : exec (.configSpaceWrite field v) s
    = .next (if s.phase != .reset && s.pcieUp then s.configWrite field v else s) := rfl

/-! ## The firmware store (R384) -/

theorem cutStore_notStoring {s : State} (h : s.sec.fw.stage ≠ .storing) (powerLost : Bool) : s.cutStore powerLost = s := by
  simp [State.cutStore, h]

theorem cutStore_phase (s : State) (powerLost : Bool) : (s.cutStore powerLost).phase = s.phase := by
  unfold State.cutStore
  split
  · rfl
  · cases powerLost <;> rfl

/-! ## What a reset keeps of the registers (R427, R449) -/

/-- The registers that survive a reset. -/
def survivesReset (off : Nat) : Bool :=
  off == R.PWR_RESET_CAUSE || off == R.PWR_BIST_STATUS || (R.PWR_BIST_LOG 0 ≤ off && off < R.PWR_BIST_LOG 16)

theorem keptRegs_other (s : State) (d : Word) {off : Nat} (h : survivesReset off = false) : sget d s.keptRegs off = d := by
  refine sget_of_unlisted d fun e he heq => ?_
  have hkept : survivesReset e.1 = true := (List.mem_filter.1 he).2
  rw [heq, h] at hkept
  exact Bool.false_ne_true hkept

/-- `s` with the cause of a reset recorded, and no BIST running. -/
def State.withCause (s : State) (cause : Nat) : State :=
  ((s.putB F.PWR_BIST_STATUS_RUNNING false).put F.PWR_RESET_CAUSE_CAUSE cause).put F.PWR_RESET_CAUSE_RAIL 0
    |>.put F.PWR_RESET_CAUSE_DEPTH 0

theorem withCause_cause (s : State) {cause : Nat} (h : cause < 16) : (s.withCause cause).get F.PWR_RESET_CAUSE_CAUSE = cause := by
  rw [State.withCause, get_put_other _ _ _ _ (by decide) (by decide), get_put_other _ _ _ _ (by decide) (by decide),
    get_put_same _ _ _ (by decide)]
  exact Nat.mod_eq_of_lt h

theorem withCause_get (s : State) (cause : Nat) {f : Fld} (hcause : f.reg ≠ R.PWR_RESET_CAUSE) (hbist : f.reg ≠ R.PWR_BIST_STATUS) :
    (s.withCause cause).get f = s.get f := by
  rw [State.withCause, get_put_otherReg _ _ _ _ hcause, get_put_otherReg _ _ _ _ hcause, get_put_otherReg _ _ _ _ hcause]
  exact get_put_otherReg s _ f _ hbist

/-- A reset's registers: those kept, with its cause, which is 5 in the safe state (R432). -/
theorem resetWith_regs (s : State) (cause : Nat) (phase : Phase) : ∃ r : State, r.regs = (s.cutStore false).keptRegs
    ∧ s.resetWith cause phase = r.withCause (if (s.cutStore false).phase == .safe then 5 else cause) := ⟨_, rfl, rfl⟩

/-- Every other register reads as at reset. -/
theorem resetWith_get (s : State) (cause : Nat) (phase : Phase) {f : Fld} (h : survivesReset f.reg = false) :
    (s.resetWith cause phase).get f = State.reset.get f := by
  obtain ⟨hcause, hbist⟩ : f.reg ≠ R.PWR_RESET_CAUSE ∧ f.reg ≠ R.PWR_BIST_STATUS := by
    simp only [survivesReset, Bool.or_eq_false_iff, beq_eq_false_iff_ne] at h
    exact h.1
  obtain ⟨r, hregs, heq⟩ := resetWith_regs s cause phase
  rw [heq, withCause_get r _ hcause hbist]
  simp only [State.get, State.word, hregs, keptRegs_other _ _ h]
  rfl

theorem resetWith_pairs (s : State) (cause : Nat) (phase : Phase) (p : Fin 12) :
    (s.resetWith cause phase).get (F.LK_PAIR_STATUS_STATE p) = 0 := by
  have hp : survivesReset (F.LK_PAIR_STATUS_STATE p).reg = false := by revert p; decide
  exact (resetWith_get s cause phase hp).trans (reset_pairs_in_bypass p)

/-! ## The part just reset -/

theorem resetWith_phase (s : State) (cause : Nat) (phase : Phase) :
    (s.resetWith cause phase).phase = if s.phase == .safe then .reset else phase := by
  rw [← cutStore_phase s false]
  rfl

/-- A reset leaves the part just reset, whatever it was before (R12, R414). -/
theorem resetWith_justReset (s : State) (cause : Nat) {phase : Phase} (h : phase = .reset ∨ phase = .startup) :
    JustReset (s.resetWith cause phase) where
  phase := by
    rw [resetWith_phase]
    split
    · exact .inl rfl
    · exact h
  frozen := by
    have hget : (s.resetWith cause phase).get F.GLB_STATUS_FROZEN = State.reset.get F.GLB_STATUS_FROZEN :=
      resetWith_get s cause phase (by decide)
    have hreset := reset_justReset.frozen
    simp only [State.frozen, State.on, hget] at hreset ⊢
    exact hreset
  cycle := rfl
  strokes := rfl
  queues := rfl
  floats := rfl
  intake := rfl
  flow := rfl
  egress := rfl
  models := rfl

/-- `t` is `s` just reset with a cause: every pair in bypass, and what no reset changes as it was. -/
def State.ResetAs (s t : State) (cause : Nat) : Prop :=
  JustReset t ∧ t.get F.PWR_RESET_CAUSE_CAUSE = cause ∧ t.nv = s.nv ∧ t.host.mem = s.host.mem ∧ t.pending = s.pending
    ∧ t.mgmt = s.mgmt ∧ ∀ p : Fin 12, t.get (F.LK_PAIR_STATUS_STATE p) = 0

/-- What no reset changes, but for a slot of the firmware store that it cuts off. -/
theorem resetWith_keeps (s : State) (cause : Nat) (phase : Phase) :
    (s.resetWith cause phase).nv = (s.cutStore false).nv ∧ (s.resetWith cause phase).host.mem = (s.cutStore false).host.mem
      ∧ (s.resetWith cause phase).pending = (s.cutStore false).pending
      ∧ (s.resetWith cause phase).mgmt = (s.cutStore false).mgmt := ⟨rfl, rfl, rfl, rfl⟩

/-- A reset from any phase but the safe state, with no slot of the firmware store half written. -/
theorem resetWith_resetAs {s : State} (hsafe : s.phase ≠ .safe) (hstage : s.sec.fw.stage ≠ .storing) {cause : Nat} (hc : cause < 16)
    {phase : Phase} (h : phase = .reset ∨ phase = .startup) : s.ResetAs (s.resetWith cause phase) cause := by
  have hcut := cutStore_notStoring hstage false
  obtain ⟨hnv, hmem, hpending, hmgmt⟩ := resetWith_keeps s cause phase
  refine ⟨resetWith_justReset s cause h, ?_, ?_, ?_, ?_, ?_, resetWith_pairs s cause phase⟩
  · obtain ⟨r, -, heq⟩ := resetWith_regs s cause phase
    have hphase : ¬((s.cutStore false).phase == .safe) = true := by simpa [hcut] using hsafe
    rw [heq, if_neg hphase]
    exact withCause_cause r hc
  · exact hnv.trans (congrArg State.nv hcut)
  · exact hmem.trans (congrArg (fun u : State => u.host.mem) hcut)
  · exact hpending.trans (congrArg State.pending hcut)
  · exact hmgmt.trans (congrArg State.mgmt hcut)

theorem resetWith_phase_of {s : State} (hsafe : s.phase ≠ .safe) (cause : Nat) (phase : Phase) :
    (s.resetWith cause phase).phase = phase := by
  rw [resetWith_phase, if_neg (by simpa using hsafe)]

/-- Of the safe state the cause is 5, and heat holds the reset (R432). -/
theorem resetWith_safe {s : State} (hsafe : s.phase = .safe) (cause : Nat) (phase : Phase) :
    (s.resetWith cause phase).phase = .reset ∧ (s.resetWith cause phase).get F.PWR_RESET_CAUSE_CAUSE = 5 := by
  constructor
  · rw [resetWith_phase, hsafe]
    rfl
  · obtain ⟨r, -, heq⟩ := resetWith_regs s cause phase
    have hphase : ((s.cutStore false).phase == .safe) = true := by simp [cutStore_phase, hsafe]
    rw [heq, if_pos hphase]
    exact withCause_cause r (by decide)

/-- A part just reset is so whatever its phase of the two, its power, pins and configuration space. -/
theorem JustReset.withRest {t : State} (h : JustReset t) {phase : Phase} (hphase : phase = .reset ∨ phase = .startup) (power : Power)
    (pins : Pins) (config : PciConfig) :
    JustReset { t with phase := phase, power := power, pins := pins, host := { t.host with config := config } } :=
  ⟨hphase, h.frozen, h.cycle, h.strokes, h.queues, h.floats, h.intake, h.flow, h.egress, h.models⟩

theorem JustReset.put {t : State} (h : JustReset t) {f : Fld} (hf : R.GLB_STATUS ≠ f.reg) (v : Nat) : JustReset (t.put f v) := by
  refine ⟨h.phase, ?_, h.cycle, h.strokes, h.queues, h.floats, h.intake, h.flow, h.egress, h.models⟩
  have hfrozen := h.frozen
  simp only [State.frozen, State.on, get_put_otherReg t f F.GLB_STATUS_FROZEN v hf] at hfrozen ⊢
  exact hfrozen

theorem State.ResetAs.withRest {s t : State} {cause : Nat} (h : s.ResetAs t cause) {phase : Phase}
    (hphase : phase = .reset ∨ phase = .startup) (power : Power) (pins : Pins) (config : PciConfig) :
    s.ResetAs { t with phase := phase, power := power, pins := pins, host := { t.host with config := config } } cause := by
  obtain ⟨hjust, hrest⟩ := h
  exact ⟨hjust.withRest hphase power pins config, hrest⟩

/-- What is recorded beside the cause leaves it. -/
theorem State.ResetAs.put {s t : State} {cause : Nat} (h : s.ResetAs t cause) {f : Fld} (hf : f.reg = R.PWR_RESET_CAUSE)
    (hlo : 4 ≤ f.lo) (v : Nat) : s.ResetAs (t.put f v) cause := by
  obtain ⟨hjust, hc, hnv, hmem, hpending, hmgmt, hpairs⟩ := h
  refine ⟨hjust.put (by rw [hf]; decide) v, ?_, hnv, hmem, hpending, hmgmt, fun p => ?_⟩
  · rw [get_put_other t f F.PWR_RESET_CAUSE_CAUSE v (by decide) (.inr (.inl hlo))]
    exact hc
  · have hreg : (F.LK_PAIR_STATUS_STATE p).reg ≠ f.reg := by rw [hf]; revert p; decide
    rw [get_put_otherReg t f _ v hreg]
    exact hpairs p

/-! ## Resets by key, by pin and over PCI Express (R55, R449, R457) -/

theorem exec_glbReset_key {s : State} (htakes : s.takesWrite R.GLB_RESET = true) (hlink : s.pcieUp = true) :
    exec (.glbReset 0xC0DE0880#32) s = .next (s.resetWith 3 .startup) := by
  rw [exec_glbReset, whenHost_true htakes hlink, if_pos rfl]

theorem exec_glbReset_wrongKey {s : State} (htakes : s.takesWrite R.GLB_RESET = true) (hlink : s.pcieUp = true) {key : Word}
    (h : key ≠ 0xC0DE0880#32) : exec (.glbReset key) s = .next s := by
  rw [exec_glbReset, whenHost_true htakes hlink, if_neg h]

theorem exec_dbgRelease_frozen {s : State} (htakes : s.takesWrite R.DBG_RELEASE = true) (hlink : s.pcieUp = true)
    (h : s.frozen = true) : exec (.dbgRelease 0xF12E0880#32) s = .next (s.resetWith 3 .startup) := by
  rw [exec_dbgRelease, whenHost_true htakes hlink, if_pos (by simp [h])]

theorem exec_dbgRelease_nothing {s : State} (htakes : s.takesWrite R.DBG_RELEASE = true) (hlink : s.pcieUp = true) {key : Word}
    (h : s.frozen = false ∨ key ≠ 0xF12E0880#32) : exec (.dbgRelease key) s = .next s := by
  rw [exec_dbgRelease, whenHost_true htakes hlink, if_neg]
  rcases h with h | h <;> simp [h]

section
variable {s : State} (hphase : s.phase ≠ .reset) (hlink : s.pcieUp = true)
include hphase hlink

theorem exec_functionLevelReset_open : exec .functionLevelReset s = .next (s.resetWith 2 .startup) := by
  rw [exec_functionLevelReset, if_pos (by simp [hphase, hlink])]

/-- A write to configuration space over a link that is up, while no reset is held. -/
theorem exec_configSpaceWrite_open (field : ConfigField) (v : Nat) :
    exec (.configSpaceWrite field v) s = .next (s.configWrite field v) := by
  rw [exec_configSpaceWrite, if_pos (by simp [hphase, hlink])]

end

theorem configWrite_flr (s : State) {v : Nat} (h : v % 2 = 1) : s.configWrite .initiateFlr v = s.resetWith 2 .startup := if_pos h

theorem configWrite_noFlr (s : State) {v : Nat} (h : v % 2 = 0) : s.configWrite .initiateFlr v = s := if_neg (by omega)

theorem firePending_frozen {s : State} (h : s.frozen = true) : s.firePending = s := if_pos h

/-- The state with the endpoint's configuration lost. -/
def State.configLost (s : State) : State := { s with host := { s.host with config := {} } }

theorem configLost_phase (t : State) : t.configLost.phase = t.phase := rfl

theorem JustReset.configLost {t : State} (h : JustReset t) : JustReset t.configLost := h.withRest h.phase _ _ _

theorem State.ResetAs.configLost {s t : State} {cause : Nat} (h : s.ResetAs t cause) : s.ResetAs t.configLost cause :=
  h.withRest h.1.phase _ _ _

/-- The part after a RESET_N pulse that resets it. -/
def State.pinReset (s : State) : State := (s.resetWith 1 .startup).configLost

theorem pinReset_justReset (s : State) : JustReset s.pinReset := (resetWith_justReset s 1 (.inr rfl)).configLost

/-- A pulse of 1 µs resets; a shorter one is judged by a free value. -/
theorem exec_resetN (low : Nat) (s : State) : exec (.resetN low) s =
    let p := if low < 1000 then s.free else (1, s)
    if p.1 % 2 = 0 then .next p.2 else .next p.2.pinReset := rfl

theorem exec_resetN_long {low : Nat} (h : 1000 ≤ low) (s : State) : exec (.resetN low) s = .next s.pinReset := by
  have hodd : ¬1 % 2 = 0 := by decide
  rw [exec_resetN, if_neg (Nat.not_lt.2 h)]
  exact if_neg hodd

/-- A pulse under 1 µs is ignored, or resets (R457, log 26). -/
theorem exec_resetN_short {low : Nat} (h : low < 1000) (s : State) :
    ∃ t, exec (.resetN low) s = .next t ∧ (t = { s with fresh := s.fresh + 1 } ∨ JustReset t) := by
  rw [exec_resetN, if_pos h]
  dsimp only
  split
  · exact ⟨_, rfl, .inl rfl⟩
  · exact ⟨_, rfl, .inr (pinReset_justReset _)⟩

/-- POWER_ON leaves the part just reset, its registers at their reset values (R12, R414). -/
theorem exec_powerOn_justReset (s : State) : ∃ t, exec .powerOn s = .next t ∧ t.phase = .reset ∧ JustReset t
    ∧ t.nv = (s.cutStore true).nv ∧ t.host.mem = (s.cutStore true).host.mem ∧ t.regs = State.reset.regs := by
  rw [exec_powerOn]
  refine ⟨_, rfl, rfl, ?_, rfl, rfl, rfl⟩
  exact ⟨.inl rfl, reset_justReset.frozen, rfl, rfl, rfl, rfl, rfl, rfl, rfl, rfl⟩

/-! ## Resets that are held (R423, R463) -/

theorem release_held {s : State} (hphase : s.phase = .reset) (h : s.releaseAt = none) : s.release = none := by
  simp [State.release, hphase, h]

/-- A low rail holds a reset that waits for the rails. -/
theorem releaseAt_rails {s : State} {r : Nat} (hhold : s.power.holdRails = true) (hr : r ∈ s.power.lowRails) : s.releaseAt = none := by
  have hlow : s.power.lowRails.isEmpty = false := List.isEmpty_eq_false_iff.2 (List.ne_nil_of_mem hr)
  simp [State.releaseAt, hhold, hlow]

/-- A lost CLK_REF holds a reset that waits for it. -/
theorem releaseAt_clock {s : State} (hhold : s.power.holdClock = true) (hclk : s.power.clkRef = false) : s.releaseAt = none := by
  simp [State.releaseAt, hhold, hclk]

/-- The rails below their warning level, with rail `r` among them. -/
def State.railsWith (s : State) (r : Nat) : List Nat :=
  if s.power.lowRails.contains r then s.power.lowRails else r :: s.power.lowRails

theorem mem_railsWith (s : State) (r : Nat) : r ∈ s.railsWith r := by
  unfold State.railsWith
  split
  · rename_i h
    exact List.contains_iff_mem.1 h
  · exact List.mem_cons_self

/-- The state in which the rails given hold the reset. -/
def State.heldBy (s : State) (rails : List Nat) : State := { s with power := { s.power with lowRails := rails, holdRails := true } }

theorem padsOff_eq (s : State) (r : Nat) : s.padsOff r = { s with pins := (s.padsOff r).pins } := by
  unfold State.padsOff
  split <;> rfl

theorem railReset_held {s : State} (h : s.phase = .reset) (r mv : Nat) :
    s.railReset r mv = (s.heldBy (s.railsWith r)).padsOff r := by
  have hp : (s.phase == .reset) = true := by simp [h]
  exact if_pos hp

/-- The reset that a rail at its reset level begins: cause 4, the rail and its depth recorded. -/
def State.railCause (s : State) (r depth : Nat) : State :=
  ((s.resetWith 4 .reset).put F.PWR_RESET_CAUSE_RAIL r).put F.PWR_RESET_CAUSE_DEPTH depth

theorem railReset_begins {s : State} (h : s.phase ≠ .reset) (r mv : Nat) :
    ∃ depth, s.railReset r mv = ((s.railCause r depth).heldBy (s.railsWith r)).padsOff r := by
  have hp : ¬(s.phase == .reset) = true := by simpa using h
  exact ⟨_, if_neg hp⟩

theorem railCause_resetAs {s : State} (hsafe : s.phase ≠ .safe) (hstage : s.sec.fw.stage ≠ .storing) (r depth : Nat) :
    s.ResetAs (s.railCause r depth) 4 :=
  ((resetWith_resetAs hsafe hstage (by decide) (.inl rfl)).put rfl (by decide) r).put rfl (by decide) depth

theorem railCause_rail (s : State) {r : Nat} (h : r < 16) (depth : Nat) :
    (s.railCause r depth).get F.PWR_RESET_CAUSE_RAIL = r := by
  rw [State.railCause, get_put_other _ _ _ _ (by decide) (by decide), get_put_same _ _ _ (by decide)]
  exact Nat.mod_eq_of_lt h

/-- A rail at its reset level resets the part and holds the reset (R423). -/
theorem railReset_resetAs {s : State} (hsafe : s.phase ≠ .safe) (hstage : s.sec.fw.stage ≠ .storing) (h : s.phase ≠ .reset)
    {r : Nat} (hr : r < 16) (mv : Nat) :
    (s.railReset r mv).phase = .reset ∧ s.ResetAs (s.railReset r mv) 4 ∧ (s.railReset r mv).get F.PWR_RESET_CAUSE_RAIL = r
      ∧ (s.railReset r mv).power.holdRails = true ∧ r ∈ (s.railReset r mv).power.lowRails ∧ (s.railReset r mv).release = none := by
  obtain ⟨depth, heq⟩ := railReset_begins h r mv
  have hphase : (s.railCause r depth).phase = .reset := by
    rw [State.railCause, State.put_phase, State.put_phase, resetWith_phase_of hsafe]
  have hreset := railCause_resetAs hsafe hstage r depth
  have hcause := railCause_rail s hr depth
  have hrail : r ∈ s.railsWith r := mem_railsWith s r
  rw [heq, padsOff_eq]
  generalize s.railCause r depth = t at hphase hreset hcause
  exact ⟨hphase, hreset.withRest (.inl hphase) _ _ _, hcause, rfl, hrail,
    release_held hphase (releaseAt_rails rfl hrail)⟩

/-- A rail that falls while a reset is held holds it too. -/
theorem railReset_held_keeps {s : State} (h : s.phase = .reset) (r mv : Nat) :
    s.railReset r mv = { s with power := (s.railReset r mv).power, pins := (s.railReset r mv).pins }
      ∧ (s.railReset r mv).power.holdRails = true ∧ r ∈ (s.railReset r mv).power.lowRails := by
  rw [railReset_held h, padsOff_eq]
  exact ⟨rfl, rfl, mem_railsWith s r⟩

theorem exec_railResetLevel_at {s : State} {rail : Fin 9} {mv : Nat} (h : s.atReset rail mv = true) :
    exec (.railResetLevel rail mv) s = .next (s.railReset rail mv) := by
  rw [exec_railResetLevel, if_pos h]

/-- The state in which a lost CLK_REF holds the reset. -/
def State.heldByClock (s : State) : State := { s with power := { s.power with clkRef := false, holdClock := true } }

theorem clockLost_held {s : State} (h : s.phase = .reset) : s.clockLost = s.heldByClock := by
  simp [State.clockLost, h, State.heldByClock]

theorem clockLost_begins {s : State} (h : s.phase ≠ .reset) :
    s.clockLost = ({ s.resetWith 7 .startup with phase := .reset } : State).heldByClock := by
  simp [State.clockLost, h, State.heldByClock, State.faultReset]

/-- A lost CLK_REF resets the part and holds the reset (R463). -/
theorem clockLost_resetAs {s : State} (hsafe : s.phase ≠ .safe) (hstage : s.sec.fw.stage ≠ .storing) (h : s.phase ≠ .reset) :
    s.clockLost.phase = .reset ∧ s.ResetAs s.clockLost 7 ∧ s.clockLost.power.clkRef = false ∧ s.clockLost.release = none := by
  have hreset : s.ResetAs (s.resetWith 7 .startup) 7 := resetWith_resetAs hsafe hstage (by decide) (.inr rfl)
  rw [clockLost_begins h]
  generalize s.resetWith 7 .startup = t at hreset
  exact ⟨rfl, hreset.withRest (.inl rfl) _ _ _, rfl, release_held rfl (releaseAt_clock rfl rfl)⟩

/-- The state with the PCI Express link down. -/
def State.linkLost (s : State) : State := { s with host := { s.host with config := { s.host.config with refClock := false } } }

theorem exec_peRefclkLoss (s : State) : exec .peRefclkLoss s
    = .next (((s.put F.GLB_CAP_PCIE_RATE 0).put F.GLB_CAP_PCIE_WIDTH 0).put F.GLB_CAP_FLIT 0).linkLost := rfl

theorem linkLost_get (s : State) (f : Fld) : s.linkLost.get f = s.get f := rfl

theorem linkLost_pcieUp (s : State) : s.linkLost.pcieUp = false := rfl

/-- Three fields written and the link lost change registers and the host's side alone. -/
theorem linkLost_puts (s : State) (f g h : Fld) (a b c : Nat) : (((s.put f a).put g b).put h c).linkLost
    = { s with regs := (((s.put f a).put g b).put h c).linkLost.regs
               host := (((s.put f a).put g b).put h c).linkLost.host } := rfl

/-- PE_REFCLK_LOSS takes the PCI Express link down and leaves the rest (R468). -/
theorem exec_peRefclkLoss_linkDown (s : State) : ∃ t, exec .peRefclkLoss s = .next t ∧ t.pcieUp = false
    ∧ t.get F.GLB_CAP_PCIE_WIDTH = 0 ∧ t = { s with regs := t.regs, host := t.host } := by
  refine ⟨_, exec_peRefclkLoss s, linkLost_pcieUp _, ?_, linkLost_puts s _ _ _ 0 0 0⟩
  rw [linkLost_get, get_put_other _ _ _ _ (by decide) (by decide), get_put_same _ _ _ (by decide), Nat.zero_mod]

/-! ## The statement -/

/-- Settles O52: every cause of a reset ends in `State.resetWith`, whose registers and stores are those of the reset state but for
what survives; a write to configuration space is one field of it. -/
theorem resetsRestart : Obligations.ResetsRestart := by
  unfold Obligations.ResetsRestart
  refine ⟨fun s key low mv rail hsafe hstage => ?_, fun s low hpart => ?_, fun s v i hphase hlink => ?_⟩
  · have hnv := cutStore_notStoring hstage true
    have started (cause : Nat) (hc : cause < 16) : (s.resetWith cause .startup).phase = .startup
        ∧ s.ResetAs (s.resetWith cause .startup) cause :=
      ⟨resetWith_phase_of hsafe cause .startup, resetWith_resetAs hsafe hstage hc (.inr rfl)⟩
    refine ⟨⟨resetWith_justReset s 2 (.inr rfl), resetWith_justReset s 3 (.inr rfl)⟩,
      fun htakes hlink => ⟨⟨_, exec_glbReset_key htakes hlink, started 3 (by decide)⟩, exec_glbReset_wrongKey htakes hlink⟩,
      fun hphase hlink => ⟨⟨_, exec_functionLevelReset_open hphase hlink, started 2 (by decide)⟩,
        exec_functionLevelReset_open hphase hlink, fun v hv => ?_⟩,
      fun hlow => ⟨_, exec_resetN_long hlow s, ?_⟩, fun hlow => exec_resetN_short hlow s,
      fun htakes hlink => ⟨fun hfrozen => ⟨_, exec_dbgRelease_frozen htakes hlink hfrozen, started 3 (by decide)⟩,
        exec_dbgRelease_nothing htakes hlink⟩,
      fun hat hphase => ⟨_, exec_railResetLevel_at hat, railReset_resetAs hsafe hstage hphase (by omega) mv⟩,
      fun hat hphase => ⟨_, exec_railResetLevel_at hat, railReset_held_keeps hphase rail mv⟩, fun hnot => ?_, fun hphase => ?_,
      fun hclk => ?_, fun hphase => ⟨_, exec_clkRefLoss s, clockLost_resetAs hsafe hstage hphase⟩, fun hclk => ?_, ?_,
      exec_peRefclkLoss_linkDown s, rfl⟩
    · rw [exec_configSpaceWrite_open hphase hlink, configWrite_flr s hv]
    · obtain ⟨hphase, hreset⟩ := started 1 (by decide)
      exact ⟨(configLost_phase _).trans hphase, hreset.configLost⟩
    · rw [exec_railResetLevel, hnot, if_neg Bool.false_ne_true]
    · exact congrArg _ (clockLost_held hphase)
    · rw [exec_clkRefRestored, if_pos hclk]
    · rw [exec_clkRefRestored, hclk, if_neg Bool.false_ne_true]
    · have hpower := exec_powerOn_justReset s
      rwa [hnv] at hpower
  · obtain ⟨t, hexec, hreset, hjust, -⟩ := exec_powerOn_justReset s
    exact ⟨⟨t, hexec, hreset, hjust⟩, fun hlow => ⟨_, exec_resetN_long hlow s, pinReset_justReset s⟩,
      exec_functionLevelReset_open, fun hsafe => resetWith_safe hsafe 2 .startup, resetWith_justReset s 2 (.inr rfl)⟩
  · have hwrite (field : ConfigField) := exec_configSpaceWrite_open hphase hlink field v
    refine ⟨hwrite .maxPayload, hwrite .maxReadRequest, hwrite .tag14, hwrite .aerStatus, hwrite (.bar i),
      hwrite .relaxedOrdering, hwrite .completionTimeout, hwrite .msixEnable, hwrite .msixMask, firePending_frozen, fun hv => ?_⟩
    rw [hwrite, configWrite_noFlr s hv]

end Sys2Proof.Machine
end

section
/-! The flow table: the buckets that a lookup reads, the free list of context indices, and the flow stage of a pass, its lookup, the
insert port and the relocator (R130-R135, R138). -/

namespace Sys2Proof.Machine

/-! ## The buckets of a lookup (R138) -/

/-- A key's two buckets in a set, way 0 first: set, way, bucket and fingerprint. -/
def SetSeeds.bucketPair (v : SetSeeds) (ks : Nat) (key : List Byte) : List (Nat × Nat × Nat × Nat) :=
  [(v.set, 0, v.bucket ks key 0, v.fp ks key), (v.set, 1, v.bucket ks key 1, v.fp ks key)]

/-- The cursor of a rehash has passed both buckets of a key in the old set. -/
def State.cursorPast (s : State) (ks : Nat) (key : List Byte) : Prop :=
  s.oldSet.bucket ks key 0 < s.get F.WH_FT_CURSOR ∧ s.oldSet.bucket ks key 1 < s.get F.WH_FT_CURSOR

section
variable {s : State} {ks : Nat} {key : List Byte}

theorem lookupBuckets_settled (h : s.rehashing = false) : s.lookupBuckets ks key = s.oldSet.bucketPair ks key := by
  simp [State.lookupBuckets, SetSeeds.bucketPair, h]

theorem lookupBuckets_rehashing_past (h : s.rehashing = true) (hpast : s.cursorPast ks key) :
    s.lookupBuckets ks key = s.newSet.bucketPair ks key := by
  obtain ⟨hway0, hway1⟩ := hpast
  simp [State.lookupBuckets, SetSeeds.bucketPair, h, hway0, hway1]

theorem lookupBuckets_rehashing_notPast (h : s.rehashing = true) (hpast : ¬s.cursorPast ks key) :
    s.lookupBuckets ks key = s.newSet.bucketPair ks key ++ s.oldSet.bucketPair ks key := by
  have hbelow : (decide (s.oldSet.bucket ks key 0 < s.get F.WH_FT_CURSOR)
      && decide (s.oldSet.bucket ks key 1 < s.get F.WH_FT_CURSOR)) = false := by
    simpa [State.cursorPast] using hpast
  simp [State.lookupBuckets, SetSeeds.bucketPair, h, hbelow]

end

/-- Settles O25: the buckets of a lookup, by whether a rehash is in progress and whether its cursor has passed both old buckets. -/
theorem rehashLookups : Obligations.RehashLookups := by
  unfold Obligations.RehashLookups
  intro s ks key
  exact ⟨lookupBuckets_rehashing_notPast, lookupBuckets_rehashing_past, lookupBuckets_settled⟩

/-! ## The free list of context indices (R132) -/

section
variable {s : State} {i c : Nat} {rest : List (Nat × Nat)}

/-- Once every index has been used, the next one is the one freed longest ago, when it has rested for 4,096 cycles. -/
theorem nextIndex_freed (hfresh : 8388608 ≤ s.flow.fresh) (hfreed : s.flow.freed = (i, c) :: rest) :
    s.nextIndex = if c + 4096 ≤ s.clk.cycle then some i else none := by
  simp [State.nextIndex, Nat.not_lt.2 hfresh, hfreed]

theorem takeIndex_freed (hfresh : 8388608 ≤ s.flow.fresh) (hfreed : s.flow.freed = (i, c) :: rest) :
    s.takeIndex.flow.freed = rest := by
  simp [State.takeIndex, Nat.not_lt.2 hfresh, hfreed]

end

@[simp] theorem freeIndex_freed (s : State) (j : Nat) : (s.freeIndex j).flow.freed = s.flow.freed ++ [(j, s.clk.cycle)] := rfl

/-- Settles O26: the free list is taken from its front, which must have rested, and grows at its end. -/
theorem freedIndicesRest : Obligations.FreedIndicesRest := by
  unfold Obligations.FreedIndicesRest
  intro s i c rest hfresh hfreed
  refine ⟨fun hresting => ?_, fun hrested => ⟨?_, takeIndex_freed hfresh hfreed⟩, freeIndex_freed s⟩
  · rw [nextIndex_freed hfresh hfreed, if_neg (Nat.not_le.2 hresting)]
  · rw [nextIndex_freed hfresh hfreed, if_pos hrested]

/-! ## The lookup of a pass (R130) -/

theorem exec_flowLookup_live {s : State} (h : s.live = true) (r : PassRef) : exec (.flowLookup r) s = .next (s.flowLookup r) :=
  whenLive_true h fun s => s.flowLookup r

/-- The core cycle at which a pass's lookup is over: its 27 or 52 cycles have passed, and no move lock holds its context. -/
def State.lookupDue (s : State) (p : Pass) : Nat :=
  let found := p.key.map fun key => (s.lookup p.keyspace key).2
  let takes := if found == some .miss && s.on F.WH_FT_CTRL_LEARN then 27 else 52
  let lock := match found with
    | some (.hit i) | some (.poisoned i) => s.lockEnd i
    | _ => 0
  max (p.dealt + 12 + takes) lock

/-- The pass that comes next is looked up when its lookup is over, if no boundary comes first. -/
theorem flowLookup_next {s : State} {r : PassRef} {p : Pass} {ps : List Pass} (horder : s.lookupOrder = p :: ps)
    (hp : p.is r = true) : s.flowLookup r = match s.reach (s.lookupDue p) with
      | none => s
      | some u => (u.giveWay wellheadUse (u.rungKey p.link) u.clk.cycle 1).lookupPass p := by
  simp only [State.flowLookup, horder, hp, Bool.not_true, Bool.false_eq_true, if_false]
  rfl

theorem flowLookup_reached {s u : State} {r : PassRef} {p : Pass} {ps : List Pass} (horder : s.lookupOrder = p :: ps)
    (hp : p.is r = true) (hreach : s.reach (s.lookupDue p) = some u) :
    s.flowLookup r = (u.giveWay wellheadUse (u.rungKey p.link) u.clk.cycle 1).lookupPass p := by
  rw [flowLookup_next horder hp, hreach]

section
variable {u t : State} {p : Pass} {key : List Byte}

theorem lookupPass_noKey (hkey : ((u.senderStep p).current p).key = none) :
    u.lookupPass p = (u.senderStep p).noCtx ((u.senderStep p).current p) := by
  simp only [State.lookupPass, hkey]

theorem lookupPass_hit {i : Nat} (hkey : ((u.senderStep p).current p).key = some key)
    (hfound : (u.senderStep p).lookup ((u.senderStep p).current p).keyspace key = (t, .hit i)) :
    u.lookupPass p = t.hitCtx ((u.senderStep p).current p) i := by
  simp only [State.lookupPass, hkey, hfound]

theorem lookupPass_miss (hkey : ((u.senderStep p).current p).key = some key)
    (hfound : (u.senderStep p).lookup ((u.senderStep p).current p).keyspace key = (t, .miss)) :
    u.lookupPass p = if t.on F.WH_FT_CTRL_LEARN then
        t.putPass { (u.senderStep p).current p with flow := .waitPort, waitFrom := ((u.senderStep p).current p).dealt + 40 }
      else t.noCtx ((u.senderStep p).current p) := by
  simp only [State.lookupPass, hkey, hfound]

end

/-! ## The insert port (R131, R133) -/

theorem exec_flowInsertPort_live {s : State} (h : s.live = true) : exec .flowInsertPort s = .next s.flowInsertPort :=
  whenLive_true h _

theorem exec_insertWaitTimeout_live {s : State} (h : s.live = true) (r : PassRef) :
    exec (.insertWaitTimeout r) s = .next (s.insertTimeout r) := whenLive_true h fun s => s.insertTimeout r

/-- The port, not full in this cycle, takes the pass that has waited longest. -/
theorem flowInsertPort_first {s : State} {p : Pass} {ps : List Pass} (hwaiting : s.waiting .waitPort = p :: ps)
    (hfrom : p.waitFrom ≤ s.clk.cycle) (hroom : s.flow.portCycle ≠ s.clk.cycle ∨ s.flow.portCount < 4) :
    s.flowInsertPort = { s with flow := { s.flow with
      portCycle := s.clk.cycle
      portCount := if s.flow.portCycle = s.clk.cycle then s.flow.portCount + 1 else 1 } }.portStep p := by
  have hnotFull : (s.flow.portCycle == s.clk.cycle && decide (4 ≤ s.flow.portCount)) = false := by
    rcases hroom with hcycle | hcount
    · simp [hcycle]
    · simp [Nat.not_le.2 hcount]
  have hnow : s.reach (max p.waitFrom s.clk.cycle) = some s := reach_now s _ (by omega)
  simp only [State.flowInsertPort, hwaiting, hnotFull, Bool.false_eq_true, if_false, hnow]

section
variable {s : State} {r : PassRef} {p : Pass} (hpass : s.pass? r = some p) (hlong : p.waitFrom + 65 ≤ s.clk.cycle)
include hpass hlong

theorem insertTimeout_port (hflow : p.flow = .waitPort) :
    s.insertTimeout r = (s.bump F.WH_FT_INSERT_BUSY).noCtx p := by
  simp [State.insertTimeout, hpass, hflow, reach_now s _ hlong]

theorem insertTimeout_relocator (hflow : p.flow = .waitReloc) (hserved : s.served p = false) :
    s.insertTimeout r = (s.bump F.WH_FT_RELOC_BUSY).noCtx p := by
  simp [State.insertTimeout, hpass, hflow, hserved, reach_now s _ hlong]

end

/-! ## The relocator (R131, R134, R135) -/

theorem exec_relocationChain_live {s : State} (h : s.live = true) : exec .relocationChain s = .next s.relocate :=
  whenLive_true h _

/-- A free relocator takes up the miss that has waited longest. -/
theorem relocate_free {s : State} {p : Pass} {ps : List Pass} (hfree : s.flow.chain = none)
    (hwaiting : s.waiting .waitReloc = p :: ps) (hfrom : p.waitFrom ≤ s.clk.cycle) : s.relocate = s.takeMiss p := by
  simp only [State.relocate, hfree, hwaiting, reach_now s _ hfrom]

theorem relocate_due {s : State} {c : Chain} (hchain : s.flow.chain = some c) (hdue : c.due ≤ s.clk.cycle) :
    s.relocate = s.chainStep := by
  simp only [State.relocate, hchain, reach_now s _ hdue]

section
variable {s s1 : State} {p : Pass}

theorem takeMiss_slotFree {pos : SlotPos} (h : s.freeSlot s.insertSet p.keyspace (p.key.getD []) = (s1, some pos)) :
    s.takeMiss p = s1.chainDone p pos := by
  simp only [State.takeMiss, h]

theorem takeMiss_noSlot (h : s.freeSlot s.insertSet p.keyspace (p.key.getD []) = (s1, none)) :
    s.takeMiss p = s1.startChain p := by
  simp only [State.takeMiss, h]

end

/-- The chain granted to a pass in a set, its plan over at core cycle `now`: 25 cycles for each victim (log 24). -/
def Chain.granted (p : Pass) (set now : Nat) (victims : List SlotPos) (dst : Option SlotPos) : Chain :=
  { pass := p, set := set, victims := victims, dst := dst, due := now + 25 * victims.length
    moves := (dst.map (chainMoves victims)).getD [] }

/-- No register's field lies in the flow part of the state. -/
theorem on_withFlow (s : State) (flow : Flow) (f : Fld) : { s with flow := flow }.on f = s.on f := rfl

section
variable {s s2 : State} {p : Pass} {vs : List SlotPos} {dst : Option SlotPos}
  (hplan : s.planChain s.insertSet.set 16 1 (s.insertSet.fp p.keyspace (p.key.getD [])) 0
    (s.insertSet.b0 p.keyspace (p.key.getD [])) [] = (s2, vs, dst))
include hplan

/-- Where a plan has been made, its chain is granted. Checking `startChain` against its body would run the plan in the kernel: the body
is taken for the constant alone, and the plan made a variable, before the two meet. -/
theorem startChain_planned : s.startChain p = { s2.putB F.WH_FT_STATUS_RELOC_BUSY true with flow := { s2.flow with
    chain := some (Chain.granted p s.insertSet.set s2.clk.cycle vs dst) } } := by
  generalize hbody : State.startChain = body
  delta State.startChain at hbody
  refine (congrFun (congrFun hbody.symm s) p).trans ?_
  extract_lets v key
  generalize hmade : s.planChain v.set 16 1 (v.fp p.keyspace key) 0 (v.b0 p.keyspace key) [] = plan
  obtain rfl : plan = (s2, vs, dst) := hmade.symm.trans hplan
  rfl

theorem startChain_chain : (s.startChain p).flow.chain = some (Chain.granted p s.insertSet.set s2.clk.cycle vs dst) := by
  rw [startChain_planned hplan]

theorem startChain_busy : (s.startChain p).on F.WH_FT_STATUS_RELOC_BUSY = true := by
  rw [startChain_planned hplan, on_withFlow, on_putB_same _ _ _ rfl (by decide)]

end

theorem endChain_idle (s : State) : s.endChain.on F.WH_FT_STATUS_RELOC_BUSY = false := by
  rw [State.endChain, on_withFlow, on_putB_same _ _ _ rfl (by decide)]

/-- A chain after the copy, in core cycle `now`, of slot `v` by move `m`: a moved context is locked for 8 cycles. -/
def Chain.copied (c : Chain) (now v : Nat) (m : SlotPos × SlotPos) (ms : List (SlotPos × SlotPos)) : Chain :=
  { c with
    moves := ms
    due := now + 8
    lock := if slotValid v then some (slotIndex v, now + 8, posRef c.set m.2) else none
    last := some m.1 }

theorem copied_locks_iff (c : Chain) (now v : Nat) (m : SlotPos × SlotPos) (ms : List (SlotPos × SlotPos)) :
    (c.copied now v m ms).lock.isSome = true ↔ slotValid v = true := by
  unfold Chain.copied
  cases slotValid v <;> simp

section
variable {s : State} {c : Chain} (hchain : s.endLock.flow.chain = some c)
include hchain

theorem chainStep_failed (hdst : c.dst = none) :
    s.chainStep = s.endLock.endChain.chainFailed (s.endLock.current c.pass) := by
  simp only [State.chainStep, hchain, hdst]

theorem chainStep_move {m : SlotPos × SlotPos} {ms : List (SlotPos × SlotPos)} (hdst : c.dst ≠ none) (hmoves : c.moves = m :: ms) :
    s.chainStep.flow.chain
      = some (c.copied (s.endLock.copySlot c.set m).1.clk.cycle (s.endLock.copySlot c.set m).2 m ms) := by
  obtain ⟨pos, hpos⟩ := Option.ne_none_iff_exists'.1 hdst
  simp only [State.chainStep, hchain, hpos, hmoves, Chain.copied]

theorem chainStep_done (hdst : c.dst ≠ none) (hmoves : c.moves = []) :
    s.chainStep = (s.endLock.endChain.wrPos c.set (c.victims.headD (0, 0, 0)) 0).chainDone (s.endLock.current c.pass)
      (c.victims.headD (0, 0, 0)) := by
  obtain ⟨pos, hpos⟩ := Option.ne_none_iff_exists'.1 hdst
  simp only [State.chainStep, hchain, hpos, hmoves]

end

/-- Settles O24: the lookup, the insert port and the relocator, each by its own lemmas above. -/
theorem passesGoThroughTheFlowStage : Obligations.PassesGoThroughTheFlowStage := by
  unfold Obligations.PassesGoThroughTheFlowStage
  intro s r p ps hlive
  refine ⟨fun horder hp u hreach => ?_, fun u => ⟨lookupPass_noKey, fun key t i => lookupPass_hit, fun key t => lookupPass_miss⟩,
    fun hwaiting hfrom hroom => ?_, fun hpass hflow hlong => ?_, fun hpass hflow hserved hlong => ?_,
    fun hfree hwaiting hfrom s1 => ?_, fun s2 vs dst v key hv hkey hplan => ?_, fun c hchain hdue => ?_, fun c hchain => ?_,
    endChain_idle s, rfl⟩
  · rw [exec_flowLookup_live hlive, flowLookup_reached horder hp hreach]
  · rw [exec_flowInsertPort_live hlive, flowInsertPort_first hwaiting hfrom hroom]
  · rw [exec_insertWaitTimeout_live hlive, insertTimeout_port hpass hlong hflow]
  · rw [exec_insertWaitTimeout_live hlive, insertTimeout_relocator hpass hlong hflow hserved]
  · rw [exec_relocationChain_live hlive, relocate_free hfree hwaiting hfrom]
    exact ⟨fun pos hslot => congrArg _ (takeMiss_slotFree hslot), fun hslot => congrArg _ (takeMiss_noSlot hslot)⟩
  · subst hv hkey
    exact ⟨_, startChain_chain hplan, rfl, rfl, rfl, rfl, rfl, rfl, rfl, startChain_busy hplan⟩
  · rw [exec_relocationChain_live hlive, relocate_due hchain hdue]
  · refine ⟨chainStep_failed hchain, fun m ms hdst hmoves => ?_, chainStep_done hchain⟩
    exact ⟨_, chainStep_move hchain hdst hmoves, rfl, rfl, rfl, copied_locks_iff _ _ _ _ _⟩

end Sys2Proof.Machine
end

section
/-! The loads, the policer, capture and route commands: what each does where nothing refuses it (R169, R194, R213, R273, R278, R374). -/

namespace Sys2Proof.Machine

/-! ## A source that no window refuses (R86) -/

/-- A command's `n` bytes of source are granted: they lie in device memory, or the windows grant them in host memory. -/
def State.grantsSource (t : State) (c : List Byte) (n : Nat) : Prop :=
  byteAt c 24 ≠ 0 ∨ t.grant [(false, fieldAt c 16 8, n)] = none

theorem grant_nil (t : State) : t.grant [] = none := by
  simp [State.grant]

section
variable {t : State} {c : List Byte} {n : Nat} (h : t.grantsSource c n)
include h

/-- No refusal comes of the check of a granted source, as the loads, POLICER_WRITE and CAP_MAP_LOAD make it. -/
theorem grantsSource_check : (if byteAt c 24 = 0 then t.grant [(false, fieldAt c 16 8, n)] else none) = none := by
  split
  case isTrue hhost => exact h.resolve_left (not_not_intro hhost)
  case isFalse => rfl

/-- No refusal comes of the check of a granted source, as ROUTE_WRITE makes it. -/
theorem grantsSource_ranges : t.grant (if byteAt c 24 = 0 then [(false, fieldAt c 16 8, n)] else []) = none := by
  split
  case isTrue hhost => exact h.resolve_left (not_not_intro hhost)
  case isFalse => exact grant_nil t

end

/-! ## RULE_LOAD and ENS_LOAD (R169) -/

/-- An image that was read unmarked and that its sections pass goes into the staging bank. -/
theorem loadBank_loads {t u : State} {c : List Byte} {b : BankKind} {ws : List (List Byte × Bool)}
    (hsource : t.grantsSource c (fieldAt c 28 4)) (hfree : t.stagingBusy b = false)
    (hread : t.readSpace (byteAt c 24) (fieldAt c 16 8) (fieldAt c 28 4) = (u, ws)) (hclean : anyMark ws = false)
    (himage : imageStatus b (Memory.write [] 0 (wordBytesOf ws)) (fieldAt c 28 4) = Status.ok) :
    State.loadBank b c t = (u.loadImage b (wordBytesOf ws), Status.ok) := by
  simp [State.loadBank, grantsSource_check hsource, hfree, hread, hclean, himage]

theorem loadBank_busy {t : State} {c : List Byte} {b : BankKind} (hsource : t.grantsSource c (fieldAt c 28 4))
    (hbusy : t.stagingBusy b = true) : State.loadBank b c t = (t, Status.primeBusy) := by
  simp [State.loadBank, grantsSource_check hsource, hbusy]

/-! ## POLICER_WRITE (R213) -/

/-- Entry `i` of the policer entries read from a source. -/
def polSource (ws : List (List Byte × Bool)) (i : Nat) : List Byte := ((wordBytesOf ws).drop (32 * i)).take 32

/-- Entries that were read unmarked, none of them bad, are written one after another. -/
theorem policerWrite_writes {t u : State} {c : List Byte} {ws : List (List Byte × Bool)}
    (hsource : t.grantsSource c (32 * (fieldAt c 30 2 + 1)))
    (hread : t.readSpace (byteAt c 24) (fieldAt c 16 8) (32 * (fieldAt c 30 2 + 1)) = (u, ws)) (hclean : anyMark ws = false)
    (hgood : ((List.range (fieldAt c 30 2 + 1)).any fun i => polBad (polSource ws i)) = false) :
    State.policerWrite c t = ((List.range (fieldAt c 30 2 + 1)).foldl
      (fun v i => v.writePolicer (fieldAt c 28 2 + i) (polSource ws i) (bit (byteAt c 25) 0)) u, Status.ok) := by
  simp only [polSource] at hgood ⊢
  simp only [State.policerWrite, grantsSource_check hsource, hread, hclean, hgood, Bool.false_eq_true, if_false]

/-! ## CAP_CTRL and CAP_MAP_LOAD (R273, R278, R279) -/

theorem tblEffect_capCtrl (c : List Byte) (t : State) : tblEffect 0x50 c t = State.capCtrlEffect c t := rfl

theorem tblEffect_capMapLoad (c : List Byte) (t : State) : tblEffect 0x51 c t = State.capMapLoadEffect c t := rfl

/-- A setting whose stroke is not past is pending; the setting in force stays. -/
theorem capCtrl_pends {t : State} {c : List Byte} (h : t.past (fieldAt c 36 8) = false) : State.capCtrlEffect c t
    = ({ t with capture := { t.capture with pendingCfg := some (capSetting c, fieldAt c 36 8) } }, Status.ok) := by
  simp [State.capCtrlEffect, h]

theorem capCtrl_past {t : State} {c : List Byte} (h : t.past (fieldAt c 36 8) = true) :
    State.capCtrlEffect c t = (t, Status.strokePassed) := by
  simp [State.capCtrlEffect, h]

/-- A map that was read unmarked, none of its descriptors bad and its stroke not past, is pending. -/
theorem capMapLoad_pends {t u : State} {c : List Byte} {ws : List (List Byte × Bool)} (hsource : t.grantsSource c 2048)
    (hread : t.readSpace (byteAt c 24) (fieldAt c 16 8) 2048 = (u, ws)) (hclean : anyMark ws = false)
    (hgood : capMapBad (wordBytesOf ws) = false) (hpast : u.past (fieldAt c 25 7) = false) : State.capMapLoadEffect c t
      = ({ u with capture := { u.capture with pendingMap := some (wordBytesOf ws, fieldAt c 25 7, none) } }, Status.ok) := by
  simp [State.capMapLoadEffect, grantsSource_check hsource, hread, hclean, hgood, hpast]

/-! ## ROUTE_WRITE and ROUTE_READ (R374) -/

theorem tblEffect_routeWrite (c : List Byte) (t : State) : tblEffect 0x70 c t = State.routeWrite c t := rfl

theorem tblEffect_routeRead (c : List Byte) (t : State) : tblEffect 0x71 c t = State.routeRead c t := rfl

/-- The route table with `n` entries from `first` on replaced by the bytes of a source: LINK, DATELINE and VALID of each are kept. -/
def routesWritten (routes : SMap Nat) (bs : List Byte) (first n : Nat) : SMap Nat :=
  (List.range n).foldl (fun m i =>
    let v := fieldAt bs (2 * i) 2
    sset 0 m (first + i) (v % 64 + 2 ^ 14 * (v / 2 ^ 14))) routes

/-- Entries that were read unmarked replace their range of the route table. -/
theorem routeWrite_writes {t u : State} {c : List Byte} {ws : List (List Byte × Bool)}
    (hsource : t.grantsSource c (2 * (fieldAt c 30 2 + 1)))
    (hread : t.readSpace (byteAt c 24) (fieldAt c 16 8) (16 * ceilDiv (2 * (fieldAt c 30 2 + 1)) 16) = (u, ws))
    (hclean : anyMark ws = false) : State.routeWrite c t
      = ({ u with routes := routesWritten u.routes (wordBytesOf ws) (fieldAt c 28 2) (fieldAt c 30 2 + 1) }, Status.ok) := by
  simp [State.routeWrite, grantsSource_ranges hsource, hread, hclean, routesWritten]

/-- ROUTE_READ to host memory, where the windows grant it, sends the entries. -/
theorem routeRead_host {t : State} {c : List Byte} (hspace : byteAt c 24 = 0)
    (hgrant : t.grant [(true, fieldAt c 16 8, 2 * (fieldAt c 30 2 + 1))] = none) : State.routeRead c t
      = (t.dataWrite (fieldAt c 16 8)
          ((List.range (fieldAt c 30 2 + 1)).map fun i => natBytes 2 (sget 0 t.routes (fieldAt c 28 2 + i))).flatten, Status.ok) := by
  simp [State.routeRead, hspace, hgrant]

/-! ## The statement -/

/-- Settles O37: each command by the lemma above that says what it does. -/
theorem loadsAndSettings : Obligations.LoadsAndSettings := by
  unfold Obligations.LoadsAndSettings
  intro t c granted
  refine ⟨fun _ _ _ => loadBank_loads, fun _ => loadBank_busy, fun _ _ => policerWrite_writes, fun hpast => ?_, fun hpast => ?_,
    fun u ws hsource hread hclean hgood hpast => ?_, fun u ws hsource hread hclean => ?_, fun hspace hgrant => ?_⟩
  · exact ⟨_, (tblEffect_capCtrl c t).trans (capCtrl_pends hpast), rfl, rfl, rfl⟩
  · rw [tblEffect_capCtrl, capCtrl_past hpast]
  · rw [tblEffect_capMapLoad, capMapLoad_pends hsource hread hclean hgood hpast]
  · rw [tblEffect_routeWrite, routeWrite_writes hsource hread hclean, routesWritten]
  · rw [tblEffect_routeRead, routeRead_host hspace hgrant]

end Sys2Proof.Machine
end

section
/-! Policer buckets: what bringing an entry's buckets up to date leaves in them, and how a frame is coloured (R195-R197). -/

namespace Sys2Proof.Machine

/-- What an entry's CIR has earned by core cycle `now`, in 1/65,536 byte (R195). -/
def Bucket.earnedC (b : Bucket) (e : List Byte) (now : Nat) : Nat := (credit (polCir e) (now - b.last) b.remC).1

/-- What its PIR has. -/
def Bucket.earnedP (b : Bucket) (e : List Byte) (now : Nat) : Nat := (credit (polPir e) (now - b.last) b.remP).1

/-- The charged size of a frame of `len` bytes, in 1/65,536 byte (R195). -/
def polCharge (e : List Byte) (len : Nat) : Nat := 65536 * (len + polOverhead e)

/-- A bucket is filled up to its burst, whatever it is filled with. -/
theorem fillTo_fst (burst : Nat) (v : Int) (rem : Nat) : (fillTo burst v rem).1 = min v ((65536 * burst : Nat) : Int) := by
  unfold fillTo
  split <;> dsimp only <;> omega

/-! ## Buckets brought up to date (R196, R197) -/

section
variable {e : List Byte} (b : Bucket) (now : Nat)

/-- MODE 1 with credit beyond CBS: the overflow goes to the excess bucket. -/
theorem refresh_mode1_overflow (hmode : polMode e = 1) (hover : ((65536 * polCbs e : Nat) : Int) < b.tc + b.earnedC e now) :
    (b.refresh e now).tc = ((65536 * polCbs e : Nat) : Int)
      ∧ ((b.refresh e now).te : Int)
        = min ((65536 * polBurst2 e : Nat) : Int) (b.te + (b.tc + b.earnedC e now - (65536 * polCbs e : Nat))) := by
  have hcond : 65536 * (polCbs e : Int) < b.tc + ((credit (polCir e) (now - b.last) b.remC).1 : Int) := by
    simpa [Bucket.earnedC] using hover
  simp only [Bucket.refresh, hmode, hcond, if_true, fillTo_fst, Bucket.earnedC]
  omega

/-- MODE 1 with credit up to CBS: it stays in the committed bucket. -/
theorem refresh_mode1_within (hmode : polMode e = 1) (hwithin : ¬((65536 * polCbs e : Nat) : Int) < b.tc + b.earnedC e now) :
    (b.refresh e now).tc = b.tc + b.earnedC e now ∧ (b.refresh e now).te = b.te := by
  have hcond : ¬65536 * (polCbs e : Int) < b.tc + ((credit (polCir e) (now - b.last) b.remC).1 : Int) := by
    simpa [Bucket.earnedC] using hwithin
  simp only [Bucket.refresh, hmode, hcond, if_false, Bucket.earnedC, and_self]

theorem refresh_mode1_tc (hmode : polMode e = 1) :
    (b.refresh e now).tc = min (b.tc + b.earnedC e now) ((65536 * polCbs e : Nat) : Int) := by
  by_cases hover : ((65536 * polCbs e : Nat) : Int) < b.tc + b.earnedC e now
  · rw [(refresh_mode1_overflow b now hmode hover).1, Int.min_eq_right (Int.le_of_lt hover)]
  · rw [(refresh_mode1_within b now hmode hover).1, Int.min_eq_left (Int.not_lt.1 hover)]

theorem refresh_mode1_te (hmode : polMode e = 1) :
    ((b.refresh e now).te : Int) = if ((65536 * polCbs e : Nat) : Int) < b.tc + b.earnedC e now
      then min ((65536 * polBurst2 e : Nat) : Int) (b.te + (b.tc + b.earnedC e now - (65536 * polCbs e : Nat))) else b.te := by
  split
  case isTrue hover => exact (refresh_mode1_overflow b now hmode hover).2
  case isFalse hwithin => rw [(refresh_mode1_within b now hmode hwithin).2]

/-- MODE 1 fills neither bucket beyond its burst. -/
theorem refresh_mode1_te_le (hmode : polMode e = 1) (hte : b.te ≤ 65536 * polBurst2 e) :
    (b.refresh e now).te ≤ 65536 * polBurst2 e := by
  have h := refresh_mode1_te b now hmode
  split at h <;> omega

/-- MODE 2 fills its two buckets apart, each up to its burst. -/
theorem refresh_mode2 (hmode : polMode e = 2) :
    (b.refresh e now).tc = min (b.tc + b.earnedC e now) ((65536 * polCbs e : Nat) : Int)
      ∧ (b.refresh e now).te = min (b.te + b.earnedP e now) (65536 * polBurst2 e) := by
  simp only [Bucket.refresh, hmode, fillTo_fst, Bucket.earnedC, Bucket.earnedP, true_and]
  omega

end

/-! ## The colour of a frame (R196, R197) -/

section
variable {e : List Byte} {b : Bucket} {len : Nat}

theorem meter_mode1_green (hmode : polMode e = 1) (hc : (polCharge e len : Int) ≤ b.tc) : b.meter e len
    = ({ b with tc := b.tc - polCharge e len, green := (b.green + 1) % 2 ^ 32 }, .green) := by
  unfold polCharge at hc ⊢
  rw [Bucket.meter, if_pos hmode, if_pos hc]

theorem meter_mode1_yellow (hmode : polMode e = 1) (hc : b.tc < (polCharge e len : Int)) (he : polCharge e len ≤ b.te) :
    b.meter e len = ({ b with te := b.te - polCharge e len, yellow := (b.yellow + 1) % 2 ^ 32 }, .yellow) := by
  unfold polCharge at hc he ⊢
  rw [Bucket.meter, if_pos hmode, if_neg (Int.not_le.2 hc), if_pos he]

theorem meter_mode1_red (hmode : polMode e = 1) (hc : b.tc < (polCharge e len : Int)) (he : b.te < polCharge e len) :
    b.meter e len = ({ b with red := (b.red + 1) % 2 ^ 32 }, .red) := by
  unfold polCharge at hc he
  rw [Bucket.meter, if_pos hmode, if_neg (Int.not_le.2 hc), if_neg (Nat.not_le.2 he)]

theorem meter_mode2_red (hmode : polMode e = 2) (hp : b.te < polCharge e len) :
    b.meter e len = ({ b with red := (b.red + 1) % 2 ^ 32 }, .red) := by
  unfold polCharge at hp
  rw [Bucket.meter, if_neg (by omega), if_pos hp]

theorem meter_mode2_yellow (hmode : polMode e = 2) (hp : polCharge e len ≤ b.te) (hc : b.tc < (polCharge e len : Int)) :
    b.meter e len = ({ b with te := b.te - polCharge e len, yellow := (b.yellow + 1) % 2 ^ 32 }, .yellow) := by
  unfold polCharge at hp hc ⊢
  rw [Bucket.meter, if_neg (by omega), if_neg (Nat.not_lt.2 hp), if_pos hc]

theorem meter_mode2_green (hmode : polMode e = 2) (hp : polCharge e len ≤ b.te) (hc : (polCharge e len : Int) ≤ b.tc) : b.meter e len
    = ({ b with te := b.te - polCharge e len, tc := b.tc - polCharge e len, green := (b.green + 1) % 2 ^ 32 }, .green) := by
  unfold polCharge at hp hc ⊢
  rw [Bucket.meter, if_neg (by omega), if_neg (Nat.not_lt.2 hp), if_neg (Int.not_lt.2 hc)]

end

/-- Settles O31: the buckets by what they are filled with, the colour by what the charged size finds in them. -/
theorem policersMeter : Obligations.PolicersMeter := by
  unfold Obligations.PolicersMeter
  intro e b now len sz cbs top addC addP u m
  refine ⟨fun hmode _ hte => ?_, fun hmode => ?_⟩
  · refine ⟨refresh_mode1_tc b now hmode, refresh_mode1_te b now hmode, ?_, refresh_mode1_te_le b now hmode hte, fun hc => ?_,
      fun hc he => ?_, fun hc he => ?_⟩
    · exact Int.le_trans (Int.le_of_eq (refresh_mode1_tc b now hmode)) (Int.min_le_right _ _)
    · rw [show m = _ from meter_mode1_green hmode hc]
      exact ⟨rfl, rfl, rfl⟩
    · rw [show m = _ from meter_mode1_yellow hmode hc he]
      exact ⟨rfl, rfl, rfl⟩
    · rw [show m = _ from meter_mode1_red hmode hc he]
      exact ⟨rfl, rfl, rfl⟩
  · obtain ⟨htc, hte⟩ := refresh_mode2 b now hmode
    refine ⟨htc, hte, fun hp => ?_, fun hp hc => ?_, fun hp hc => ?_⟩
    · rw [show m = _ from meter_mode2_red hmode hp]
      exact ⟨rfl, rfl, rfl⟩
    · rw [show m = _ from meter_mode2_yellow hmode hp hc]
      exact ⟨rfl, rfl, rfl⟩
    · rw [show m = _ from meter_mode2_green hmode hp hc]
      exact ⟨rfl, rfl, rfl⟩

end Sys2Proof.Machine
end

section
/-! Gate lists from COMMIT to takeover, and the ends of the drop-budget and the origination windows (R202, R206-R209, R403, R404). -/

namespace Sys2Proof.Machine

theorem exec_gclCommit (n : Fin 24) (s : State) :
    exec (.gclCommit n) s = whenWritable s (R.EG_GCL_CTRL n) fun s => s.gclCommit n := rfl

theorem exec_gclValidationDone (n : Fin 24) (s : State) :
    exec (.gclValidationDone n) s = whenLive s fun s => s.gclValidated n := rfl

theorem exec_gateListTakeover (n : Fin 24) (s : State) :
    exec (.gateListTakeover n) s = whenLive s fun s => s.gateTakeover n := rfl

theorem exec_gateEntryChange (n : Fin 24) (s : State) : exec (.gateEntryChange n) s = whenLive s fun s => s.gateChange n := rfl

theorem exec_dropBudgetWindow (s : State) : exec .dropBudgetWindow s = whenLive s State.budgetWindow := rfl

theorem exec_originationWindowEnd (s : State) : exec .originationWindowEnd s = whenLive s State.originEnd := rfl

/-! ## A link's gates, beside its registers -/

@[simp] theorem modGates_gates_same (s : State) (n : Nat) (f : Gates → Gates) : (s.modGates n f).gates n = f (s.gates n) := by
  simp [State.gates, State.modGates, smod]

@[simp] theorem put_gates (s : State) (f : Fld) (v n : Nat) : (s.put f v).gates n = s.gates n := rfl

@[simp] theorem putB_gates (s : State) (f : Fld) (b : Bool) (n : Nat) : (s.putB f b).gates n = s.gates n := rfl

theorem modGates_on (s : State) (n : Nat) (f : Gates → Gates) (g : Fld) : (s.modGates n f).on g = s.on g := on_congr rfl g

theorem on_put_other (s : State) (f g : Fld) (v : Nat) (hg : g.lo + g.w ≤ 32)
    (h : g.reg ≠ f.reg ∨ g.lo + g.w ≤ f.lo ∨ f.lo + f.w ≤ g.lo) : (s.put f v).on g = s.on g :=
  congrArg (· == 1) (get_put_other s f g v hg h)

/-! ## COMMIT and the validation (R207) -/

theorem gclCommit_gates (s : State) (n : Nat) :
    ((s.gclCommit n).gates n).validating = true ∧ ((s.gclCommit n).gates n).oper = (s.gates n).oper := by
  simp [State.gclCommit]

theorem gclCommit_notStaged (s : State) (n : Nat) : (s.gclCommit n).on (F.EG_GCL_STATUS_STAGED n) = false := by
  rw [State.gclCommit, modGates_on, on_put_other _ _ _ _ (by simp) (by simp), on_putB_other _ _ _ _ (by simp) (by simp),
    on_putB_same _ _ _ rfl (by simp)]

theorem gclCommit_notRefused (s : State) (n : Nat) : (s.gclCommit n).on (F.EG_GCL_STATUS_REFUSED n) = false := by
  rw [State.gclCommit, modGates_on, on_put_other _ _ _ _ (by simp) (by simp), on_putB_same _ _ _ rfl (by simp)]

/-- The state with the validation of a link's list over. -/
def State.gclJudged (s : State) (n : Nat) : State := s.modGates n fun g => { g with validating := false }

theorem gclJudged_notValidating (s : State) (n : Nat) : ((s.gclJudged n).gates n).validating = false := by
  simp [State.gclJudged]

section
variable {s : State} {n : Nat} (hvalidating : (s.gates n).validating = true)
include hvalidating

theorem gclValidated_stages (hgood : gclRefusal (s.stagedList n) = none) :
    s.gclValidated n = (s.gclJudged n).putB (F.EG_GCL_STATUS_STAGED n) true := by
  simp [State.gclValidated, hvalidating, hgood, State.gclJudged]

theorem gclValidated_refuses {x : Nat} (hbad : gclRefusal (s.stagedList n) = some x) :
    s.gclValidated n = ((s.gclJudged n).putB (F.EG_GCL_STATUS_REFUSED n) true).put (F.EG_GCL_STATUS_REASON n) x := by
  simp [State.gclValidated, hvalidating, hbad, State.gclJudged]

end

/-! ## The takeover and a gate event (R206, R207, R209) -/

/-- List `l`, started at `st` ns, taken into force: it is pending no more. -/
def State.gatesTaken (s : State) (n : Nat) (l : GateList) (st : Nat) : State :=
  (((s.tagClasses n).modGates n fun g => { g with oper := some (l, st), pending := none }).putB
    (F.EG_GCL_STATUS_PENDING n) false).putB (F.EG_GCL_STATUS_OPER n) (!l.entries.isEmpty)

theorem gatesTaken_gates (s : State) (n : Nat) (l : GateList) (st : Nat) :
    ((s.gatesTaken n l st).gates n).oper = some (l, st) ∧ ((s.gatesTaken n l st).gates n).pending = none := by
  simp [State.gatesTaken]

theorem gatesTaken_notPending (s : State) (n : Nat) (l : GateList) (st : Nat) :
    (s.gatesTaken n l st).on (F.EG_GCL_STATUS_PENDING n) = false := by
  rw [State.gatesTaken, on_putB_other _ _ _ _ (by simp) (by simp), on_putB_same _ _ _ rfl (by simp)]

/-- A pending list whose tick has come takes over, and the classes' heads go by it. -/
theorem gateTakeover_due {s : State} {n : Nat} {l : GateList} {st : Nat} (hpending : (s.gates n).pending = some (l, st))
    (hdue : nsTick st ≤ s.clk.time) : s.gateTakeover n = (s.gatesTaken n l st).newHeads n := by
  simp only [State.gateTakeover, hpending, reachTick_now s _ hdue, State.gatesTaken]

/-- At a gate event of a list with entries the classes' tags are brought up to date. -/
theorem gateChange_reached {s u : State} {n : Nat} {l : GateList} {st : Nat} (hoper : (s.gates n).oper = some (l, st))
    (hentries : l.entries ≠ []) (hreach : s.reachTick (l.at_ st s.clk.time).2.2 = some u) : s.gateChange n = u.tagClasses n := by
  simp [State.gateChange, hoper, hentries, hreach]

/-! ## The windows (R403, R404) -/

/-- Where strokes do not run, a drop-budget window of 250,000 core cycles that is over closes. -/
theorem budgetWindow_over {s : State} (hstopped : s.clk.strokes = false) (hover : s.intake.windowFrom + 250000 ≤ s.clk.cycle) :
    s.budgetWindow = s.closeBudget s.priv := by
  rw [State.budgetWindow, if_neg (by simp [hstopped]), reach_now s _ hover]

/-- An origination window that is over closes. Checking `originEnd` against its body would count down its length in the kernel: the
body is taken for the constant alone, and the window's end reached, before the two meet. -/
theorem originEnd_over {s : State} (hover : s.egress.origFrom + 2500000 ≤ s.clk.cycle) : s.originEnd = s.closeOrigin := by
  generalize hbody : State.originEnd = body
  delta State.originEnd at hbody
  refine (congrFun hbody.symm s).trans ?_
  generalize hreach : s.reach (s.egress.origFrom + 2500000) = t
  obtain rfl : t = some s := hreach.symm.trans (reach_now s _ hover)
  rfl

/-- Settles O33: each gate step and window end by the lemma above that says what it leaves. -/
theorem gateListsAndWindows : Obligations.GateListsAndWindows := by
  unfold Obligations.GateListsAndWindows
  intro s n
  refine ⟨fun htakes => ?_, fun hlive hvalidating hgood => ?_, fun x hlive hvalidating hbad hx => ?_,
    fun l st hlive hpending hdue => ?_, fun l st hlive hoper hentries u hreach => ?_, fun hlive hstopped hover => ?_,
    fun _ => ⟨rfl, rfl, rfl, rfl⟩, fun hlive hover => ?_⟩
  · rw [exec_gclCommit, whenWritable_true htakes]
    obtain ⟨hvalidating, hoper⟩ := gclCommit_gates s n
    exact ⟨_, rfl, hvalidating, gclCommit_notStaged s n, gclCommit_notRefused s n, hoper⟩
  · rw [exec_gclValidationDone, whenLive_true hlive, gclValidated_stages hvalidating hgood]
    exact ⟨_, rfl, gclJudged_notValidating s n, on_putB_same _ _ true rfl (by simp)⟩
  · rw [exec_gclValidationDone, whenLive_true hlive, gclValidated_refuses hvalidating hbad]
    refine ⟨_, rfl, gclJudged_notValidating s n, ?_, (get_put_same _ _ x (by simp)).trans (Nat.mod_eq_of_lt hx)⟩
    rw [on_put_other _ _ _ _ (by simp) (by simp), on_putB_same _ _ true rfl (by simp)]
  · obtain ⟨hoper, hnone⟩ := gatesTaken_gates s n l st
    rw [exec_gateListTakeover, whenLive_true hlive, gateTakeover_due hpending hdue]
    exact ⟨_, rfl, hoper, hnone, gatesTaken_notPending s n l st⟩
  · rw [exec_gateEntryChange, whenLive_true hlive, gateChange_reached hoper hentries hreach]
  · rw [exec_dropBudgetWindow, whenLive_true hlive, budgetWindow_over hstopped hover]
  · rw [exec_originationWindowEnd, whenLive_true hlive, originEnd_over hover]

end Sys2Proof.Machine
end

section
/-! The commands of the array, the vector units, the tree units and the pump: when each completes, and what COPY does by its spaces
and by what the windows grant (R75, R76, R86, R183, R232-R241, R255-R268, R286, R373, R374). -/

namespace Sys2Proof.Machine

theorem exec_matmul (q : Fin 16) (faults : List (Fin 4 × List Nat)) (s : State) :
    exec (.matmul q faults) s = whenLive s fun s => s.matRun q 0x11 faults := rfl

theorem exec_conv (q : Fin 16) (faults : List (Fin 4 × List Nat)) (s : State) :
    exec (.conv q faults) s = whenLive s fun s => s.matRun q 0x12 faults := rfl

theorem exec_move (q : Fin 16) (s : State) : exec (.move q) s
    = whenLive s fun s => s.runOp q 0x13 (fun c _ => some (ceilDiv (fieldAt c 32 4) 512)) (State.moveRun q none) := rfl

theorem exec_quant (q : Fin 16) (s : State) : exec (.quant q) s = whenLive s fun s => s.vecCommand q 0x10 := rfl

theorem exec_requant (q : Fin 16) (s : State) : exec (.requant q) s = whenLive s fun s => s.vecCommand q 0x11 := rfl

theorem exec_map (q : Fin 16) (s : State) : exec (.map q) s = whenLive s fun s => s.vecCommand q 0x12 := rfl

theorem exec_reduce (q : Fin 16) (s : State) : exec (.reduce q) s = whenLive s fun s => s.vecCommand q 0x13 := rfl

theorem exec_ensembleRun (q : Fin 16) (s : State) : exec (.ensembleRun q) s
    = whenLive s fun s => s.runOp (32 + q) 0x10 ensembleCycles State.ensembleRun := rfl

theorem exec_copy (q : Fin 80) (stores : List (Nat × List Byte)) (s : State) :
    exec (.copy q stores) s = execCopy q stores s := rfl

theorem exec_transpose (q : Fin 80) (s : State) : exec (.transpose q) s
    = whenLive s fun s => if q / 16 = 3 then s.runOp q 0x11 transposeTime State.transpose else s := rfl

/-! ## Completion, whether or not the spec gives a length (R32) -/

section
variable {s : State} {q op : Nat} {c : List Byte} {r : Run} {dur : List Byte → State → Option Nat}

/-- Of a length function a run uses only the length it gives the running command. -/
theorem runOp_congr_dur {dur' : List Byte → State → Option Nat} (hrun : s.running q op = some (c, r)) (hdur : dur c s = dur' c s)
    (eff : List Byte → State → State × Nat) : s.runOp q op dur eff = s.runOp q op dur' eff := by
  unfold State.runOp
  simp only [hrun, hdur]

theorem runOp_due (h : CanComplete s q op (s.cyclesDue q r (dur c s)) c r) (eff : List Byte → State → State × Nat) :
    (.next (s.runOp q op dur eff) : Res) = s.finish q (s.cyclesDue q r (dur c s)) c r eff := by
  cases hdur : dur c s with
  | some n =>
    rw [hdur] at h
    exact runOp_timed hdur h eff
  | none =>
    rw [hdur] at h
    rw [runOp_congr_dur (dur' := openTime) h.run hdur]
    exact runOp_openTime h eff

/-- An instruction that runs its queue's command completes it when its cycles have passed. -/
theorem exec_due {i : Instr} {eff : List Byte → State → State × Nat} (hexec : exec i s = whenLive s fun s => s.runOp q op dur eff)
    (h : CanComplete s q op (s.cyclesDue q r (dur c s)) c r) :
    exec i s = s.finish q (s.cyclesDue q r (dur c s)) c r eff := by
  rw [hexec, whenLive_true h.live, runOp_due h]

end

/-! ## MATMUL and CONV that no mismatch strikes (R237, R242) -/

theorem faultsFail_nil (s : State) (p i : Nat) : s.faultsFail p [] i = false := rfl

theorem matTime_unstruck {faults : List (Fin 4 × List Nat)} {c : List Byte} (h : faultsOn faults c = []) (p : Nat) (s : State) :
    matTime p faults c s = some (matCycles c) := by
  simp [matTime, h, faultsFail_nil]

theorem matEffect_unstruck {faults : List (Fin 4 × List Nat)} {c : List Byte} (h : faultsOn faults c = []) (p : Nat) (s : State) :
    State.matEffect p faults c s = s.matFinish p (fun _ => .exact) false c := by
  simp [State.matEffect, h, faultsFail_nil]

/-! ## When COPY and TRANSPOSE run (R76, R286, R373) -/

/-- The model divides the queue's index, the statement its value. -/
theorem dmaQueue_iff {q : Fin 80} : q / 16 = 3 ↔ q.val / 16 = 3 := Fin.ext_iff

section
variable {s : State} {q : Fin 80} {c : List Byte} {r : Run} {stores : List (Nat × List Byte)}

/-- A queue that runs COPY, after the host's own stores: a DMA queue whose copy need not wait does its work. -/
theorem exec_copy_running (hrun : (s.hostStores stores).running q 0x10 = some (c, r)) :
    exec (.copy q stores) s = whenLive (s.hostStores stores) fun _ =>
      if q / 16 = 3 && !(s.hostStores stores).copyWaits c then (s.hostStores stores).runOp q 0x10 openTime State.copy
      else s.hostStores stores := by
  simp only [exec_copy, execCopy, whenLive, hrun]

theorem exec_copy_runs (hdma : q.val / 16 = 3) (hready : (s.hostStores stores).copyWaits c = false)
    (h : CanComplete (s.hostStores stores) q 0x10 (leastCycles r) c r) :
    exec (.copy q stores) s = (s.hostStores stores).finish q (leastCycles r) c r State.copy := by
  rw [exec_copy_running h.run, whenLive_true h.live, if_pos (by simp [dmaQueue_iff, hdma, hready])]
  exact runOp_openTime h _

theorem exec_copy_waits (hwaits : (s.hostStores stores).copyWaits c = true)
    (hrun : (s.hostStores stores).running q 0x10 = some (c, r)) : exec (.copy q stores) s = .next (s.hostStores stores) := by
  rw [exec_copy_running hrun]
  exact whenLive_same (if_neg (by simp [hwaits]))

end

/-- Only a DMA queue runs COPY: on another the host's own stores are all that changes. -/
theorem exec_copy_notDma {q : Fin 80} (h : q.val / 16 ≠ 3) (stores : List (Nat × List Byte)) (s : State) :
    exec (.copy q stores) s = .next (s.hostStores stores) := by
  cases hrun : (s.hostStores stores).running q 0x10 with
  | none =>
    rw [exec_copy]
    exact whenLive_same (by simp only [hrun])
  | some run =>
    rw [exec_copy_running hrun]
    exact whenLive_same (if_neg (by simp [dmaQueue_iff, h]))

theorem exec_transpose_dma {q : Fin 80} (h : q.val / 16 = 3) (s : State) :
    exec (.transpose q) s = whenLive s fun s => s.runOp q 0x11 transposeTime State.transpose := by
  simp only [exec_transpose, dmaQueue_iff, h, if_true]

theorem exec_transpose_notDma {q : Fin 80} (h : q.val / 16 ≠ 3) (s : State) : exec (.transpose q) s = .next s := by
  rw [exec_transpose]
  exact whenLive_same (if_neg fun hdma => h (dmaQueue_iff.1 hdma))

/-! ## What COPY does (R75, R86, R374) -/

/-- The check of a copy's two ends against the windows, of each that lies in host memory. -/
def State.copyGrant (t : State) (c : List Byte) : Option State :=
  t.grant ((if byteAt c 36 = 0 then [(false, fieldAt c 16 8, fieldAt c 32 4)] else [])
    ++ if t.copyLocal c = 0 then [(true, fieldAt c 24 8, fieldAt c 32 4)] else [])

/-- A copy's signal: one to this device's own number adds to the float it names. -/
def State.copySignal (t : State) (c : List Byte) : State :=
  if byteAt c 37 = 3 ∧ bit (fieldAt c 44 4) 31 = true then t.addFloat (fieldAt c 44 4 % 2 ^ 17) (fieldAt c 42 2) else t

section
variable {t u : State} {c : List Byte}

theorem copy_refused (hgrant : t.copyGrant c = some u) : State.copy c t = (u, Status.dmaFault) := by
  unfold State.copyGrant at hgrant
  simp [State.copy, hgrant]

theorem copy_noRoute (hgrant : t.copyGrant c = none) (haway : t.copyLocal c = 3) (hroute : t.copyRoute c = none) :
    State.copy c t = (t, Status.unreachable) := by
  simp only [State.copyGrant, haway] at hgrant
  simp only [State.copy, haway, hgrant, hroute, if_true]

/-- Ends in different spaces do not overlap: every word read is written. -/
theorem copy_apart {ws : List (List Byte × Bool)} (hgrant : t.copyGrant c = none) (hhere : t.copyLocal c ≠ 3)
    (hapart : byteAt c 36 ≠ t.copyLocal c)
    (hread : t.readSpace (byteAt c 36) (fieldAt c 16 8) (fieldAt c 32 4) = (u, ws)) :
    State.copy c t = ((u.writeSpace (t.copyLocal c) (fieldAt c 24 8) ws).1.copySignal c,
      if (u.writeSpace (t.copyLocal c) (fieldAt c 24 8) ws).2
          || (byteAt c 36 == 2 && t.lostUnder (fieldAt c 16 8) (fieldAt c 32 4)) then Status.poison else Status.ok) := by
  unfold State.copyGrant at hgrant
  simp [State.copy, State.copySignal, hgrant, hhere, hapart, hread]

/-- A copy whose source in host memory the windows refuse trips valve 4 with the lowest refused address. -/
theorem copyGrant_sourceRefused {a : Nat} (hsource : byteAt c 36 = 0) (hdest : t.copyLocal c ≠ 0) (hungranted : t.host.granted = false)
    (hrefused : t.dmaRefused false (fieldAt c 16 8) (fieldAt c 32 4) = some a) : t.copyGrant c = some (t.trip 4 0 a) := by
  simp [State.copyGrant, State.grant, hsource, hdest, hungranted, hrefused]

end

/-- Settles O40: the engines' commands are each a `runOp` of their length; COPY's effect by its windows, its route and its spaces. -/
theorem engineCommandsComplete : Obligations.EngineCommandsComplete := by
  unfold Obligations.EngineCommandsComplete
  refine ⟨fun s q c r faults => ⟨exec_due (exec_matmul q faults s), exec_due (exec_conv q faults s),
      fun h => ⟨matTime_unstruck h q s, matEffect_unstruck h q s⟩, exec_due (exec_move q s), exec_due (exec_quant q s),
      exec_due (exec_requant q s), exec_due (exec_map q s), exec_due (exec_reduce q s), exec_due (exec_ensembleRun q s)⟩,
    fun s q c r stores => ⟨exec_copy_runs, exec_copy_waits, fun hdma => exec_due (exec_transpose_dma hdma s),
      fun hother => ⟨exec_copy_notDma hother stores s, exec_transpose_notDma hother s⟩⟩,
    fun t c => ⟨fun hgrant hhere hapart u ws hread => copy_apart hgrant hhere hapart hread, copy_noRoute,
      fun u hgrant => copy_refused hgrant, fun a => copyGrant_sourceRefused⟩⟩

end Sys2Proof.Machine
end

section
/-! The sequence context commands: what CTX_OPEN, CTX_CLOSE, CTX_READ and CTX_ADVANCE do to the table of contexts (R280, R281). -/

namespace Sys2Proof.Machine

/-! ## A sparse table with several entries passed through one function -/

section
variable {α : Type} [DecidableEq α]

theorem sget_smod (d : α) (m : SMap α) (k j : Nat) (f : α → α) :
    sget d (smod d m k f) j = if j = k then f (sget d m j) else sget d m j := by
  unfold smod
  rw [sget_sset]
  split
  case isTrue hjk => rw [hjk]
  case isFalse => rfl

/-- A sparse table with the entries `ks` passed through `f`, one after another. -/
def smodAll (d : α) (m : SMap α) (ks : List Nat) (f : α → α) : SMap α :=
  ks.foldl (fun m k => smod d m k f) m

/-- Of keys that do not repeat, each is passed through `f` once; an entry not among them stays. -/
theorem sget_smodAll (d : α) (f : α → α) {ks : List Nat} (hks : ks.Nodup) (m : SMap α) (j : Nat) :
    sget d (smodAll d m ks f) j = if j ∈ ks then f (sget d m j) else sget d m j := by
  induction ks generalizing m with
  | nil => rfl
  | cons k ks ih =>
    obtain ⟨hk, hks⟩ := List.nodup_cons.1 hks
    have hrest : sget d (smodAll d m (k :: ks) f) j
        = if j ∈ ks then f (sget d (smod d m k f) j) else sget d (smod d m k f) j := ih hks (smod d m k f)
    rw [hrest, sget_smod]
    by_cases hjk : j = k
    · subst hjk; simp [hk]
    · simp [hjk]

end

/-! ## The contexts of a range -/

/-- The state with the contexts `is` passed through `f`. -/
def State.modCtxs (t : State) (is : List Nat) (f : SeqCtx → SeqCtx) : State :=
  { t with seqs := smodAll {} t.seqs is f }

/-- Contexts changed one after another in the state are changed in its table alone. -/
theorem foldl_smod_seqs (f : SeqCtx → SeqCtx) (is : List Nat) (t : State) :
    is.foldl (fun (t : State) i => { t with seqs := smod {} t.seqs i f }) t = t.modCtxs is f := by
  induction is generalizing t with
  | nil => rfl
  | cons i is ih => exact ih _

/-- A range names no context twice. -/
theorem ctxRange_nodup (c : List Byte) : (ctxRange c).Nodup :=
  List.Pairwise.map (byteAt c 16 + ·) (fun _ _ hne heq => hne (Nat.add_left_cancel heq)) List.nodup_range

section
variable (t : State) (c : List Byte) (f : SeqCtx → SeqCtx) {i : Nat}

theorem modCtxs_ctxRange_mem (h : i ∈ ctxRange c) :
    sget {} (t.modCtxs (ctxRange c) f).seqs i = f (sget {} t.seqs i) :=
  (sget_smodAll {} f (ctxRange_nodup c) t.seqs i).trans (if_pos h)

theorem modCtxs_ctxRange_notMem (h : i ∉ ctxRange c) :
    sget {} (t.modCtxs (ctxRange c) f).seqs i = sget {} t.seqs i :=
  (sget_smodAll {} f (ctxRange_nodup c) t.seqs i).trans (if_neg h)

end

/-! ## The four commands -/

section
variable {t : State} {c : List Byte}

theorem tblEffect_ctxOpen (c : List Byte) (t : State) : tblEffect 0x52 c t = State.ctxOpenEffect c t := rfl

theorem tblEffect_ctxClose (c : List Byte) (t : State) : tblEffect 0x53 c t = State.ctxCloseEffect c t := rfl

theorem tblEffect_ctxRead (c : List Byte) (t : State) : tblEffect 0x54 c t = State.ctxReadEffect c t := rfl

theorem tblEffect_ctxAdvance (c : List Byte) (t : State) : tblEffect 0x55 c t = State.ctxAdvanceEffect c t := rfl

/-- The context a CTX_OPEN makes on model bank `b`: COLD, with no history taken in. -/
def State.openedCtx (t : State) (c : List Byte) (b : Nat) : SeqCtx :=
  { state := 1, bank := b, model := (t.model b).img.id, addr := fieldAt c 32 8, bytes := fieldAt c 40 4, chan0 := fieldAt c 20 4,
    nchan := fieldAt c 24 4, steps := 0, lastSeal := 2 ^ 64 - 1, missing := 0 }

/-- A free context whose region is in bounds and apart from every open one's is bound to the active model. -/
theorem ctxOpen_opens {b : Nat} (hfree : (sget {} t.seqs (byteAt c 16)).state = 0)
    (hregion : fieldAt c 32 8 + fieldAt c 40 4 ≤ 0xA0000000) (hapart : t.regionTaken (fieldAt c 32 8) (fieldAt c 40 4) = false)
    (hchans : fieldAt c 20 4 + fieldAt c 24 4 ≤ 524288) (hactive : t.activeBank = some b) :
    State.ctxOpenEffect c t = ({ t with seqs := sset {} t.seqs (byteAt c 16) (t.openedCtx c b) }, Status.ok) := by
  simp [State.ctxOpenEffect, State.openedCtx, hfree, Nat.not_lt.2 hregion, hapart, Nat.not_lt.2 hchans, hactive]

theorem ctxOpen_notFree (h : (sget {} t.seqs (byteAt c 16)).state ≠ 0) :
    State.ctxOpenEffect c t = (t, Status.badCommand) := by
  simp [State.ctxOpenEffect, h]

theorem ctxClose_eq (c : List Byte) (t : State) :
    State.ctxCloseEffect c t = (t.modCtxs (ctxRange c) fun x => { x with state := 0 }, Status.ok) := by
  rw [State.ctxCloseEffect, foldl_smod_seqs]

/-- CTX_READ, where the windows grant its destination, sends the entries in order. -/
theorem ctxRead_granted (h : t.grant [(true, fieldAt c 24 8, 64 * (ctxRange c).length)] = none) : State.ctxReadEffect c t
    = (t.dataWrite (fieldAt c 24 8) ((ctxRange c).map fun i => (sget {} t.seqs i).entry).flatten, Status.ok) := by
  simp only [State.ctxReadEffect, h]

/-- A range whose contexts are all open, and bound to the model CTX_ADVANCE names, takes in its seal as a whole. -/
theorem ctxAdvance_all (h : ∀ i ∈ ctxRange c, (sget {} t.seqs i).state ≠ 0 ∧ (sget {} t.seqs i).model = fieldAt c 20 4) :
    State.ctxAdvanceEffect c t = (t.modCtxs (ctxRange c) (SeqCtx.advance · (fieldAt c 24 8)), Status.ok) := by
  have hopen : ((ctxRange c).filter fun i => (sget {} t.seqs i).state != 0) = ctxRange c :=
    List.filter_eq_self.2 fun i hi => bne_iff_ne.2 (h i hi).1
  have hmine : ((ctxRange c).filter fun i => (sget {} t.seqs i).model == fieldAt c 20 4) = ctxRange c :=
    List.filter_eq_self.2 fun i hi => beq_iff_eq.2 (h i hi).2
  simp only [State.ctxAdvanceEffect, hopen, hmine, foldl_smod_seqs, if_true]

end

/-! ## The statement -/

/-- Settles O38: each command by the lemma above that says what it does; a range's contexts by their one change each. -/
theorem sequenceContexts : Obligations.SequenceContexts := by
  unfold Obligations.SequenceContexts
  intro t c i at_
  refine ⟨fun b hfree hregion hapart hchans hactive => ?opens, ctxOpen_notFree, ?closes, ctxRead_granted,
    fun hbound _ => ?advances⟩
  case opens =>
    have hnew : sget {} (sset {} t.seqs (byteAt c 16) (t.openedCtx c b)) (byteAt c 16) = t.openedCtx c b :=
      sget_sset_same {} t.seqs (byteAt c 16) _
    exact ⟨_, (tblEffect_ctxOpen c t).trans (ctxOpen_opens hfree hregion hapart hchans hactive), congrArg SeqCtx.state hnew,
      congrArg SeqCtx.bank hnew, congrArg SeqCtx.addr hnew, congrArg SeqCtx.steps hnew, sget_sset_other {} {} t.seqs (t.openedCtx c b), rfl⟩
  case closes =>
    exact ⟨_, (tblEffect_ctxClose c t).trans (ctxClose_eq c t), fun hi => congrArg SeqCtx.state (modCtxs_ctxRange_mem t c _ hi),
      modCtxs_ctxRange_notMem t c _, rfl⟩
  case advances =>
    exact ⟨_, (tblEffect_ctxAdvance c t).trans (ctxAdvance_all hbound), modCtxs_ctxRange_mem t c _,
      modCtxs_ctxRange_notMem t c _, rfl⟩

end Sys2Proof.Machine
end

section
/-! The memories' own events and commands: page correction, patrol scrub, remaps, retirement of banks and channels, and the arming of
an injection (R277, R325, R333, R334, R336-R339, R470). -/

namespace Sys2Proof.Machine

theorem exec_pageCorrection (mem : Fin 3) (page : Nat) (us : List (Nat × Nat × Bool)) (s : State) :
    exec (.pageCorrection mem page us) s = execPageCorrection mem page us s := rfl

theorem exec_scrubRead (mem : Fin 2) (us : List (Nat × Nat × Bool)) (columns : Nat) (s : State) :
    exec (.scrubRead mem us columns) s = execScrubRead mem us columns s := rfl

theorem exec_bankRetireCopyDone (bank : Fin 2048) (s : State) :
    exec (.bankRetireCopyDone bank) s = whenLive s fun s => s.retireDone bank := rfl

theorem exec_aquiferChannelRetire (ch : Fin 48) (s : State) :
    exec (.aquiferChannelRetire ch) s = whenLive s fun s => s.retireChannel ch := rfl

theorem exec_aquiferZqTracking (ch : Fin 48) (passed : Bool) (ecc : Nat) (s : State) :
    exec (.aquiferZqTracking ch passed ecc) s = execAquiferZqTracking ch passed ecc s := rfl

/-- The state with MODE and PERSIST of a memory's injection as a write of their register sets them. -/
def State.injectSet (s : State) (m : MemId) (v : Nat) : State := (s.put (injMode m) v).put (injPersist m) (v / 4)

theorem exec_faultInjectArm (mem : Fin 2) (value : Word) (s : State) : exec (.faultInjectArm mem value) s
    = whenHost s (injMode (memNo mem)).reg fun s => s.injectSet (memNo mem) value.toNat := rfl

/-- The state with ADDR and RETIRE of CI_REMAP_CMD as a command writes them. -/
def State.remapCmd (s : State) (addr : Nat) (retire : Bool) : State :=
  (s.put F.CI_REMAP_CMD_ADDR addr).putB F.CI_REMAP_CMD_RETIRE retire

theorem exec_ciRemapWord (addr : Fin 268435456) (s : State) : exec (.ciRemapWord addr) s
    = whenHost s R.CI_REMAP_CMD fun s => (s.remapCmd addr false).remapWord addr := rfl

theorem exec_ciRetireBank (addr : Fin 268435456) (s : State) : exec (.ciRetireBank addr) s
    = whenHost s R.CI_REMAP_CMD fun s => ((s.remapCmd addr true).retireBank addr).putB F.CI_REMAP_CMD_GO
        (((s.remapCmd addr true).retireBank addr).bank (globalBank addr)).retireFrom.isSome := rfl

theorem exec_aqRemapPage (page : Fin 268435456) (s : State) : exec (.aqRemapPage page) s
    = whenHost s R.AQ_REMAP_CMD fun s =>
      if MemId.aq.pages ≤ page.val then s.put F.AQ_REMAP_CMD_PAGE page
      else (s.put F.AQ_REMAP_CMD_PAGE page).remapPage (64 * page) := rfl

/-! ## Registers, words and banks under each other's updates -/

theorem get_bump_same (s : State) (f : Fld) (n : Nat) (h : f.lo + f.w ≤ 32) : (s.bump f n).get f = (s.get f + n) % 2 ^ f.w :=
  get_put_same s f _ h

theorem get_bump_otherReg (s : State) (f g : Fld) (n : Nat) (h : g.reg ≠ f.reg) : (s.bump f n).get g = s.get g :=
  get_put_otherReg s f g _ h

theorem get_bumpSat_same (s : State) (f : Fld) (n : Nat) (h : f.lo + f.w ≤ 32) :
    (s.bumpSat f n).get f = min (2 ^ f.w - 1) (s.get f + n) := by
  have hpos : 0 < 2 ^ f.w := Nat.two_pow_pos f.w
  exact (get_put_same s f _ h).trans (Nat.mod_eq_of_lt (by omega))

@[simp] theorem setCoded_regs (s : State) (m : MemId) (c : CodedMem) : (s.setCoded m c).regs = s.regs := by cases m <;> rfl

@[simp] theorem setCoded_bank (s : State) (m : MemId) (c : CodedMem) (b : Nat) : (s.setCoded m c).bank b = s.bank b := by
  cases m <;> rfl

@[simp] theorem put_bank (s : State) (f : Fld) (v b : Nat) : (s.put f v).bank b = s.bank b := rfl

@[simp] theorem putB_bank (s : State) (f : Fld) (x : Bool) (b : Nat) : (s.putB f x).bank b = s.bank b := rfl

@[simp] theorem bump_bank (s : State) (f : Fld) (n b : Nat) : (s.bump f n).bank b = s.bank b := rfl

@[simp] theorem modBank_regs (s : State) (b : Nat) (f : BankRt → BankRt) : (s.modBank b f).regs = s.regs := rfl

@[simp] theorem modBank_bank_same (s : State) (b : Nat) (f : BankRt → BankRt) : (s.modBank b f).bank b = f (s.bank b) := by
  simp [State.bank, State.modBank, smod]

@[simp] theorem moveWords_bank (s : State) (m : MemId) (ws : List Nat) (b : Nat) : (s.moveWords m ws).bank b = s.bank b := by
  unfold State.moveWords
  split <;> simp

theorem injPersist_reg (m : MemId) : (injPersist m).reg = (injMode m).reg := by cases m <;> rfl

/-- Words moved to other cells change no register but that of their memory's injection, which may end (R470). -/
theorem get_moveWords (s : State) (m : MemId) (ws : List Nat) {g : Fld} (h : g.reg ≠ (injMode m).reg) :
    (s.moveWords m ws).get g = s.get g := by
  have hcoded (c : CodedMem) : (s.setCoded m c).get g = s.get g := get_congr (setCoded_regs s m c) g
  unfold State.moveWords
  split
  case isTrue =>
    have hpersist : g.reg ≠ (injPersist m).reg := injPersist_reg m ▸ h
    rw [get_put_otherReg _ _ _ _ hpersist, get_put_otherReg _ _ _ _ h, hcoded]
  case isFalse => exact hcoded _

/-! ## Page correction and the patrol scrub (R277, R325, R336) -/

section
variable {s : State} {us : List (Nat × Nat × Bool)}

/-- PAGE_CORRECTION names its memories 0 to 2, the other events 0 and 1. -/
theorem memNo_castSucc (mem : Fin 2) : memNo (if mem.castSucc = 1 then 1 else 0) = memNo mem := by
  match mem with
  | 0 => rfl
  | 1 => rfl

theorem exec_pageCorrection_memory {page : Nat} (mem : Fin 2) (hlive : s.live = true) (hpage : page < (memNo mem).pages) :
    exec (.pageCorrection mem.castSucc page us) s = .next ((s.upsets (memNo mem) page us).correctPage (memNo mem) page) := by
  have hmem : mem.castSucc ≠ 2 := Fin.ne_of_lt mem.castSucc_lt_last
  rw [exec_pageCorrection, execPageCorrection, whenLive_true hlive, if_neg hmem]
  simp only [memNo_castSucc, if_neg (Nat.not_le.2 hpage)]

/-- The bank sealed first has the words marked that cannot be corrected. -/
theorem exec_pageCorrection_capture {b : CapBank} {rest : List CapBank} (hlive : s.live = true) (hclosed : s.capture.closed = b :: rest) :
    exec (.pageCorrection 2 0 us) s = .next
      { s with capture := { s.capture with closed := { b with marks := b.marks ++ us.map (·.1) } :: rest } } := by
  rw [exec_pageCorrection, execPageCorrection, whenLive_true hlive, if_pos rfl]
  simp only [State.markCapture, hclosed, List.modifyHead_cons]

/-- A page none of whose words fails, and whose code can be read, needs no more than the read of its code. -/
theorem correctPage_readable {m : MemId} {page : Nat} (hwords : failedWords ((s.readCode m page).coded m) m page = [])
    (hcode : ∀ j < m.columns, codeLost ((s.readCode m page).coded m) m page j = false) :
    s.correctPage m page = s.readCode m page := by
  have hnone : ((List.range m.columns).any fun j => codeLost ((s.readCode m page).coded m) m page j) = false :=
    List.any_eq_false.2 fun j hj => by simp [hcode j (List.mem_range.1 hj)]
  simp [State.correctPage, hwords, hnone]

theorem exec_scrubRead_off {mem : Fin 2} (hoff : s.scrubOn (memNo mem) = false) (columns : Nat) :
    exec (.scrubRead mem us columns) s = .next s := by
  rw [exec_scrubRead]
  exact whenLive_same (if_pos (by simp [hoff]))

theorem exec_scrubRead_on {mem : Fin 2} (hlive : s.live = true) (hon : s.scrubOn (memNo mem) = true) (columns : Nat) :
    exec (.scrubRead mem us columns) s
      = .next ((((s.upsets (memNo mem) (s.scrubAt (memNo mem)) us).damageColumns (memNo mem) (s.scrubAt (memNo mem)) columns).scrubPage
          (memNo mem) (s.scrubAt (memNo mem))).scrubNext (memNo mem)) := by
  rw [exec_scrubRead, execScrubRead, whenLive_true hlive, if_neg (by simp [hon])]

end

/-- The marks a pass of the scrubber leaves in its registers leave the memories as they are. -/
theorem mems_passed (t : State) (f : Fld) (p : Prop) [Decidable p] : (if p then t.bump f else t).mems = t.mems := by
  split <;> rfl

theorem mems_late (t : State) (f : Fld) (p : Prop) [Decidable p] : (if p then t.putB f true else t).mems = t.mems := by
  split <;> rfl

/-- The scrubber goes to the next page of its memory, from the last one to the first. -/
theorem scrubNext_scrubAt (u : State) (mem : Fin 2) : (u.scrubNext (memNo mem)).scrubAt (memNo mem)
    = if (memNo mem).pages ≤ u.scrubAt (memNo mem) + 1 then 0 else u.scrubAt (memNo mem) + 1 := by
  match mem with
  | 0 => exact congrArg MemSys.ciScrub ((mems_late _ _ _).trans (mems_passed _ _ _))
  | 1 => exact congrArg MemSys.aqScrub ((mems_late _ _ _).trans (mems_passed _ _ _))

/-! ## A bank's retirement ends (R339) -/

/-- What the end of a bank's copy leaves of CI_REMAP_CMD: GO reads 0 again where the command named the bank. -/
def State.retireShown (u : State) (b : Nat) : State :=
  if globalBank (u.get F.CI_REMAP_CMD_ADDR) = b ∧ u.on F.CI_REMAP_CMD_RETIRE = true then u.putB F.CI_REMAP_CMD_GO false else u

/-- The end of a copy that is reached. `State.reach` is first taken for any function: the kernel would count down the cycles. -/
theorem retireDone_reached {s v : State} {b c0 : Nat} (hfrom : (s.bank b).retireFrom = some c0)
    (hreach : s.reach (c0 + 163840) = some v) : s.retireDone b = (v.spareTakes b).retireShown b := by
  obtain ⟨reach, heq⟩ : ∃ reach, reach = s.reach := ⟨_, rfl⟩
  rw [← heq] at hreach
  rw [State.retireDone, hfrom, ← heq]
  simp only [hreach, State.retireShown, Bool.and_eq_true, decide_eq_true_eq]

/-- A spare bank that has taken a bank's number has all its entries free, and UNIT_FAILED says that the bank was replaced. -/
theorem spareTakes_raises (v : State) (b : Nat) :
    ∃ (u : State) (left : Nat), v.spareTakes b = u.unitFailed 5 b 1 left ∧ u.bank b = { spare := true } :=
  ⟨_, _, rfl, by rw [put_bank, modBank_bank_same]⟩

/-! ## Aquifer channels (R333, R334) -/

/-- The state with a channel out of service. -/
def State.channelOut (s : State) (ch : Nat) : State :=
  State.putB { s with mems := { s.mems with retiredAt := sset none s.mems.retiredAt ch (some s.clk.cycle) } } (F.AQ_CHAN_RETIRED ch) true

theorem channelOut_retired (s : State) (ch : Nat) : (s.channelOut ch).on (F.AQ_CHAN_RETIRED ch) = true :=
  on_putB_same _ _ true rfl (by simp)

theorem retireChannel_inService {s : State} {ch : Nat} (h : s.on (F.AQ_CHAN_RETIRED ch) = false) :
    s.retireChannel ch = (s.channelOut ch).unitFailed 5 (0x8000 + ch) 2 0 := by
  simp [State.retireChannel, State.channelOut, h]

/-- The state with a channel's link-ECC corrections counted and its failed calibrations in a row set to `n`. -/
def State.calibrated (s : State) (ch ecc n : Nat) : State :=
  { s.bumpSat (F.AQ_CHAN_LINK_ECC ch) ecc with mems := { s.mems with linkFails := sset 0 s.mems.linkFails ch n } }

theorem calibrated_linkFails (s : State) (ch ecc n : Nat) : sget 0 (s.calibrated ch ecc n).mems.linkFails ch = n :=
  sget_sset_same 0 s.mems.linkFails ch n

theorem calibrated_regs (s : State) (ch ecc n : Nat) : (s.calibrated ch ecc n).regs = (s.bumpSat (F.AQ_CHAN_LINK_ECC ch) ecc).regs :=
  rfl

theorem calibrated_linkEcc (s : State) (ch ecc n : Nat) : (s.calibrated ch ecc n).get (F.AQ_CHAN_LINK_ECC ch)
    = min (2 ^ (F.AQ_CHAN_LINK_ECC ch).w - 1) (s.get (F.AQ_CHAN_LINK_ECC ch) + ecc) := by
  rw [get_congr (calibrated_regs s ch ecc n), get_bumpSat_same _ _ _ (by simp)]

theorem calibrated_retired (s : State) (ch ecc n : Nat) :
    (s.calibrated ch ecc n).on (F.AQ_CHAN_RETIRED ch) = s.on (F.AQ_CHAN_RETIRED ch) :=
  (on_congr (calibrated_regs s ch ecc n) _).trans (on_put_other s _ _ _ (by simp) (by simp))

section
variable {s : State} {ch : Fin 48} (hlive : s.live = true) (hserving : s.on (F.AQ_CHAN_RETIRED ch) = false)
include hlive hserving

theorem exec_aquiferZqTracking_passed (ecc : Nat) : exec (.aquiferZqTracking ch true ecc) s = .next (s.calibrated ch ecc 0) := by
  rw [exec_aquiferZqTracking, execAquiferZqTracking, whenLive_true hlive, if_neg (by simp [hserving])]
  rfl

/-- The first and the second failure in a row are counted. -/
theorem exec_aquiferZqTracking_counted (ecc : Nat) (hfew : sget 0 s.mems.linkFails ch < 2) :
    exec (.aquiferZqTracking ch false ecc) s = .next (s.calibrated ch ecc (sget 0 s.mems.linkFails ch + 1)) := by
  rw [exec_aquiferZqTracking, execAquiferZqTracking, whenLive_true hlive, if_neg (by simp [hserving])]
  exact congrArg Host.Outcome.next (if_neg (by simp; omega))

/-- The third failure in a row retires the channel. -/
theorem exec_aquiferZqTracking_retires (ecc : Nat) (hmany : 2 ≤ sget 0 s.mems.linkFails ch) : exec (.aquiferZqTracking ch false ecc) s
    = .next (((s.calibrated ch ecc (sget 0 s.mems.linkFails ch + 1)).channelOut ch).unitFailed 5 (0x8000 + ch) 2 0) := by
  have hstill : (s.calibrated ch ecc (sget 0 s.mems.linkFails ch + 1)).on (F.AQ_CHAN_RETIRED ch) = false :=
    (calibrated_retired s ch ecc _).trans hserving
  rw [exec_aquiferZqTracking, execAquiferZqTracking, whenLive_true hlive, if_neg (by simp [hserving]), ← retireChannel_inService hstill]
  exact congrArg Host.Outcome.next (if_pos (by simp; omega))

end

/-! ## Fault injection (R470) -/

theorem injectSet_mode (s : State) (m : MemId) (v : Nat) : (s.injectSet m v).get (injMode m) = v % 4 := by
  have hbeside : (injMode m).lo + (injMode m).w ≤ (injPersist m).lo := by cases m <;> simp [injMode, injPersist]
  have hwidth : (injMode m).lo + (injMode m).w ≤ 32 := by cases m <;> simp [injMode]
  have hcut : 2 ^ (injMode m).w = 4 := by cases m <;> rfl
  rw [State.injectSet, get_put_other _ _ _ _ hwidth (.inr (.inl hbeside)), get_put_same _ _ _ hwidth, hcut]

theorem injectSet_persist (s : State) (m : MemId) (v : Nat) : (s.injectSet m v).get (injPersist m) = v / 4 % 2 := by
  have hwidth : (injPersist m).lo + (injPersist m).w ≤ 32 := by cases m <;> simp [injPersist]
  have hcut : 2 ^ (injPersist m).w = 2 := by cases m <;> rfl
  rw [State.injectSet, get_put_same _ _ _ hwidth, hcut]

/-! ## Remaps and retirement by command (R337-R339) -/

/-- A word that reads clean or poisoned is copied as it stands. -/
theorem readToCopy_asItIs {s : State} {m : MemId} {w : Nat}
    (h : (s.coded m).outcome m w = .clean ∨ (s.coded m).outcome m w = .poison) : s.readToCopy m w = s := by
  rcases h with h | h <;> simp [State.readToCopy, h]

/-- A bank with an entry for word `w` and one spare word less. -/
def BankRt.remapped (k : BankRt) (w : Nat) : BankRt :=
  { k with
    entries := if k.entries.contains (bankWord w) then k.entries else k.entries ++ [bankWord w]
    left := k.left - 1 }

theorem bankWord_mem_remapped (k : BankRt) (w : Nat) : bankWord w ∈ (k.remapped w).entries := by
  unfold BankRt.remapped
  split
  case isTrue h => exact List.contains_iff_mem.1 h
  case isFalse => simp

/-- The state with a Cistern word in a spare word of its bank, counted. -/
def State.wordSpared (s : State) (w : Nat) : State :=
  ((s.modBank (globalBank w) (BankRt.remapped · w)).moveWords .cis [w]).bump F.CI_REMAPS

theorem wordSpared_bank (s : State) (w : Nat) :
    (s.wordSpared w).bank (globalBank w) = (s.bank (globalBank w)).remapped w := by
  simp [State.wordSpared]

theorem wordSpared_remaps (s : State) (w : Nat) :
    (s.wordSpared w).get F.CI_REMAPS = (s.get F.CI_REMAPS + 1) % 2 ^ F.CI_REMAPS.w := by
  rw [State.wordSpared, get_bump_same _ _ _ (by decide), get_moveWords _ _ _ (by decide), get_congr (modBank_regs _ _ _)]

theorem remapWord_spared {s : State} {w : Nat} (hread : s.mems.cis.outcome .cis w = .clean ∨ s.mems.cis.outcome .cis w = .poison)
    (hleft : (s.bank (globalBank w)).left ≠ 0) :
    s.remapWord w = (s.wordSpared w).raise 0x0403 (memPayload .cis w ((s.bank (globalBank w)).left - 1)) := by
  unfold State.remapWord
  simp only [readToCopy_asItIs (m := .cis) hread, if_neg hleft]
  rfl

/-- The state with a bank's copy into a spare bank begun. -/
def State.copyBegun (s : State) (b : Nat) : State := s.modBank b fun k => { k with retireFrom := some s.clk.cycle }

theorem copyBegun_retireFrom (s : State) (b : Nat) : ((s.copyBegun b).bank b).retireFrom = some s.clk.cycle :=
  congrArg BankRt.retireFrom (modBank_bank_same s b _)

theorem retireBank_begins {s : State} {w : Nat} (hkept : (s.bank (globalBank w)).retireFrom = none)
    (hspare : s.sparesFree (bayOf w) ≠ 0) : s.retireBank w = s.copyBegun (globalBank w) := by
  simp [State.retireBank, State.copyBegun, hkept, hspare]

theorem spareFld_reg (bay : Nat) : (spareFld bay).reg = R.CI_SPARE_LO ∨ (spareFld bay).reg = R.CI_SPARE_HI := by
  unfold spareFld
  split
  · exact .inl rfl
  · exact .inr rfl

/-- By the lemmas of `put`, as those below: a bare `rfl` would have the kernel compute with the fields' widths. -/
theorem remapCmd_mems (s : State) (addr : Nat) (retire : Bool) : (s.remapCmd addr retire).mems = s.mems := by
  rw [State.remapCmd, State.putB_mems, State.put_mems]

theorem remapCmd_clk (s : State) (addr : Nat) (retire : Bool) : (s.remapCmd addr retire).clk = s.clk := by
  rw [State.remapCmd, State.putB_clk, State.put_clk]

theorem remapCmd_bank (s : State) (addr : Nat) (retire : Bool) (b : Nat) : (s.remapCmd addr retire).bank b = s.bank b := by
  rw [State.remapCmd, putB_bank, put_bank]

theorem remapCmd_get_otherReg (s : State) (addr : Nat) (retire : Bool) {g : Fld} (h : g.reg ≠ R.CI_REMAP_CMD) :
    (s.remapCmd addr retire).get g = s.get g :=
  (get_put_otherReg _ _ _ _ h).trans (get_put_otherReg _ _ _ _ h)

/-- CI_REMAP_CMD names a word, and changes no spare of a bay. -/
theorem remapCmd_sparesFree (s : State) (addr : Nat) (retire : Bool) (bay : Nat) :
    (s.remapCmd addr retire).sparesFree bay = s.sparesFree bay := by
  have hreg : (spareFld bay).reg ≠ R.CI_REMAP_CMD := by
    rcases spareFld_reg bay with h | h <;> rw [h] <;> decide
  simp only [State.sparesFree, State.baysRetiring, remapCmd_get_otherReg s addr retire hreg, remapCmd_mems]

/-- A fold whose every step leaves its start as it is. -/
theorem foldl_fixed_of_mem {α β : Type} {f : α → β → α} {a : α} {l : List β} (h : ∀ x ∈ l, f a x = a) : l.foldl f a = a := by
  induction l with
  | nil => rfl
  | cons x l ih =>
    rw [List.foldl_cons, h x List.mem_cons_self]
    exact ih fun y hy => h y (List.mem_cons_of_mem x hy)

/-- A page all of whose words read clean or poisoned goes to a spare page of its channel, where one is left. -/
theorem remapPage_spared {u : State} {w : Nat} (hleft : u.get (F.AQ_CHAN_REMAP_LEFT (channelOf w)) ≠ 0)
    (hread : ∀ i < 64, u.mems.aq.outcome .aq (64 * pageOf .aq w + i) = .clean
      ∨ u.mems.aq.outcome .aq (64 * pageOf .aq w + i) = .poison) :
    ∃ v : State, u.remapPage w = v.raise 0x0403 (memPayload .aq w (u.get (F.AQ_CHAN_REMAP_LEFT (channelOf w)) - 1))
      ∧ v.get (F.AQ_CHAN_REMAP_LEFT (channelOf w)) = u.get (F.AQ_CHAN_REMAP_LEFT (channelOf w)) - 1 := by
  have hcopy : ((List.range 64).map fun i => 64 * pageOf .aq w + i).foldl (fun t x => State.readToCopy t .aq x) u = u := by
    refine foldl_fixed_of_mem fun x hx => ?_
    obtain ⟨i, hi, rfl⟩ := List.mem_map.1 hx
    exact readToCopy_asItIs (hread i (List.mem_range.1 hi))
  have hcut : (u.get (F.AQ_CHAN_REMAP_LEFT (channelOf w)) - 1) % 2 ^ 5 = u.get (F.AQ_CHAN_REMAP_LEFT (channelOf w)) - 1 :=
    Nat.mod_eq_of_lt (Nat.lt_of_le_of_lt (Nat.sub_le _ 1) (bits_lt _ _ _))
  unfold State.remapPage
  simp only [hcopy, if_neg hleft]
  refine ⟨_, rfl, ?_⟩
  have hreg : 0x800100 + 4 * channelOf w ≠ R.AQ_REMAPS := Nat.ne_of_gt (Nat.lt_add_right _ (by decide))
  rw [get_bump_otherReg _ _ _ _ hreg, get_put_same _ _ _ (by simp), hcut]

/-- Settles O42: each event and command by the lemma above that says what it does, a remap of what reads clean or poisoned by its
copy changing nothing else. -/
theorem memoriesAreKept : Obligations.MemoriesAreKept := by
  unfold Obligations.MemoriesAreKept
  constructor
  case left =>
    intro s mem us m
    refine ⟨fun page => exec_pageCorrection_memory mem, fun b rest => exec_pageCorrection_capture, fun page => correctPage_readable,
      fun _ => exec_scrubRead_off, exec_scrubRead_on, fun u => scrubNext_scrubAt u mem,
      fun bank hlive c0 v hfrom hreach => ⟨?bankTaken, spareTakes_raises v bank⟩,
      fun ch hlive hserving => ⟨?channelRetires, fun ecc => ?passes, fun ecc hfew => ?counts, fun ecc hmany => ?retires⟩,
      fun value htakes hlink => ?arms⟩
    case bankTaken => rw [exec_bankRetireCopyDone, whenLive_true hlive, retireDone_reached hfrom hreach]; rfl
    case channelRetires =>
      refine ⟨s.channelOut ch, ?_, channelOut_retired s ch, rfl⟩
      rw [exec_aquiferChannelRetire, whenLive_true hlive, retireChannel_inService hserving]
    case passes =>
      exact ⟨_, exec_aquiferZqTracking_passed hlive hserving ecc, calibrated_linkFails s ch ecc 0, calibrated_linkEcc s ch ecc 0,
        (calibrated_retired s ch ecc 0).trans hserving⟩
    case counts =>
      exact ⟨_, exec_aquiferZqTracking_counted hlive hserving ecc hfew, calibrated_linkFails s ch ecc _,
        (calibrated_retired s ch ecc _).trans hserving⟩
    case retires => exact ⟨_, exec_aquiferZqTracking_retires hlive hserving ecc hmany, channelOut_retired _ ch⟩
    case arms =>
      rw [exec_faultInjectArm, whenHost_true htakes hlink]
      exact ⟨_, rfl, injectSet_mode s m _, injectSet_persist s m _, rfl⟩
  case right =>
    intro s addr hci haq hlink b
    refine ⟨?remaps, ?begins, fun hread hleft => ?wordSpared, fun hkept hspare => ?copyBegun, fun hpage => ?pageRemaps,
      fun hbeyond => ?pageBeyond, fun u hpage hleft hread => ?pageSpared⟩
    case remaps => rw [exec_ciRemapWord, whenHost_true hci hlink]; rfl
    case begins =>
      rw [exec_ciRetireBank, whenHost_true hci hlink]
      exact ⟨_, rfl, rfl⟩
    case wordSpared =>
      rw [exec_ciRemapWord, whenHost_true hci hlink, remapWord_spared (by rwa [remapCmd_mems]) (by rwa [remapCmd_bank]), remapCmd_bank]
      refine ⟨_, rfl, ?_, ?_, ?_⟩
      · rw [wordSpared_bank, remapCmd_bank]; rfl
      · rw [wordSpared_bank]; exact bankWord_mem_remapped _ _
      · rw [wordSpared_remaps, remapCmd_get_otherReg _ _ _ (by decide)]
    case copyBegun =>
      have hbegins : (s.remapCmd addr true).retireBank addr = (s.remapCmd addr true).copyBegun b :=
        retireBank_begins (by rwa [remapCmd_bank]) (by rwa [remapCmd_sparesFree])
      rw [exec_ciRetireBank, whenHost_true hci hlink, hbegins, copyBegun_retireFrom]
      exact ⟨_, rfl, by rw [putB_bank, copyBegun_retireFrom, remapCmd_clk], on_putB_same _ _ true rfl (by simp)⟩
    case pageRemaps => rw [exec_aqRemapPage, whenHost_true haq hlink, if_neg (Nat.not_le.2 hpage)]
    case pageBeyond => rw [exec_aqRemapPage, whenHost_true haq hlink, if_pos hbeyond]
    case pageSpared =>
      have hpageOf : pageOf .aq (64 * addr) = addr := Nat.mul_div_cancel_left addr.val (by decide)
      exact remapPage_spared hleft (by rwa [hpageOf])

end Sys2Proof.Machine
end

section
/-! What leaves the LK_CTRL registers as they are: events, valve trips, moves to bypass, the memories' corrections, and the frames of a
lost link. A link that goes down keeps its ENABLE through all of these (R86, R210, R211, R324-R326, R337-R339, R361, R402). -/

namespace Sys2Proof.Machine

/-- The LK_CTRL words that a register file holds, by link. -/
def linkCtrls (regs : SMap Word) (n : Nat) : Word := sget (resetWord (R.LK_CTRL n)) regs (R.LK_CTRL n)

/-- Register files with the same LK_CTRL words read the same in every field of these. -/
theorem get_linkCtrl_congr {s t : State} (h : linkCtrls t.regs = linkCtrls s.regs) {f : Fld} {n : Nat} (hf : f.reg = R.LK_CTRL n) :
    t.get f = s.get f := by
  have hword : t.word f.reg = s.word f.reg := by
    rw [hf]
    exact congrFun h n
  simp only [State.get, hword]

/-! ## Register writes -/

theorem linkCtrls_setWord (s : State) {off : Nat} (v : Word) (h : ∀ n, R.LK_CTRL n ≠ off) :
    linkCtrls (s.setWord off v).regs = linkCtrls s.regs :=
  funext fun n => sget_sset_other _ _ _ _ (h n)

/-- Registers below the link blocks. -/
theorem linkCtrls_setWord_below (s : State) {off : Nat} (v : Word) (h : off < 0x1000000) :
    linkCtrls (s.setWord off v).regs = linkCtrls s.regs :=
  linkCtrls_setWord s v fun n => by show 0x1000000 + 0x10000 * n ≠ off; omega

@[simp] theorem linkCtrls_put (s : State) {f : Fld} (v : Nat) (h : f.reg < 0x1000000) :
    linkCtrls (s.put f v).regs = linkCtrls s.regs := linkCtrls_setWord_below s _ h

@[simp] theorem linkCtrls_putB (s : State) {f : Fld} (b : Bool) (h : f.reg < 0x1000000) :
    linkCtrls (s.putB f b).regs = linkCtrls s.regs := linkCtrls_put s _ h

@[simp] theorem linkCtrls_bump (s : State) {f : Fld} (n : Nat) (h : f.reg < 0x1000000) :
    linkCtrls (s.bump f n).regs = linkCtrls s.regs := linkCtrls_put s _ h

@[simp] theorem linkCtrls_bumpSat (s : State) {f : Fld} (n : Nat) (h : f.reg < 0x1000000) :
    linkCtrls (s.bumpSat f n).regs = linkCtrls s.regs := linkCtrls_put s _ h

@[simp] theorem linkCtrls_put64 (s : State) {lo : Nat} (v : Nat) (h : lo + 4 < 0x1000000) :
    linkCtrls (s.put64 lo v).regs = linkCtrls s.regs := by
  rw [State.put64, linkCtrls_setWord_below _ _ h, linkCtrls_setWord_below _ _ (by omega)]

/-- LK_PAIR_STATUS lies in no link's own block. -/
theorem linkCtrls_put_pairStatus (s : State) {p : Nat} (hp : p < 12) (lo w v : Nat) :
    linkCtrls (s.put ⟨R.LK_PAIR_STATUS p, lo, w⟩ v).regs = linkCtrls s.regs :=
  linkCtrls_setWord s _ fun n => by show 0x1000000 + 0x10000 * n ≠ 0x1008140 + 0x4 * p; omega

/-- LK_STATUS and LK_LANE of a link lie beside every LK_CTRL. -/
theorem linkCtrls_put_beside (s : State) {f : Fld} {m : Nat} (v : Nat) (h : f.reg = R.LK_STATUS m ∨ f.reg = R.LK_LANE m) :
    linkCtrls (s.put f v).regs = linkCtrls s.regs :=
  linkCtrls_setWord s _ fun n => by
    have hoff : f.reg = 0x1000004 + 0x10000 * m ∨ f.reg = 0x1000008 + 0x10000 * m := h
    show 0x1000000 + 0x10000 * n ≠ f.reg
    omega

@[simp] theorem linkCtrls_ite {c : Prop} [Decidable c] (a b : State) :
    linkCtrls (if c then a else b).regs = if c then linkCtrls a.regs else linkCtrls b.regs := by split <;> rfl

/-- A fold keeps what each of its steps keeps. -/
theorem linkCtrls_foldl {α : Type} {g : State → α → State} {l : List α} (h : ∀ t, ∀ a ∈ l, linkCtrls (g t a).regs = linkCtrls t.regs)
    (s : State) : linkCtrls (l.foldl g s).regs = linkCtrls s.regs :=
  List.foldlRecOn (motive := fun t => linkCtrls t.regs = linkCtrls s.regs) l g rfl fun t ht a ha => (h t a ha).trans ht

/-! ## Events (R84, R86-R88) -/

theorem linkCtrls_fire (s : State) {v : Nat} (h : v < 256) : linkCtrls (s.fire v).regs = linkCtrls s.regs := by
  rcases fire_cases s v with hf | hf | hf <;> rw [hf]
  · exact linkCtrls_putB s true (show 0x31000 + 4 * (v / 32) < 0x1000000 by omega)
  · rfl

@[simp] theorem linkCtrls_evtIrq (s : State) (n : Nat) : linkCtrls (s.evtIrq n).regs = linkCtrls s.regs := by
  have hv : s.get F.HIF_EVT_CTRL_VECTOR < 256 := bits_lt _ 8 8
  unfold State.evtIrq
  dsimp only
  split
  · rw [linkCtrls_fire _ hv]
  · rfl

@[simp] theorem evtRecords_regs (rs : List (List Byte)) (s : State) (i : Nat) : (s.evtRecords i rs).regs = s.regs := by
  induction rs generalizing s i with
  | nil => rfl
  | cons r rs ih =>
    rw [State.evtRecords, ih, State.hostWrite]
    split <;> rfl

@[simp] theorem linkCtrls_evtPut (s : State) (code : Nat) (pl : List Byte) (cont : List (List Byte)) :
    linkCtrls (s.evtPut code pl cont).regs = linkCtrls s.regs := by
  rw [State.evtPut, linkCtrls_evtIrq, linkCtrls_put _ _ (by decide)]
  exact congrArg linkCtrls (evtRecords_regs _ s 0)

@[simp] theorem linkCtrls_evtLose (s : State) : linkCtrls s.evtLose.regs = linkCtrls s.regs := by
  exact linkCtrls_bumpSat s 1 (by decide)

@[simp] theorem linkCtrls_evtWrite (s : State) (code : Nat) (pl : List Byte) (cont : List (List Byte)) :
    linkCtrls (s.evtWrite code pl cont).1.regs = linkCtrls s.regs := by
  unfold State.evtWrite
  split
  · simp
  · split <;> simp (disch := decide)

@[simp] theorem linkCtrls_evtLoss (s : State) : linkCtrls s.evtLoss.1.regs = linkCtrls s.regs := by
  unfold State.evtLoss
  dsimp only
  split
  · rfl
  · split
    · simp (disch := decide)
    · split <;> simp (disch := decide)

@[simp] theorem evtTrigger_regs (s : State) (code : Nat) : (s.evtTrigger code).regs = s.regs := by
  unfold State.evtTrigger
  split <;> rfl

@[simp] theorem linkCtrls_raiseCore (s : State) (code : Nat) (pl : List Byte) (cont : List (List Byte)) :
    linkCtrls (s.raiseCore code pl cont).1.regs = linkCtrls s.regs := by
  have hloss := linkCtrls_evtLoss (s.evtTrigger code)
  unfold State.raiseCore
  dsimp only
  split
  · simp
  · split <;> rename_i heq <;> rw [heq] at hloss <;> simpa using hloss

/-! ## Frames dropped, moves to bypass, valves (R102, R210, R361, R402) -/

@[simp] theorem modFrame_regs (s : State) (n id : Nat) (f : SpFrame → SpFrame) : (s.modFrame n id f).regs = s.regs := by
  unfold State.modFrame State.noteFreed
  dsimp only
  split <;> rfl

@[simp] theorem writeSp_regs (s : State) (n id : Nat) (f : SpFrame → SpFrame) : (s.writeSp n id f).regs = s.regs :=
  modFrame_regs s n id _

@[simp] theorem releaseEntry_regs (s : State) (e : QEntry) : (s.releaseEntry e).regs = s.regs := by
  unfold State.releaseEntry
  split
  · rfl
  · exact modFrame_regs s _ _ _

theorem linkCtrls_dropClass (s : State) {n c : Nat} (hn : n < 24) (hc : c < 8) :
    linkCtrls (s.dropClass n c).regs = linkCtrls s.regs := by
  have hreg : 0x500118 + 0x1000 * n + 0x20 * c < 0x1000000 := by omega
  rw [State.dropClass, linkCtrls_bump _ _ hreg]
  exact linkCtrls_foldl (fun t e _ => congrArg linkCtrls (releaseEntry_regs t e)) s

theorem linkCtrls_dropLink (s : State) {n : Nat} (hn : n < 24) : linkCtrls (s.dropLink n).regs = linkCtrls s.regs :=
  linkCtrls_foldl (fun t _ hc => linkCtrls_dropClass t hn (List.mem_range.1 hc)) s

@[simp] theorem sendDown_regs (s : State) (n reason : Nat) : (s.sendDown n reason).regs = s.regs := by
  unfold State.sendDown
  split <;> rfl

theorem linkCtrls_toBypass (s : State) {p : Nat} (hp : p < 12) (cause reason : Nat) :
    linkCtrls (s.toBypass p cause reason).regs = linkCtrls s.regs := by
  unfold State.toBypass
  dsimp only
  split
  · rw [State.modPair_regs, linkCtrls_put_pairStatus _ hp, linkCtrls_put_pairStatus _ hp]
  · rw [sendDown_regs, sendDown_regs, linkCtrls_dropLink _ (by omega), linkCtrls_dropLink _ (by omega), State.modPair_regs,
      linkCtrls_put_pairStatus _ hp, linkCtrls_put_pairStatus _ hp]

theorem linkCtrls_leavePair (s : State) {p : Nat} (hp : p < 12) (cause reason : Nat) :
    linkCtrls (s.leavePair p cause reason).regs = linkCtrls s.regs := by
  simp [State.leavePair, linkCtrls_toBypass s hp]

theorem linkCtrls_latchBypass (s : State) {p : Nat} (hp : p < 12) (cause : Nat) :
    linkCtrls (s.latchBypass p cause).regs = linkCtrls s.regs := by
  simp [State.latchBypass, linkCtrls_leavePair s hp]

@[simp] theorem linkCtrls_latchAll (s : State) (cause : Nat) : linkCtrls (s.latchAll cause).regs = linkCtrls s.regs :=
  linkCtrls_foldl (fun t _ hp => linkCtrls_latchBypass t (List.mem_range.1 hp) cause) s

@[simp] theorem linkCtrls_valveBypass (s : State) (valve n : Nat) : linkCtrls (s.valveBypass valve n).regs = linkCtrls s.regs := by
  have hown : linkCtrls (if n < 24 then s.latchBypass (n / 2) 3 else s).regs = linkCtrls s.regs := by
    split
    · exact linkCtrls_latchBypass s (by omega) 3
    · rfl
  simp only [State.valveBypass, linkCtrls_ite, linkCtrls_latchAll] at hown ⊢
  simp [hown]

@[simp] theorem linkCtrls_raise (s : State) (code : Nat) (pl : List Byte) (cont : List (List Byte)) :
    linkCtrls (s.raise code pl cont).regs = linkCtrls s.regs := by
  have hcore := linkCtrls_raiseCore s code pl cont
  unfold State.raise
  split <;> rename_i heq <;> rw [heq] at hcore
  · exact hcore
  · rw [linkCtrls_raiseCore, linkCtrls_valveBypass, hcore]

/-! ## Words read and written through their codes (R318-R339) -/

@[simp] theorem linkCtrls_bumpMem (s : State) (m : MemId) {c a : Fld} (hc : c.reg < 0x1000000) (ha : a.reg < 0x1000000) :
    linkCtrls (s.bumpMem m c a).regs = linkCtrls s.regs := by
  cases m
  · exact linkCtrls_bump s 1 hc
  · exact linkCtrls_bump s 1 ha
  · rfl

@[simp] theorem linkCtrls_writeBack (s : State) (m : MemId) (w : Nat) : linkCtrls (s.writeBack m w).regs = linkCtrls s.regs := by
  simp (disch := decide) [State.writeBack]

@[simp] theorem linkCtrls_recoverWord (s : State) (m : MemId) (w : Nat) : linkCtrls (s.recoverWord m w).regs = linkCtrls s.regs := by
  simp (disch := decide) [State.recoverWord]

@[simp] theorem linkCtrls_loseWord (s : State) (m : MemId) (w : Nat) : linkCtrls (s.loseWord m w).regs = linkCtrls s.regs := by
  cases m <;> simp (disch := decide) [State.loseWord]

@[simp] theorem linkCtrls_readCode (s : State) (m : MemId) (page : Nat) : linkCtrls (s.readCode m page).regs = linkCtrls s.regs := by
  unfold State.readCode
  split
  · rfl
  · refine linkCtrls_foldl (fun t i _ => ?_) s
    dsimp only
    split <;> simp (disch := decide)

@[simp] theorem linkCtrls_rebuild (s : State) (m : MemId) (page : Nat) : linkCtrls (s.rebuild m page).regs = linkCtrls s.regs := by
  simp (disch := decide) [State.rebuild]

@[simp] theorem linkCtrls_correctPage (s : State) (m : MemId) (page : Nat) :
    linkCtrls (s.correctPage m page).regs = linkCtrls s.regs := by
  simp [State.correctPage, linkCtrls_foldl]

@[simp] theorem linkCtrls_retireBank (s : State) (w : Nat) : linkCtrls (s.retireBank w).regs = linkCtrls s.regs := by
  simp [State.retireBank]

@[simp] theorem linkCtrls_readToCopy (s : State) (m : MemId) (w : Nat) : linkCtrls (s.readToCopy m w).regs = linkCtrls s.regs := by
  unfold State.readToCopy
  split <;> simp

theorem injReg_below (m : MemId) : (injMode m).reg < 0x1000000 ∧ (injPersist m).reg < 0x1000000 := by
  have hcis : R.CI_INJECT_CTRL < 0x1000000 := by decide
  have haq : R.AQ_INJECT_CTRL < 0x1000000 := by decide
  cases m <;> simp [injMode, injPersist, hcis, haq]

@[simp] theorem linkCtrls_moveWords (s : State) (m : MemId) (ws : List Nat) : linkCtrls (s.moveWords m ws).regs = linkCtrls s.regs := by
  obtain ⟨hmode, hpersist⟩ := injReg_below m
  simp [State.moveWords, hmode, hpersist]

@[simp] theorem linkCtrls_remapWord (s : State) (w : Nat) : linkCtrls (s.remapWord w).regs = linkCtrls s.regs := by
  simp (disch := decide) [State.remapWord]

/-- The entry of a page in its channel's table (R338). -/
theorem linkCtrls_remapEntry (s : State) {c e : Nat} (hc : c < 48) (he : e < 16) (v : Nat) :
    linkCtrls ((s.put (F.AQ_REMAP_PAGE c e) v).putB (F.AQ_REMAP_VALID c e) true).regs = linkCtrls s.regs := by
  have hreg : 0x801000 + 0x40 * c + 0x4 * e < 0x1000000 := by omega
  rw [linkCtrls_putB _ _ hreg, linkCtrls_put _ _ hreg]

@[simp] theorem linkCtrls_remapPage (s : State) (w : Nat) : linkCtrls (s.remapPage w).regs = linkCtrls s.regs := by
  have hchan : channelOf w < 48 := Nat.mod_lt _ (by decide)
  have hreg : 0x800100 + 0x4 * channelOf w < 0x1000000 := by omega
  have hread (ws : List Nat) : linkCtrls (ws.foldl (fun t x => State.readToCopy t .aq x) s).regs = linkCtrls s.regs :=
    linkCtrls_foldl (fun t x _ => linkCtrls_readToCopy t .aq x) s
  unfold State.remapPage
  dsimp only
  split
  · rw [linkCtrls_raise, hread]
  · rw [linkCtrls_raise, linkCtrls_bump _ _ (by decide), linkCtrls_put _ _ hreg, linkCtrls_moveWords]
    split
    · exact hread _
    · split
      · rename_i e he
        rw [linkCtrls_remapEntry _ hchan (List.mem_range.1 (List.mem_of_find?_eq_some he)), hread]
      · exact hread _

@[simp] theorem linkCtrls_hardError (s : State) (m : MemId) (w : Nat) : linkCtrls (s.hardError m w).regs = linkCtrls s.regs := by
  cases m <;> simp [State.hardError]

@[simp] theorem linkCtrls_correctWord (s : State) (m : MemId) (w : Nat) : linkCtrls (s.correctWord m w).regs = linkCtrls s.regs := by
  cases m <;> simp [State.correctWord]

@[simp] theorem linkCtrls_rdWord (s : State) (m : MemId) (w : Nat) : linkCtrls (s.rdWord m w).1.regs = linkCtrls s.regs := by
  unfold State.rdWord
  split
  · simp (disch := decide)
  · dsimp only
    split
    · rfl
    · simp
    · simp (disch := decide)
    · split
      · simp
      · split <;> simp

@[simp] theorem linkCtrls_readyWord (s : State) (m : MemId) (w : Nat) : linkCtrls (s.readyWord m w).regs = linkCtrls s.regs := by
  unfold State.readyWord
  dsimp only
  split
  · split <;> simp
  · simp
  · rfl

@[simp] theorem linkCtrls_wrWord (s : State) (m : MemId) (w o : Nat) (bs : List Byte) :
    linkCtrls (s.wrWord m w o bs).regs = linkCtrls s.regs := by
  obtain ⟨hmode, -⟩ := injReg_below m
  simp [State.wrWord, hmode]

@[simp] theorem linkCtrls_rdWords (m : MemId) (ws : List Nat) (s : State) :
    linkCtrls (s.rdWords m ws).1.regs = linkCtrls s.regs := by
  induction ws generalizing s with
  | nil => rfl
  | cons w ws ih => simp [State.rdWords, ih]

@[simp] theorem linkCtrls_wrFrom (m : MemId) (fuel : Nat) (s : State) (a : Nat) (bs : List Byte) :
    linkCtrls (s.wrFrom m fuel a bs).regs = linkCtrls s.regs := by
  induction fuel generalizing s a bs with
  | zero => rfl
  | succ fuel ih => simp [State.wrFrom, ih]

/-! ## Frames cut off (R105, R129, R211) -/

@[simp] theorem linkCtrls_settleLen (s : State) (link frame len : Nat) :
    linkCtrls (s.settleLen link frame len).regs = linkCtrls s.regs :=
  linkCtrls_foldl (fun t d _ => by simp [State.rdCtx, State.rdTab, State.rdRange, State.wrCtxAt, State.wrTab, State.wrRange]) _

@[simp] theorem linkCtrls_setLen (s : State) (n frame len : Nat) : linkCtrls (s.setLen n frame len).regs = linkCtrls s.regs :=
  linkCtrls_settleLen _ n frame len

@[simp] theorem cutFrame_regs (s : State) (src frame : Nat) (bytes : List Byte) : (s.cutFrame src frame bytes).regs = s.regs := by
  unfold State.cutFrame
  dsimp only
  split <;> rfl

@[simp] theorem modEntry_regs (s : State) (n seq : Nat) (f : RoEntry → RoEntry) : (s.modEntry n seq f).regs = s.regs := rfl

@[simp] theorem linkCtrls_abortFrame (s : State) (n : Nat) (f : SpFrame) : linkCtrls (s.abortFrame n f).regs = linkCtrls s.regs := by
  unfold State.abortFrame
  dsimp only
  split
  · split <;> simp
  · split
    · split <;> simp
    · simp

theorem linkCtrls_errCount (s : State) {n : Nat} (hn : n < 24) (bs : List Byte) :
    linkCtrls (s.errCount n bs).regs = linkCtrls s.regs := by
  have hreg (k : Nat) (hk : k < 256) : 0x100000 + k + 0x100 * n < 0x1000000 := by omega
  have hdrops := linkCtrls_bump s (f := F.WH_STP_ERR_DROPS n) 1 (hreg 0x20 (by decide))
  have hbad := linkCtrls_bump s (f := F.WH_LA_BAD n) 1 (hreg 0x34 (by decide))
  have hforeign := linkCtrls_bump s (f := F.WH_LA_FOREIGN n) 1 (hreg 0x38 (by decide))
  simp only [State.errCount, State.asideCount, linkCtrls_ite, hdrops, hbad, hforeign, ite_self]

theorem linkCtrls_rxCut (s : State) {n : Nat} (hn : n < 24) : linkCtrls (s.rxCut n).regs = linkCtrls s.regs := by
  unfold State.rxCut
  dsimp only
  split
  · rw [linkCtrls_abortFrame, linkCtrls_errCount _ hn]
    rfl
  · rfl

@[simp] theorem cutTx_regs (s : State) (n : Nat) : (s.cutTx n).regs = s.regs := by
  unfold State.cutTx
  split
  · rfl
  · exact releaseEntry_regs _ _

end Sys2Proof.Machine
end

section
/-! Links: the state that a link which is not UP takes, how a link comes up and goes down, and what ENABLE, PARK and RECAL leave of it
(R341, R342, R352, R355, R356, R405, R472). -/

namespace Sys2Proof.Machine

theorem exec_linkEnable (n : Fin 40) (s : State) :
    exec (.linkEnable n) s = whenHost s (R.LK_CTRL n) fun s => s.enableLink n := rfl

theorem exec_linkDisable (n : Fin 40) (s : State) :
    exec (.linkDisable n) s = whenHost s (R.LK_CTRL n) fun s => s.disableLink n := rfl

theorem exec_park (n : Fin 40) (s : State) :
    exec (.park n) s = whenWritable s (R.LK_CTRL n) fun s => s.disableLink n := rfl

theorem exec_recal (n : Fin 40) (s : State) :
    exec (.recal n) s = whenWritable s (R.LK_CTRL n) fun s => s.recalLink n := rfl

theorem exec_recalDone (n : Fin 40) (codes : List Nat) (fails : List (Fin 8 × Bool)) (s : State) :
    exec (.recalDone n codes fails) s = whenLive s fun s => s.recalDone n codes fails := rfl

theorem exec_linkUp (n : Fin 40) (s : State) : exec (.linkUp n) s = whenLive s fun s =>
    if s.on (F.LK_CTRL_PERS n) || s.get (F.LK_STATUS_STATE n) != 1 || !s.trainable n then s else s.linkComesUp n := rfl

theorem exec_linkDown (n : Fin 40) (s : State) : exec (.linkDown n) s = whenLive s fun s =>
    if s.get (F.LK_STATUS_STATE n) != 4 then s else s.linkDown n ((s.link n).going.getD 2) := rfl

/-- A field reads as what was put into it where that fits. -/
theorem get_put_fits (s : State) {f : Fld} {v : Nat} (h : f.lo + f.w ≤ 32) (hv : v < 2 ^ f.w) : (s.put f v).get f = v := by
  rw [get_put_same s f v h, Nat.mod_eq_of_lt hv]

/-- A fold leaves a field as it is that none of its steps changes. -/
theorem foldl_get_other {α : Type} {g : State → α → State} {l : List α} {f : Fld} (h : ∀ t, ∀ a ∈ l, (g t a).get f = t.get f)
    (s : State) : (l.foldl g s).get f = s.get f :=
  List.foldlRecOn (motive := fun t => t.get f = s.get f) l g rfl fun t ht a ha => (h t a ha).trans ht

/-! ## Registers and links alone

`s.withLinksOf t` is `s` with the registers and the links of `t`: what a step on a link's own side may change. -/

def State.withLinksOf (s t : State) : State := { s with regs := t.regs, links := t.links }

theorem withLinksOf_trans {s t u : State} (hst : t = s.withLinksOf t) (htu : u = t.withLinksOf u) : u = s.withLinksOf u :=
  calc u = t.withLinksOf u := htu
    _ = (s.withLinksOf t).withLinksOf u := congrArg (fun x => State.withLinksOf x u) hst
    _ = s.withLinksOf u := rfl

theorem put_link (s : State) (f : Fld) (v n : Nat) : (s.put f v).link n = s.link n := rfl

theorem put_eq_withLinksOf (s : State) (f : Fld) (v : Nat) : s.put f v = s.withLinksOf (s.put f v) := rfl

theorem modLink_eq_withLinksOf (s : State) (n : Nat) (f : Link → Link) : s.modLink n f = s.withLinksOf (s.modLink n f) := rfl

/-! ## What a link that is not UP does (R341, R347, R356, R472) -/

/-- PARKED, SHUTTERED, LOCKING or DOWN. -/
theorem restState_cases (s : State) (n : Nat) : s.restState n = 5 ∨ s.restState n = 6 ∨ s.restState n = 1 ∨ s.restState n = 0 := by
  unfold State.restState
  split
  · exact .inl rfl
  · split
    · exact .inr (.inl rfl)
    · split
      · exact .inr (.inr (.inl rfl))
      · exact .inr (.inr (.inr rfl))

theorem restState_disabled {s : State} {n : Nat} (h : s.on (F.LK_CTRL_ENABLE n) = false) : s.restState n = 5 := by
  simp [State.restState, h]

/-- The wavelengths that a link takes with its state: those it trains on. -/
def State.restUse (s : State) (n : Nat) : Nat := if s.restState n = 1 then ((s.chooseRate n).map (·.2)).getD 0 else 0

/-- The state in which link `n` has taken the STATE that its conditions give it. -/
def State.rested (s : State) (n : Nat) : State :=
  ((s.put (F.LK_STATUS_STATE n) (s.restState n)).put (F.LK_LANE_IN_USE n) (s.restUse n)).modLink n fun l =>
    { l with
      locked := 0, coder := {}, lanesIn := []
      use := if s.restState n = 1 then s.restUse n else if s.restState n = 5 then 0 else l.use }

theorem evalLink_eq (s : State) (n : Nat) : s.evalLink n =
    if s.get (F.LK_STATUS_STATE n) = 4 ∨ (s.restState n = 1 ∧ 1 ≤ s.get (F.LK_STATUS_STATE n) ∧ s.get (F.LK_STATUS_STATE n) ≤ 3) then s
    else s.rested n := by
  cases hrate : s.chooseRate n <;>
    simp only [State.evalLink, State.rested, State.restUse, hrate, Option.map_none, Option.map_some, Option.getD_none, Option.getD_some,
      ite_self, Bool.or_eq_true, Bool.and_eq_true, decide_eq_true_eq, and_assoc]

/-- A link that is UP, or that trains and may go on training, is left as it is; any other takes its state. -/
theorem evalLink_cases (s : State) (n : Nat) : s.evalLink n = s ∨ s.evalLink n = s.rested n := by
  rw [evalLink_eq]
  split
  · exact .inl rfl
  · exact .inr rfl

theorem evalLink_parks {s : State} {n : Nat} (hdown : s.get (F.LK_STATUS_STATE n) ≠ 4) (hrest : s.restState n = 5) :
    s.evalLink n = s.rested n := by
  rw [evalLink_eq, if_neg (by simp [hdown, hrest])]

theorem evalLink_eq_withLinksOf (s : State) (n : Nat) : s.evalLink n = s.withLinksOf (s.evalLink n) := by
  rcases evalLink_cases s n with h | h <;> rw [h]
  · rfl
  · exact withLinksOf_trans (withLinksOf_trans (put_eq_withLinksOf s _ _) (put_eq_withLinksOf _ _ _)) (modLink_eq_withLinksOf _ n _)

theorem rested_state (s : State) (n : Nat) : (s.rested n).get (F.LK_STATUS_STATE n) = s.restState n := by
  have hfits : s.restState n < 2 ^ 3 := by rcases restState_cases s n with h | h | h | h <;> simp [h]
  rw [State.rested, get_congr (State.modLink_regs _ _ _), get_put_otherReg _ _ _ _ (by simp), get_put_fits _ (by simp) hfits]

/-- A link that is not UP stays so. -/
theorem evalLink_state_ne_up {s : State} {n : Nat} (h : s.get (F.LK_STATUS_STATE n) ≠ 4) :
    (s.evalLink n).get (F.LK_STATUS_STATE n) ≠ 4 := by
  rcases evalLink_cases s n with he | he <;> rw [he]
  · exact h
  · rw [rested_state]
    rcases restState_cases s n with hr | hr | hr | hr <;> rw [hr] <;> decide

/-- Of the registers, STATE and IN_USE alone may change. -/
theorem evalLink_get (s : State) (n : Nat) {f : Fld} (hfits : f.lo + f.w ≤ 32) (hstate : f.reg ≠ R.LK_STATUS n ∨ 3 ≤ f.lo)
    (huse : f.reg ≠ R.LK_LANE n ∨ f.lo + f.w ≤ 16 ∨ 24 ≤ f.lo) : (s.evalLink n).get f = s.get f := by
  rcases evalLink_cases s n with h | h <;> rw [h]
  rw [State.rested, get_congr (State.modLink_regs _ _ _), get_put_other _ _ _ _ hfits huse,
    get_put_other _ _ _ _ hfits (hstate.imp_right .inr)]

theorem evalLink_on (s : State) (n : Nat) {f : Fld} (hfits : f.lo + f.w ≤ 32) (hstate : f.reg ≠ R.LK_STATUS n ∨ 3 ≤ f.lo)
    (huse : f.reg ≠ R.LK_LANE n ∨ f.lo + f.w ≤ 16 ∨ 24 ≤ f.lo) : (s.evalLink n).on f = s.on f := by
  simp only [State.on, evalLink_get s n hfits hstate huse]

/-- Of the link, its lanes' coding and the wavelengths in use alone may change. -/
theorem evalLink_link (s : State) (n : Nat) : ∃ locked coder lanesIn use, (s.evalLink n).link n
    = { s.link n with locked := locked, coder := coder, lanesIn := lanesIn, use := use } := by
  rcases evalLink_cases s n with h | h <;> rw [h]
  · exact ⟨_, _, _, _, rfl⟩
  · rw [State.rested, State.modLink_link_same, put_link, put_link]
    exact ⟨_, _, _, _, rfl⟩

theorem evalLink_recalFrom (s : State) (n : Nat) : ((s.evalLink n).link n).recalFrom = (s.link n).recalFrom := by
  obtain ⟨_, _, _, _, h⟩ := evalLink_link s n
  rw [h]

theorem evalLink_downAt (s : State) (n : Nat) : ((s.evalLink n).link n).downAt = (s.link n).downAt := by
  obtain ⟨_, _, _, _, h⟩ := evalLink_link s n
  rw [h]

@[simp] theorem linkCtrls_evalLink (s : State) (n : Nat) : linkCtrls (s.evalLink n).regs = linkCtrls s.regs := by
  rcases evalLink_cases s n with h | h <;> rw [h]
  rw [State.rested, State.modLink_regs, linkCtrls_put_beside _ _ (.inr rfl), linkCtrls_put_beside _ _ (.inl rfl)]

/-! ## A link comes up (R342, R356, R472) -/

theorem waveMask_cons (w : Nat) (ws : List Nat) : waveMask (w :: ws) = 2 ^ w + waveMask ws := by
  rw [waveMask, List.map_cons, List.sum_cons, waveMask]

theorem waveMask_le_of_sublist {vs ws : List Nat} (h : vs.Sublist ws) : waveMask vs ≤ waveMask ws := by
  induction h with
  | slnil => exact Nat.le_refl _
  | cons w _ ih =>
    rw [waveMask_cons]
    exact Nat.le_add_left_of_le ih
  | cons_cons w _ ih =>
    rw [waveMask_cons, waveMask_cons]
    exact Nat.add_le_add_left ih _

/-- A choice of the eight wavelengths as a mask. -/
theorem waveMask_lt {ws : List Nat} (h : ws.Sublist (List.range 8)) : waveMask ws < 256 :=
  Nat.lt_of_le_of_lt (waveMask_le_of_sublist h) (by decide)

/-- A rate's code fits RATE_NOW, and its wavelengths IN_USE. -/
theorem chooseRate_bounds {s : State} {n code mask : Nat} (h : s.chooseRate n = some (code, mask)) : code < 8 ∧ mask < 256 := by
  have hfree : (freeWaves (s.dark n)).Sublist (List.range 8) := List.filter_sublist
  have hall := waveMask_lt hfree
  have htake (k : Nat) : waveMask ((freeWaves (s.dark n)).take k) < 256 := waveMask_lt ((List.take_sublist k _).trans hfree)
  unfold State.chooseRate at h
  dsimp only at h
  split at h
  · split at h
    · cases h; decide
    · split at h
      · cases h; exact ⟨by decide, hall⟩
      · cases h
  · split at h
    · cases h; decide
    · split at h
      · cases h; exact ⟨by decide, htake 4⟩
      · split at h
        · cases h; exact ⟨by decide, htake 2⟩
        · cases h

/-- The state in which link `n` is UP at a rate, on the wavelengths of a mask. -/
def State.upAt (s : State) (n code mask : Nat) : State :=
  (((s.put (F.LK_STATUS_STATE n) 4).put (F.LK_STATUS_RATE_NOW n) code).put (F.LK_LANE_IN_USE n) mask).modLink n fun l =>
    { l with use := mask, been := true, going := none }

theorem linkComesUp_at {s : State} {n code mask : Nat} (h : s.chooseRate n = some (code, mask)) : s.linkComesUp n =
    let v := (s.upAt n code mask).raise 0x0601 (payload 16 [(0, 1, n), (1, 1, s.get (F.LK_CTRL_PERS n)), (2, 1, code)])
    if n < 24 then v.pairUp (n / 2) else v := by
  simp only [State.linkComesUp, h]
  rfl

theorem upAt_state (s : State) (n code mask : Nat) : (s.upAt n code mask).get (F.LK_STATUS_STATE n) = 4 := by
  rw [State.upAt, get_congr (State.modLink_regs _ _ _), get_put_otherReg _ _ _ _ (by simp),
    get_put_other _ _ _ _ (by simp) (by simp), get_put_fits _ (by simp) (by simp)]

theorem upAt_rate (s : State) (n : Nat) {code : Nat} (mask : Nat) (h : code < 8) :
    (s.upAt n code mask).get (F.LK_STATUS_RATE_NOW n) = code := by
  rw [State.upAt, get_congr (State.modLink_regs _ _ _), get_put_otherReg _ _ _ _ (by simp), get_put_fits _ (by simp) h]

theorem upAt_inUse (s : State) (n code : Nat) {mask : Nat} (h : mask < 256) :
    (s.upAt n code mask).get (F.LK_LANE_IN_USE n) = mask := by
  rw [State.upAt, get_congr (State.modLink_regs _ _ _), get_put_fits _ (by simp) h]

theorem upAt_been (s : State) (n code mask : Nat) : ((s.upAt n code mask).link n).been = true :=
  congrArg Link.been (State.modLink_link_same _ n _)

/-- A one-bit field that is not 1 is 0. -/
theorem get_eq_zero_of_off {s : State} {f : Fld} (hw : f.w = 1) (h : s.on f = false) : s.get f = 0 := by
  have hlt : s.get f < 2 ^ f.w := bits_lt _ _ _
  have hne : s.get f ≠ 1 := by simpa [State.on] using h
  rw [hw] at hlt
  omega

/-! ## A link goes down (R210, R211, R342) -/

/-- The state in which link `n` has just left UP: DOWN, no rate, no wavelength, from this cycle on. -/
def State.leftUp (s : State) (n : Nat) : State :=
  (((s.put (F.LK_STATUS_STATE n) 0).put (F.LK_STATUS_RATE_NOW n) 7).put (F.LK_LANE_IN_USE n) 0).modLink n fun l =>
    { l with downAt := s.clk.cycle, going := none }

/-- That state with the STATE its conditions give the link, and without its Luapo traffic. -/
def State.wentDown (s : State) (n : Nat) : State := ((s.leftUp n).evalLink n).clearLuapo n

/-- LINK_DOWN's record (R90). -/
def State.saysDown (s : State) (n reason : Nat) : State := s.raise 0x0602 (payload 16 [(0, 1, n), (1, 1, reason)])

/-- The frames of an Ethernet link that goes: those queued to it, the one it sends, the one it receives. -/
def State.framesLost (s : State) (n : Nat) : State := ((s.dropLink n).cutTx n).rxCut n

/-- No verdict record and no frame of its own waits on link `n`. -/
def State.ownForgotten (s : State) (n : Nat) : State :=
  { s with
    intake := { s.intake with verdictQ := sset [] s.intake.verdictQ n [] }
    egress := { s.egress with aside := sset [] s.egress.aside n [] } }

theorem ownForgotten_regs (s : State) (n : Nat) : (s.ownForgotten n).regs = s.regs := rfl

theorem ownForgotten_verdictQ (s : State) (n : Nat) : (s.ownForgotten n).verdictQ n = [] := sget_sset_same [] _ n []

theorem ownForgotten_aside (s : State) (n : Nat) : sget [] (s.ownForgotten n).egress.aside n = [] := sget_sset_same [] _ n []

theorem linkDown_notUp {s : State} {n : Nat} (h : s.get (F.LK_STATUS_STATE n) ≠ 4) (reason : Nat) :
    s.linkDown n reason = s.evalLink n :=
  if_pos (by simpa using h)

theorem linkDown_up {s : State} {n : Nat} (h : s.get (F.LK_STATUS_STATE n) = 4) (reason : Nat) : s.linkDown n reason =
    if 24 ≤ n then (s.wentDown n).saysDown n reason else (((s.wentDown n).saysDown n reason).framesLost n).ownForgotten n := by
  unfold State.linkDown State.ownForgotten State.framesLost State.saysDown State.wentDown State.leftUp
  rw [if_neg (by simp [h])]

theorem freeWaiting_eq (s : State) (n : Nat) : ∃ luapo, s.freeWaiting n = { s with luapo := luapo } := by
  unfold State.freeWaiting
  dsimp only
  generalize (List.map _ (sget {} s.luapo n).out).flatten = waiting
  induction waiting generalizing s with
  | nil => exact ⟨s.luapo, rfl⟩
  | cons x waiting ih =>
    rw [List.foldl_cons]
    split
    · exact ih s
    · obtain ⟨luapo, h⟩ := ih { s with luapo := smod {} s.luapo ((x.1 - 1) / 4) fun l =>
        { l with freed := smod 0 l.freed ((x.1 - 1) % 4) (· + x.2) } }
      exact ⟨luapo, h⟩

/-- What a link loses of its Luapo traffic is part of that alone. -/
theorem clearLuapo_eq (s : State) (n : Nat) : ∃ luapo, s.clearLuapo n = { s with luapo := luapo } := by
  obtain ⟨luapo, h⟩ := freeWaiting_eq s n
  refine ⟨(s.clearLuapo n).luapo, ?_⟩
  rw [State.clearLuapo, h]
  rfl

@[simp] theorem clearLuapo_regs (s : State) (n : Nat) : (s.clearLuapo n).regs = s.regs := by
  obtain ⟨luapo, h⟩ := clearLuapo_eq s n
  rw [h]

theorem clearLuapo_link (s : State) (n m : Nat) : (s.clearLuapo n).link m = s.link m := by
  obtain ⟨luapo, h⟩ := clearLuapo_eq s n
  rw [h]
  rfl

theorem leftUp_state (s : State) (n : Nat) : (s.leftUp n).get (F.LK_STATUS_STATE n) = 0 := by
  rw [State.leftUp, get_congr (State.modLink_regs _ _ _), get_put_otherReg _ _ _ _ (by simp),
    get_put_other _ _ _ _ (by simp) (by simp), get_put_fits _ (by simp) (by simp)]

theorem leftUp_rate (s : State) (n : Nat) : (s.leftUp n).get (F.LK_STATUS_RATE_NOW n) = 7 := by
  rw [State.leftUp, get_congr (State.modLink_regs _ _ _), get_put_otherReg _ _ _ _ (by simp),
    get_put_fits _ (by simp) (by simp)]

theorem wentDown_state (s : State) (n : Nat) : (s.wentDown n).get (F.LK_STATUS_STATE n) ≠ 4 := by
  rw [State.wentDown, get_congr (clearLuapo_regs _ n)]
  exact evalLink_state_ne_up (by rw [leftUp_state]; decide)

theorem wentDown_rate (s : State) (n : Nat) : (s.wentDown n).get (F.LK_STATUS_RATE_NOW n) = 7 := by
  rw [State.wentDown, get_congr (clearLuapo_regs _ n), evalLink_get _ _ (by simp) (by simp) (by simp), leftUp_rate]

theorem wentDown_downAt (s : State) (n : Nat) : ((s.wentDown n).link n).downAt = s.clk.cycle := by
  rw [State.wentDown, clearLuapo_link, evalLink_downAt, State.leftUp, State.modLink_link_same]

theorem linkCtrls_wentDown (s : State) (n : Nat) : linkCtrls (s.wentDown n).regs = linkCtrls s.regs := by
  rw [State.wentDown, clearLuapo_regs, linkCtrls_evalLink, State.leftUp, State.modLink_regs, linkCtrls_put_beside _ _ (.inr rfl),
    linkCtrls_put_beside _ _ (.inl rfl), linkCtrls_put_beside _ _ (.inl rfl)]

theorem linkCtrls_framesLost (s : State) {n : Nat} (hn : n < 24) : linkCtrls (s.framesLost n).regs = linkCtrls s.regs := by
  rw [State.framesLost, linkCtrls_rxCut _ hn, cutTx_regs, linkCtrls_dropLink _ hn]

/-- A link that goes down keeps its controls, ENABLE among them. -/
theorem linkCtrls_linkDown (s : State) (n reason : Nat) : linkCtrls (s.linkDown n reason).regs = linkCtrls s.regs := by
  by_cases hup : s.get (F.LK_STATUS_STATE n) = 4
  · have hsays : linkCtrls ((s.wentDown n).saysDown n reason).regs = linkCtrls s.regs :=
      (linkCtrls_raise _ _ _ _).trans (linkCtrls_wentDown s n)
    rw [linkDown_up hup]
    split
    · exact hsays
    · rw [ownForgotten_regs, linkCtrls_framesLost _ (by omega), hsays]
  · rw [linkDown_notUp hup, linkCtrls_evalLink]

/-! ## ENABLE and PARK (R341, R355, R405) -/

/-- The state in which ENABLE of link `n` has been set. -/
def State.enabled (s : State) (n : Nat) : State :=
  (s.putB (F.LK_CTRL_ENABLE n) true).modLink n fun l => { l with been := false }

section
variable {s : State} {n : Nat}

theorem enableLink_already (h : s.on (F.LK_CTRL_ENABLE n) = true) : s.enableLink n = s := if_pos h

theorem enableLink_allowed (hoff : s.on (F.LK_CTRL_ENABLE n) = false) (hallowed : (s.enabled n).allowed n = true) :
    s.enableLink n = (s.enabled n).evalLink n := by
  simp only [State.enabled] at hallowed
  simp [State.enableLink, State.enabled, hoff, hallowed]

theorem enableLink_barred (hoff : s.on (F.LK_CTRL_ENABLE n) = false) (hbarred : (s.enabled n).allowed n = false) :
    s.enableLink n = ((s.enabled n).linkDown n 3).trip 7 n 0 := by
  simp only [State.enabled] at hbarred
  simp [State.enableLink, State.enabled, State.barLink, hoff, hbarred]

theorem disableLink_on (h : s.on (F.LK_CTRL_ENABLE n) = true) : s.disableLink n = s.parkLink n := if_pos h

theorem disableLink_off (h : s.on (F.LK_CTRL_ENABLE n) = false) : s.disableLink n = s := if_neg (by simp [h])

end

/-- What a link forgets as it parks: its dark wavelengths, and what they kept it from (R355). -/
def State.darkForgotten (s : State) (n : Nat) : State :=
  (s.put (F.LK_LANE_DARK n) 0).modLink n fun l => { l with been := false, dead := false, settleFrom := none, use := 0 }

theorem parkLink_eq (s : State) (n : Nat) :
    s.parkLink n = (((s.putB (F.LK_CTRL_ENABLE n) false).linkDown n 3).darkForgotten n).evalLink n := rfl

theorem linkCtrls_darkForgotten (s : State) (n : Nat) : linkCtrls (s.darkForgotten n).regs = linkCtrls s.regs :=
  linkCtrls_put_beside s 0 (.inr rfl)

/-- A parked link is disabled: nothing that its way down does sets ENABLE. -/
theorem parkLink_disabled (s : State) (n : Nat) : (s.parkLink n).on (F.LK_CTRL_ENABLE n) = false := by
  have hkeeps : linkCtrls (s.parkLink n).regs = linkCtrls (s.putB (F.LK_CTRL_ENABLE n) false).regs := by
    rw [parkLink_eq, linkCtrls_evalLink, linkCtrls_darkForgotten, linkCtrls_linkDown]
  have hoff : (s.putB (F.LK_CTRL_ENABLE n) false).on (F.LK_CTRL_ENABLE n) = false := on_putB_same s _ false rfl (by simp)
  rw [State.on] at hoff ⊢
  rwa [get_linkCtrl_congr hkeeps rfl]

/-- A link that was not UP is PARKED without an event. -/
theorem parkLink_notUp {s : State} {n : Nat} (h : s.get (F.LK_STATUS_STATE n) ≠ 4) :
    (s.parkLink n).get (F.LK_STATUS_STATE n) = 5 ∧ (s.parkLink n).get (F.LK_LANE_DARK n) = 0
      ∧ s.parkLink n = s.withLinksOf (s.parkLink n) := by
  have hdown : (s.putB (F.LK_CTRL_ENABLE n) false).get (F.LK_STATUS_STATE n) ≠ 4 := by
    rwa [get_putB_other _ _ _ _ (by simp) (by simp)]
  obtain ⟨t, ht⟩ : ∃ t, t = ((s.putB (F.LK_CTRL_ENABLE n) false).evalLink n).darkForgotten n := ⟨_, rfl⟩
  have heq : s.parkLink n = t.evalLink n := by rw [parkLink_eq, linkDown_notUp hdown, ht]
  have hoff : t.on (F.LK_CTRL_ENABLE n) = false := by
    rw [ht, State.darkForgotten, on_congr (State.modLink_regs _ _ _), on_put_other _ _ _ _ (by simp) (by simp),
      evalLink_on _ _ (by simp) (by simp) (by simp), on_putB_same _ _ _ rfl (by simp)]
  have hstate : t.get (F.LK_STATUS_STATE n) ≠ 4 := by
    rw [ht, State.darkForgotten, get_congr (State.modLink_regs _ _ _), get_put_otherReg _ _ _ _ (by simp)]
    exact evalLink_state_ne_up hdown
  refine ⟨?_, ?_, ?_⟩
  · rw [heq, evalLink_parks hstate (restState_disabled hoff), rested_state, restState_disabled hoff]
  · rw [heq, evalLink_get _ _ (by simp) (by simp) (by simp), ht, State.darkForgotten, get_congr (State.modLink_regs _ _ _),
      get_put_same _ _ _ (by simp), Nat.zero_mod]
  · have hfirst := evalLink_eq_withLinksOf (s.putB (F.LK_CTRL_ENABLE n) false) n
    have hsecond : t = s.withLinksOf t := by
      rw [ht]
      exact withLinksOf_trans (withLinksOf_trans (withLinksOf_trans (put_eq_withLinksOf s _ _) hfirst) (put_eq_withLinksOf _ _ _))
        (modLink_eq_withLinksOf _ n _)
    rw [heq]
    exact withLinksOf_trans hsecond (evalLink_eq_withLinksOf t n)

/-! ## Recalibration (R352) -/

/-- The state in which a recalibration of link `n` has begun. -/
def State.recalBegun (s : State) (n : Nat) : State :=
  s.modLink n fun l => { l with recalFrom := some s.clk.cycle, settleFrom := none, been := false }

theorem recalLink_notUp {s : State} {n : Nat} (h : s.get (F.LK_STATUS_STATE n) ≠ 4) : s.recalLink n = (s.recalBegun n).evalLink n :=
  linkDown_notUp (by rwa [State.get, State.word]) 3

theorem recalBegun_recalFrom (s : State) (n : Nat) : ((s.recalBegun n).link n).recalFrom = some s.clk.cycle :=
  congrArg Link.recalFrom (State.modLink_link_same s n _)

theorem recalDone_idle {s : State} {n : Nat} (h : (s.link n).recalFrom = none) (codes : List Nat) (fails : List (Fin 8 × Bool)) :
    s.recalDone n codes fails = s := by
  simp [State.recalDone, h]

/-- The state in which a recalibration of link `n` has ended, before failures are reported. -/
def State.recalEnded (s : State) (n : Nat) (codes : List Nat) : State :=
  (((s.put (F.LK_LANE_DARK n) 0).put (F.LK_LANE_CAL_FAIL n) 0).setCodes n codes).modLink n fun l =>
    { l with recalFrom := none, dead := false, use := 0 }

theorem recalDone_noFails {s : State} {n c0 : Nat} (h : (s.link n).recalFrom = some c0) (codes : List Nat) :
    s.recalDone n codes [] = (s.recalEnded n codes).evalLink n := by
  simp [State.recalDone, h, State.recalEnded]

/-- A ring's register is neither LK_STATUS nor LK_LANE. -/
theorem ringReg_ne (n w : Nat) : R.LK_RING n w ≠ R.LK_STATUS n ∧ R.LK_RING n w ≠ R.LK_LANE n := by
  constructor
  · show 0x1000080 + 0x10000 * n + 0x4 * w ≠ 0x1000004 + 0x10000 * n
    omega
  · show 0x1000080 + 0x10000 * n + 0x4 * w ≠ 0x1000008 + 0x10000 * n
    omega

/-- One wavelength's heater codes set. -/
def State.setCode (n : Nat) (codes : List Nat) (t : State) (w : Nat) : State :=
  (t.put (F.LK_RING_TX_CODE n w) (codes.getD w 0)).put (F.LK_RING_RX_CODE n w) (codes.getD (8 + w) 0)

theorem setCodes_eq (s : State) (n : Nat) (codes : List Nat) : s.setCodes n codes = (List.range 8).foldl (State.setCode n codes) s := rfl

theorem setCode_tx (n : Nat) (codes : List Nat) (t : State) (w : Nat) :
    (State.setCode n codes t w).get (F.LK_RING_TX_CODE n w) = codes.getD w 0 % 4096 := by
  rw [State.setCode, get_put_other _ _ _ _ (by simp) (by simp), get_put_same _ _ _ (by simp)]
  rfl

theorem setCode_rx (n : Nat) (codes : List Nat) (t : State) (w : Nat) :
    (State.setCode n codes t w).get (F.LK_RING_RX_CODE n w) = codes.getD (8 + w) 0 % 4096 := by
  rw [State.setCode, get_put_same _ _ _ (by simp)]
  rfl

theorem setCode_get_otherReg (n : Nat) (codes : List Nat) (t : State) {w : Nat} {f : Fld} (h : f.reg ≠ R.LK_RING n w) :
    (State.setCode n codes t w).get f = t.get f :=
  (get_put_otherReg _ _ _ _ h).trans (get_put_otherReg _ _ _ _ h)

/-- A ring's register holds what its own step put there: of wavelengths that do not repeat, no later one touches it. -/
theorem foldl_setCode_get {n : Nat} {codes : List Nat} {f : Fld} {w v : Nat} {ws : List Nat} (hreg : f.reg = R.LK_RING n w)
    (hown : ∀ t, (State.setCode n codes t w).get f = v) (hnodup : ws.Nodup) (hw : w ∈ ws) (t : State) :
    (ws.foldl (State.setCode n codes) t).get f = v := by
  induction ws generalizing t with
  | nil => exact absurd hw List.not_mem_nil
  | cons x ws ih =>
    obtain ⟨hx, hnodup⟩ := List.nodup_cons.1 hnodup
    rw [List.foldl_cons]
    rcases List.mem_cons.1 hw with rfl | hw
    · refine (foldl_get_other (fun u y hy => setCode_get_otherReg n codes u ?_) _).trans (hown t)
      rw [hreg]
      intro heq
      have hwy : w = y := by
        have : 0x1000080 + 0x10000 * n + 0x4 * w = 0x1000080 + 0x10000 * n + 0x4 * y := heq
        omega
      exact hx (hwy ▸ hy)
    · exact ih hnodup hw _

theorem foldl_setCode_eq_withLinksOf (n : Nat) (codes ws : List Nat) (t : State) :
    ws.foldl (State.setCode n codes) t = t.withLinksOf (ws.foldl (State.setCode n codes) t) :=
  List.foldlRecOn (motive := fun u => u = t.withLinksOf u) ws (State.setCode n codes) rfl fun u hu _ _ =>
    withLinksOf_trans hu (withLinksOf_trans (put_eq_withLinksOf u _ _) (put_eq_withLinksOf _ _ _))

section
variable (s : State) (n : Nat) (codes : List Nat)

theorem recalEnded_recalFrom : ((s.recalEnded n codes).link n).recalFrom = none :=
  congrArg Link.recalFrom (State.modLink_link_same _ n _)

/-- LK_LANE is no ring's register. -/
theorem recalEnded_lane {f : Fld} (h : f.reg = R.LK_LANE n) :
    (s.recalEnded n codes).get f = ((s.put (F.LK_LANE_DARK n) 0).put (F.LK_LANE_CAL_FAIL n) 0).get f := by
  rw [State.recalEnded, get_congr (State.modLink_regs _ _ _), setCodes_eq]
  refine foldl_get_other (fun t w _ => setCode_get_otherReg n codes t ?_) _
  rw [h]
  exact (ringReg_ne n w).2.symm

theorem recalEnded_dark : (s.recalEnded n codes).get (F.LK_LANE_DARK n) = 0 := by
  rw [recalEnded_lane s n codes rfl, get_put_other _ _ _ _ (by simp) (by simp), get_put_same _ _ _ (by simp), Nat.zero_mod]

theorem recalEnded_calFail : (s.recalEnded n codes).get (F.LK_LANE_CAL_FAIL n) = 0 := by
  rw [recalEnded_lane s n codes rfl, get_put_same _ _ _ (by simp), Nat.zero_mod]

theorem recalEnded_codes {w : Nat} (hw : w < 8) :
    (s.recalEnded n codes).get (F.LK_RING_TX_CODE n w) = codes.getD w 0 % 4096
      ∧ (s.recalEnded n codes).get (F.LK_RING_RX_CODE n w) = codes.getD (8 + w) 0 % 4096 := by
  have hcodes (f : Fld) : (s.recalEnded n codes).get f
      = ((List.range 8).foldl (State.setCode n codes) ((s.put (F.LK_LANE_DARK n) 0).put (F.LK_LANE_CAL_FAIL n) 0)).get f := by
    rw [State.recalEnded, get_congr (State.modLink_regs _ _ _), setCodes_eq]
  rw [hcodes, hcodes]
  have hmem : w ∈ List.range 8 := List.mem_range.2 hw
  exact ⟨foldl_setCode_get (f := F.LK_RING_TX_CODE n w) rfl (fun t => setCode_tx n codes t w) List.nodup_range hmem _,
    foldl_setCode_get (f := F.LK_RING_RX_CODE n w) rfl (fun t => setCode_rx n codes t w) List.nodup_range hmem _⟩

theorem recalEnded_eq_withLinksOf : s.recalEnded n codes = s.withLinksOf (s.recalEnded n codes) := by
  have hmasks := withLinksOf_trans (put_eq_withLinksOf s (F.LK_LANE_DARK n) 0) (put_eq_withLinksOf _ (F.LK_LANE_CAL_FAIL n) 0)
  exact withLinksOf_trans (withLinksOf_trans hmasks (foldl_setCode_eq_withLinksOf n codes (List.range 8) _))
    (modLink_eq_withLinksOf _ n _)

end

/-! ## The statement -/

theorem linkDown_forgetsOwn {s : State} {n : Nat} (hup : s.get (F.LK_STATUS_STATE n) = 4) (hn : n < 24) (reason : Nat) :
    (s.linkDown n reason).verdictQ n = [] ∧ sget [] (s.linkDown n reason).egress.aside n = [] := by
  rw [linkDown_up hup, if_neg (by omega)]
  exact ⟨ownForgotten_verdictQ _ n, ownForgotten_aside _ n⟩

/-- Settles O43: ENABLE, PARK and RECAL of a link by whether it is UP, LINK_UP by the rate that its wavelengths carry, LINK_DOWN by what
leaving UP takes with it. -/
theorem linksRun : Obligations.LinksRun := by
  unfold Obligations.LinksRun
  constructor
  case left =>
    intro s n htakes hlink on
    have henable : exec (.linkEnable n) s = .next (s.enableLink n) := by rw [exec_linkEnable, whenHost_true htakes hlink]
    have hdisable : exec (.linkDisable n) s = .next (s.disableLink n) := by rw [exec_linkDisable, whenHost_true htakes hlink]
    have hpark : exec (.park n) s = .next (s.disableLink n) := by rw [exec_park, whenWritable_true htakes]
    have hrecal : exec (.recal n) s = .next (s.recalLink n) := by rw [exec_recal, whenWritable_true htakes]
    rw [henable, hdisable, hpark, hrecal]
    refine ⟨⟨rfl, rfl, rfl, rfl⟩, fun hon => ⟨disableLink_on hon, parkLink_disabled s n⟩, fun hoff hallowed => ?comesOn,
      fun hoff hbarred => ?isBarred, fun hon => ?already, fun hoff => ?isOff, fun hon hdown => ?parks, fun hdown => ?recals,
      fun codes fails hlive => ?done, fun codes c0 hlive hfrom => ?ends, fun hidle codes fails => ?idle⟩
    case comesOn => rw [enableLink_allowed hoff hallowed]; rfl
    case isBarred => rw [enableLink_barred hoff hbarred]; rfl
    case already => rw [enableLink_already hon]
    case isOff => rw [disableLink_off hoff]; exact ⟨rfl, rfl⟩
    case parks =>
      obtain ⟨hstate, hdark, hrest⟩ := parkLink_notUp hdown
      rw [disableLink_on hon]
      exact ⟨_, rfl, rfl, parkLink_disabled s n, hstate, hdark, hrest⟩
    case recals =>
      rw [recalLink_notUp hdown]
      exact ⟨_, rfl, (evalLink_recalFrom _ _).trans (recalBegun_recalFrom s n),
        withLinksOf_trans (modLink_eq_withLinksOf s n _) (evalLink_eq_withLinksOf (s.recalBegun n) n)⟩
    case done => rw [exec_recalDone, whenLive_true hlive]
    case ends =>
      rw [exec_recalDone, whenLive_true hlive, recalDone_noFails hfrom]
      refine ⟨_, rfl, (evalLink_recalFrom _ _).trans (recalEnded_recalFrom s n codes), ?_, ?_, fun w => ?_, ?_⟩
      · rw [evalLink_get _ _ (by simp) (by simp) (by simp), recalEnded_dark]
      · rw [evalLink_get _ _ (by simp) (by simp) (by simp), recalEnded_calFail]
      · obtain ⟨htx, hrx⟩ := recalEnded_codes s n codes w.isLt
        obtain ⟨hstate, hlane⟩ := ringReg_ne n w
        exact ⟨(evalLink_get _ _ (by simp) (.inl hstate) (.inl hlane)).trans htx,
          (evalLink_get _ _ (by simp) (.inl hstate) (.inl hlane)).trans hrx⟩
      · exact withLinksOf_trans (recalEnded_eq_withLinksOf s n codes) (evalLink_eq_withLinksOf _ _)
    case idle => rw [exec_recalDone]; exact whenLive_same (recalDone_idle hidle codes fails)
  case right =>
    intro s n hlive
    rw [exec_linkUp, exec_linkDown, whenLive_true hlive, whenLive_true hlive]
    refine ⟨fun code mask hpers hstate htrain hrate => ?comesUp, fun hstate => ?notTraining, fun hup => ?goes, fun hup hn => ?luapoGoes,
      fun hup hn => ?ethernetGoes, fun hdown => ?notUp⟩
    case comesUp =>
      obtain ⟨hcode, hmask⟩ := chooseRate_bounds hrate
      refine ⟨s.upAt n code mask, upAt_state s n code mask, upAt_rate s n mask hcode, upAt_inUse s n code hmask,
        upAt_been s n code mask, ?_⟩
      rw [if_neg (by simp [hpers, hstate, htrain]), linkComesUp_at hrate, get_eq_zero_of_off rfl hpers]
    case notTraining => rw [if_pos (by simp [hstate])]
    case goes => rw [if_neg (by simp [hup])]
    case luapoGoes =>
      refine ⟨s.wentDown n, wentDown_state s n, wentDown_rate s n, wentDown_downAt s n, ?_⟩
      rw [if_neg (by simp [hup]), linkDown_up hup, if_pos hn]
      rfl
    case ethernetGoes =>
      rw [if_neg (by simp [hup])]
      exact ⟨_, rfl, linkDown_forgetsOwn hup hn _⟩
    case notUp => rw [if_pos (by simpa using hdown)]

end Sys2Proof.Machine
end

section
/-! Light and laser inlets: what the loss and the return of a link's light leave, when APR_N is released, and what a measured inlet power
does to the links it feeds (R347, R348, R360). -/

namespace Sys2Proof.Machine

theorem exec_lossOfLight (n : Fin 40) (power : BitVec 16) (s : State) : exec (.lossOfLight n power) s
    = whenLive s fun s => if s.on (F.LK_STATUS_LOS n) then s else s.loseLight n power.toNat := rfl

theorem exec_losClear (n : Fin 40) (power : BitVec 16) (s : State) :
    exec (.losClear n power) s = execLosClear n power s := rfl

theorem exec_aprRelease (i : Fin 10) (s : State) : exec (.aprRelease i) s = whenLive s fun s => s.releaseApr i := rfl

theorem exec_inletLow (i : Fin 10) (power : BitVec 16) (s : State) : exec (.inletLow i power) s
    = whenLive s fun s => if 1900 ≤ sInt 16 power.toNat then s
        else (List.range 4).foldl (fun t k => State.linkDown t (4 * i + k) 2) (s.setInlet i power.toNat) := rfl

theorem exec_inletPowerRestored (i : Fin 10) (power : BitVec 16) (s : State) : exec (.inletPowerRestored i power) s
    = whenLive s fun s => if sInt 16 power.toNat < 1900 then s
        else (List.range 4).foldl (fun t k => State.evalLink t (4 * i + k)) (s.setInlet i power.toNat) := rfl

/-! ## Registers alone

`s.withRegsOf t` is `s` with the registers of `t`. -/

def State.withRegsOf (s t : State) : State := { s with regs := t.regs }

theorem withRegsOf_trans {s t u : State} (hst : t = s.withRegsOf t) (htu : u = t.withRegsOf u) : u = s.withRegsOf u :=
  calc u = t.withRegsOf u := htu
    _ = (s.withRegsOf t).withRegsOf u := congrArg (fun x => State.withRegsOf x u) hst
    _ = s.withRegsOf u := rfl

theorem put_eq_withRegsOf (s : State) (f : Fld) (v : Nat) : s.put f v = s.withRegsOf (s.put f v) := rfl

theorem putB_eq_withRegsOf (s : State) (f : Fld) (b : Bool) : s.putB f b = s.withRegsOf (s.putB f b) := rfl

theorem get_putB_otherReg (s : State) {f g : Fld} (b : Bool) (h : g.reg ≠ f.reg) : (s.putB f b).get g = s.get g :=
  get_put_otherReg s f g _ h

/-! ## LOS and the power received (R347) -/

/-- The state with LOS of link `n` and the power it receives as seen now. -/
def State.lightSeen (s : State) (n : Nat) (los : Bool) (power : Nat) : State :=
  (s.putB (F.LK_STATUS_LOS n) los).put (F.LK_TOTAL_RX n) power

section
variable (s : State) (n : Nat) (los : Bool)

theorem lightSeen_los (power : Nat) : (s.lightSeen n los power).on (F.LK_STATUS_LOS n) = los := by
  rw [State.lightSeen, on_put_other _ _ _ _ (by simp) (by simp), on_putB_same _ _ _ rfl (by simp)]

theorem lightSeen_rx (power : BitVec 16) : (s.lightSeen n los power.toNat).get (F.LK_TOTAL_RX n) = power.toNat :=
  get_put_fits _ (by simp) power.isLt

theorem lightSeen_out (power : Nat) : (s.lightSeen n los power).out = s.out := by
  rw [State.lightSeen, State.put_out, State.putB_out]

theorem lightSeen_losClear (power : Nat) : (s.lightSeen n los power).losClear = s.losClear := by
  rw [State.lightSeen, State.put_losClear, State.putB_losClear]

theorem lightSeen_state (power : Nat) : (s.lightSeen n los power).get (F.LK_STATUS_STATE n) = s.get (F.LK_STATUS_STATE n) := by
  rw [State.lightSeen, get_put_otherReg _ _ _ _ (by simp), get_putB_other _ _ _ _ (by simp) (by simp)]

end

theorem evalLink_out (s : State) (n : Nat) : (s.evalLink n).out = s.out := 
  (congrArg State.out (evalLink_eq_withLinksOf s n)).trans rfl

theorem evalLink_losClear (s : State) (n : Nat) : (s.evalLink n).losClear = s.losClear :=
  (congrArg State.losClear (evalLink_eq_withLinksOf s n)).trans rfl

/-- LOS and the power received stay through the state that the link takes. -/
theorem evalLink_lightSeen {s t : State} {n : Nat} {los : Bool} {power : BitVec 16} (h : t.regs = (s.lightSeen n los power.toNat).regs) :
    (t.evalLink n).on (F.LK_STATUS_LOS n) = los ∧ (t.evalLink n).get (F.LK_TOTAL_RX n) = power.toNat := by
  rw [evalLink_on _ _ (by simp) (by simp) (by simp), evalLink_get _ _ (by simp) (by simp) (by simp), on_congr h, get_congr h]
  exact ⟨lightSeen_los s n los _, lightSeen_rx s n los power⟩

/-! ## Loss of light and APR (R347, R348) -/

/-- The state in which link `n` has lost its light, but for APR. -/
def State.darkened (s : State) (n power : Nat) : State := (s.lightSeen n true power).linkDown n 1

theorem darkened_notUp {s : State} {n : Nat} (h : s.get (F.LK_STATUS_STATE n) ≠ 4) (power : Nat) :
    s.darkened n power = (s.lightSeen n true power).evalLink n :=
  linkDown_notUp (by rwa [lightSeen_state]) 1

theorem loseLight_eq (s : State) (n power : Nat) : s.loseLight n power =
    if s.on (F.LK_CTRL_APR_EN n) = true ∧ s.on (F.LK_INLET_APR (n / 4)) = false then
      ((s.darkened n power).putB (F.LK_INLET_APR (n / 4)) true).raise 0x0606 (payload 16 [(0, 1, n / 4), (1, 1, n)])
    else s.darkened n power := by
  simp only [State.loseLight, State.darkened, State.lightSeen, inletOf, Bool.and_eq_true, Bool.not_eq_true']

section
variable {s : State} {n : Fin 40} (hlive : s.live = true)
include hlive

theorem exec_lossOfLight_lit (h : s.on (F.LK_STATUS_LOS n) = false) (power : BitVec 16) :
    exec (.lossOfLight n power) s = .next (s.loseLight n power.toNat) := by
  rw [exec_lossOfLight, whenLive_true hlive, if_neg (by simp [h])]

theorem exec_lossOfLight_dark (h : s.on (F.LK_STATUS_LOS n) = true) (power : BitVec 16) :
    exec (.lossOfLight n power) s = .next s := by
  rw [exec_lossOfLight, whenLive_true hlive, if_pos h]

end

/-- An inlet's register is none of a link's own. -/
theorem inletReg_ne {i : Nat} (hi : i < 10) (m : Nat) : R.LK_STATUS m ≠ R.LK_INLET i := by
  show 0x1000004 + 0x10000 * m ≠ 0x1008200 + 0x4 * i
  omega

/-! ## Light back (R347, R360) -/

/-- The cycle in which a link with APR enabled had its light back, noted for its inlet. -/
def State.aprNoted (t s : State) (n : Nat) : State :=
  if s.on (F.LK_CTRL_APR_EN n) then { t with losClear := sset 0 t.losClear (n / 4) s.clk.cycle } else t

theorem aprNoted_regs (t s : State) (n : Nat) : (t.aprNoted s n).regs = t.regs := by
  unfold State.aprNoted
  split <;> rfl

theorem aprNoted_losClear (t s : State) (n : Nat) : sget 0 (t.aprNoted s n).losClear (n / 4)
    = if s.on (F.LK_CTRL_APR_EN n) = true then s.clk.cycle else sget 0 t.losClear (n / 4) := by
  unfold State.aprNoted
  split
  · exact sget_sset_same 0 _ _ _
  · rfl

section
variable {s : State} {n : Fin 40} (hlive : s.live = true)
include hlive

theorem exec_losClear_back (hlos : s.on (F.LK_STATUS_LOS n) = true) (hjoined : 24 ≤ n.val ∨ s.joined n = true) (power : BitVec 16) :
    exec (.losClear n power) s = .next (((s.lightSeen n false power.toNat).aprNoted s n).evalLink n) := by
  have hbypass : ¬(n < 24 ∧ s.joined n = false) := by
    rintro ⟨hn, hnot⟩
    have hval : n.val < 24 := hn
    rcases hjoined with h | h
    · omega
    · simp [h] at hnot
  rw [exec_losClear, execLosClear, whenLive_true hlive, if_neg (by simpa [hlos] using hbypass)]
  rfl

theorem exec_losClear_none (h : s.on (F.LK_STATUS_LOS n) = false ∨ (n.val < 24 ∧ s.joined n = false)) (power : BitVec 16) :
    exec (.losClear n power) s = .next s := by
  have hskip : (!s.on (F.LK_STATUS_LOS n) || (decide (n < 24) && !s.joined n)) = true := by
    rcases h with h | ⟨hn, hnot⟩
    · simp [h]
    · have hlt : n < 24 := hn
      simp [hlt, hnot]
  rw [exec_losClear, execLosClear, whenLive_true hlive, if_pos hskip]

end

/-! ## APR_N released (R348) -/

theorem releaseApr_due {s u : State} {i : Nat} (happly : s.on (F.LK_INLET_APR i) = true)
    (hclear : ∀ k < 4, s.on (F.LK_CTRL_APR_EN (4 * i + k)) = true → s.on (F.LK_STATUS_LOS (4 * i + k)) = false)
    (hreach : s.reach (sget 0 s.losClear i + 25000000) = some u) : s.releaseApr i = u.putB (F.LK_INLET_APR i) false := by
  have hnone : ((List.range 4).any fun k => s.on (F.LK_CTRL_APR_EN (4 * i + k)) && s.on (F.LK_STATUS_LOS (4 * i + k))) = false :=
    List.any_eq_false.2 fun k hk => by simpa using hclear k (List.mem_range.1 hk)
  rw [State.releaseApr, if_neg (by simp [happly, hnone]), hreach]

theorem releaseApr_dark {s : State} {i k : Nat} (hk : k < 4) (hen : s.on (F.LK_CTRL_APR_EN (4 * i + k)) = true)
    (hlos : s.on (F.LK_STATUS_LOS (4 * i + k)) = true) : s.releaseApr i = s := by
  have hany : ((List.range 4).any fun k => s.on (F.LK_CTRL_APR_EN (4 * i + k)) && s.on (F.LK_STATUS_LOS (4 * i + k))) = true :=
    List.any_eq_true.2 ⟨k, List.mem_range.2 hk, by rw [hen, hlos]; rfl⟩
  simp [State.releaseApr, hany]

/-! ## The power of an inlet (R344, R348) -/

theorem sInt_toNat (power : BitVec 16) : sInt 16 power.toNat = power.toInt := by
  have hlt := power.isLt
  rw [BitVec.toInt_eq_toNat_cond]
  simp only [sInt, Nat.reducePow, Nat.reduceSub] at hlt ⊢
  split <;> split <;> omega

/-- The power of an inlet as measured, and whether it is LOW. -/
def State.inletSeen (s : State) (i power : Nat) : State :=
  (s.put (F.LK_INLET_POWER i) power).putB (F.LK_INLET_LOW i) (sInt 16 power < 1900)

/-- One link that the inlet feeds shows whether it is LOW. -/
def State.inletShown (i power : Nat) (t : State) (k : Nat) : State := t.putB (F.LK_STATUS_INLET_LOW (4 * i + k)) (sInt 16 power < 1900)

theorem setInlet_eq (s : State) (i power : Nat) :
    s.setInlet i power = (List.range 4).foldl (State.inletShown i power) (s.inletSeen i power) := rfl

/-- The links' INLET_LOW bits are no part of the inlet's register. -/
theorem setInlet_get (s : State) {i : Nat} (hi : i < 10) (power : Nat) {f : Fld} (h : f.reg = R.LK_INLET i) :
    (s.setInlet i power).get f = (s.inletSeen i power).get f := by
  rw [setInlet_eq]
  exact foldl_get_other (fun t k _ => get_putB_otherReg t _ (h ▸ (inletReg_ne hi (4 * i + k)).symm)) _

theorem setInlet_power (s : State) {i : Nat} (hi : i < 10) (power : BitVec 16) :
    (s.setInlet i power.toNat).get (F.LK_INLET_POWER i) = power.toNat := by
  rw [setInlet_get s hi _ rfl, State.inletSeen, get_putB_other _ _ _ _ (by simp) (by simp), get_put_fits _ (by simp) power.isLt]

theorem setInlet_low (s : State) {i : Nat} (hi : i < 10) (power : BitVec 16) :
    (s.setInlet i power.toNat).on (F.LK_INLET_LOW i) = true ↔ power.toInt < 1900 := by
  have hlow : (s.inletSeen i power.toNat).on (F.LK_INLET_LOW i) = decide (sInt 16 power.toNat < 1900) :=
    on_putB_same _ _ _ rfl (by simp)
  rw [State.on, setInlet_get s hi _ rfl, ← State.on, hlow, sInt_toNat, decide_eq_true_iff]

theorem inletShown_eq_withRegsOf (i power : Nat) (t : State) (k : Nat) :
    State.inletShown i power t k = t.withRegsOf (State.inletShown i power t k) := putB_eq_withRegsOf t _ _

theorem setInlet_eq_withRegsOf (s : State) (i power : Nat) : s.setInlet i power = s.withRegsOf (s.setInlet i power) := by
  have hseen : s.inletSeen i power = s.withRegsOf (s.inletSeen i power) :=
    withRegsOf_trans (put_eq_withRegsOf s _ _) (putB_eq_withRegsOf _ _ _)
  rw [setInlet_eq]
  exact List.foldlRecOn (motive := fun t => t = s.withRegsOf t) (List.range 4) (State.inletShown i power) hseen
    fun t ht k _ => withRegsOf_trans ht (inletShown_eq_withRegsOf i power t k)

/-- Settles O44: LOS by whether the link was UP and its APR enabled, light back by its pair, APR_N by the links that its inlet feeds. -/
theorem lightComesAndGoes : Obligations.LightComesAndGoes := by
  unfold Obligations.LightComesAndGoes
  intro s n i power hlive
  refine ⟨fun hlit => ?lost, fun hlit hdown => ⟨fun hoff => ?noApr, fun hon hidle => ?apr⟩, fun hdark => exec_lossOfLight_dark hlive hdark power,
    fun hdark hjoined => ?back, fun h => exec_losClear_none hlive h power, fun u happly hclear hreach => ?released,
    fun k hk hen hlos => ?held, setInlet_power s i.isLt power, setInlet_low s i.isLt power, setInlet_eq_withRegsOf s i _, fun hlow => ?low,
    fun hhigh => ?high⟩
  case lost => rw [exec_lossOfLight_lit hlive hlit, loseLight_eq]; rfl
  case noApr =>
    obtain ⟨hlos, hrx⟩ := evalLink_lightSeen (t := s.lightSeen n true power.toNat) rfl
    rw [exec_lossOfLight_lit hlive hlit, loseLight_eq, if_neg (by simp [hoff]), darkened_notUp hdown]
    exact ⟨_, rfl, hlos, hrx, (evalLink_out _ _).trans (lightSeen_out s n true _)⟩
  case apr =>
    obtain ⟨hlos, -⟩ := evalLink_lightSeen (t := s.lightSeen n true power.toNat) rfl
    rw [exec_lossOfLight_lit hlive hlit, loseLight_eq, if_pos ⟨hon, hidle⟩, darkened_notUp hdown]
    refine ⟨_, rfl, ?_, on_putB_same _ _ _ rfl (by simp)⟩
    rw [on_putB_other _ _ _ _ (by simp) (.inl (inletReg_ne (by omega) n)), hlos]
  case back =>
    obtain ⟨hlos, hrx⟩ := evalLink_lightSeen (aprNoted_regs (s.lightSeen n false power.toNat) s n)
    rw [exec_losClear_back hlive hdark hjoined]
    refine ⟨_, rfl, hlos, hrx, ?_⟩
    rw [evalLink_losClear, aprNoted_losClear, lightSeen_losClear]
  case released => rw [exec_aprRelease, whenLive_true hlive, releaseApr_due happly hclear hreach]
  case held => rw [exec_aprRelease, whenLive_true hlive, releaseApr_dark hk hen hlos]
  case low => rw [exec_inletLow, whenLive_true hlive, if_neg (by rw [sInt_toNat]; omega)]
  case high => rw [exec_inletPowerRestored, whenLive_true hlive, if_neg (by rw [sInt_toNat]; omega)]

end Sys2Proof.Machine
end

section
/-! Wavelengths, rings, the output clamp and lane lock: what a failed wavelength does to its link, where a ring's hop is counted, how a
clamped link is lit again, and what three codewords of a lane decide (R351-R356, R366, R375). -/

namespace Sys2Proof.Machine

theorem exec_laneFail (n : Fin 40) (w : Fin 8) (fault : LaneFault) (s : State) :
    exec (.laneFail n w fault) s = whenLive s fun s => s.laneFail n w fault := rfl

theorem exec_laneSettleExpiry (n : Fin 40) (s : State) :
    exec (.laneSettleExpiry n) s = whenLive s fun s => s.settleLink n := rfl

theorem exec_ringHop (n : Fin 40) (w : Fin 8) (rx : Bool) (found : Option (Fin 4096)) (s : State) :
    exec (.ringHop n w rx found) s = whenLive s fun s => match found with
      | some c => (s.bumpSat (ringHops n w rx)).put (ringCode n w rx) c
      | none => (s.bumpSat (ringHops n w rx)).laneFail n w (.ring rx) := by
  cases found <;> rfl

theorem exec_opticalClampTrip (n : Fin 40) (power : BitVec 16) (s : State) :
    exec (.opticalClampTrip n power) s = whenLive s fun s => s.clampTrip n power.toNat := rfl

theorem exec_clampClr (n : Fin 40) (s : State) :
    exec (.clampClr n) s = whenHost s (R.LK_CTRL n) fun s => s.clearClamp n := rfl

theorem exec_clampRelightStep (n : Fin 40) (s : State) :
    exec (.clampRelightStep n) s = whenLive s fun s => s.relightStep n := rfl

theorem exec_laneLock (n : Fin 40) (w : Fin 8) (levels : Nat) (s : State) :
    exec (.laneLock n w levels) s = execLaneLock n w levels s := rfl

/-- LK_CTRL lies outside the DBG block: in service it takes writes. -/
theorem live_takesLinkCtrl {s : State} (h : s.live = true) (n : Fin 40) : s.takesWrite (R.LK_CTRL n) = true := by
  refine live_takes h _ ?_
  have hn : ¬0x1B00000 ≤ 0x1000000 + 0x10000 * n.val := by omega
  simp [dbgBlock, hn]

/-! ## A wavelength fails (R352, R355, R472) -/

theorem bit_eq_testBit (v i : Nat) : bit v i = v.testBit i := Nat.testBit_eq_decide_div_mod_eq.symm

theorem bit_bits (v lo : Nat) {k i : Nat} (hi : i < k) : bit (bits v lo k) i = bit v (lo + i) := by
  rw [bit_eq_testBit, bits_testBit, decide_eq_true hi, Bool.true_and, bit_eq_testBit]

/-- A wavelength's bit of the dark set, as a field of its own. -/
theorem bit_dark (s : State) (n : Nat) {w : Nat} (hw : w < 8) : bit (s.dark n) w = s.on ⟨R.LK_LANE n, w, 1⟩ := by
  rw [State.dark, State.get, bit_bits _ _ (show w < (F.LK_LANE_DARK n).w from hw), Nat.zero_add]
  rfl

/-- The state with a wavelength in the dark set, the last one added to it. -/
def State.markedDark (s : State) (n w : Nat) : State :=
  (s.putB ⟨R.LK_LANE n, w, 1⟩ true).modLink n fun l => { l with last := w }

/-- The state with that wavelength dark and the 2 ms of settling begun. -/
def State.settling (s : State) (n w : Nat) : State :=
  (s.markedDark n w).modLink n fun l => { l with settleFrom := some s.clk.cycle }

/-- An Ethernet link that loses a wavelength in use goes down and settles. -/
theorem darken_settles {s : State} {n w : Nat} (hpers : s.on (F.LK_CTRL_PERS n) = false) (huse : bit (s.link n).use w = true) :
    s.darken n w = (s.settling n w).linkDown n 2 := by
  simp only [State.darken, huse, hpers, Bool.not_true, Bool.and_false, Bool.false_eq_true, if_false]
  rfl

theorem settling_dark (s : State) (n : Nat) {w : Nat} (hw : w < 8) : bit ((s.settling n w).dark n) w = true := by
  rw [bit_dark _ n hw, State.settling, on_congr (State.modLink_regs _ _ _), State.markedDark, on_congr (State.modLink_regs _ _ _)]
  exact on_putB_same _ _ true rfl (show w + 1 ≤ 32 by omega)

theorem settling_link (s : State) (n w : Nat) : (s.settling n w).link n = { s.link n with last := w, settleFrom := some s.clk.cycle } := by
  rw [State.settling, State.modLink_link_same, State.markedDark, State.modLink_link_same, State.putB, put_link]

theorem settling_eq_withLinksOf (s : State) (n w : Nat) : s.settling n w = s.withLinksOf (s.settling n w) :=
  withLinksOf_trans (withLinksOf_trans (put_eq_withLinksOf s _ _) (modLink_eq_withLinksOf _ n _)) (modLink_eq_withLinksOf _ n _)

section
variable {s : State} {n w : Nat}

theorem laneFail_signal (huse : bit (s.link n).use w = true) (hlit : s.on (F.LK_STATUS_LOS n) = false)
    (hbright : bit (s.dark n) w = false) : s.laneFail n w .signal = s.darken n w := by
  simp [State.laneFail, huse, hlit, hbright]

theorem laneFail_signal_unused (h : bit (s.link n).use w = false) : s.laneFail n w .signal = s := by
  simp [State.laneFail, h]

theorem laneFail_codeword_before (h : (s.link n).been = false) : s.laneFail n w .codeword = s := by
  simp [State.laneFail, h]

theorem laneFail_ring_dark (h : bit (s.dark n) w = true) (rx : Bool) : s.laneFail n w (.ring rx) = s.ringFails n w rx := by
  simp [State.laneFail, h]

theorem laneFail_ring_bright (h : bit (s.dark n) w = false) (rx : Bool) :
    s.laneFail n w (.ring rx) = (s.ringFails n w rx).darken n w := by
  simp [State.laneFail, h]

end

/-! ## The end of the settle (R356) -/

/-- The state with the settling of link `n` over. -/
def State.settled (s : State) (n : Nat) : State := s.modLink n fun l => { l with settleFrom := none }

theorem settled_chooseRate (s : State) (n : Nat) : (s.settled n).chooseRate n = s.chooseRate n := rfl

section
variable {s v : State} {n c0 : Nat} (hfrom : (s.link n).settleFrom = some c0) (hreach : s.reach (c0 + 5000000) = some v)
include hfrom hreach

theorem settleLink_retrains {code mask : Nat} (hrate : v.chooseRate n = some (code, mask)) :
    s.settleLink n = ((v.settled n).laneLost n (s.link n).last code).evalLink n := by
  obtain ⟨reach, heq⟩ : ∃ reach, reach = s.reach := ⟨_, rfl⟩
  rw [← heq] at hreach
  rw [← settled_chooseRate, State.settled] at hrate
  rw [State.settleLink, hfrom, ← heq]
  simp only [hreach, hrate, State.settled]

theorem settleLink_dead (hrate : v.chooseRate n = none) :
    s.settleLink n = ((v.settled n).modLink n fun l => { l with dead := true }).evalLink n := by
  obtain ⟨reach, heq⟩ : ∃ reach, reach = s.reach := ⟨_, rfl⟩
  rw [← heq] at hreach
  rw [← settled_chooseRate, State.settled] at hrate
  rw [State.settleLink, hfrom, ← heq]
  simp only [hreach, hrate, State.settled]

end

/-! ## Ring hops (R351) -/

theorem ringCode_fits (n w : Nat) (rx : Bool) : (ringCode n w rx).lo + (ringCode n w rx).w ≤ 32 ∧ (ringCode n w rx).w = 12 := by
  cases rx <;> simp [ringCode]

theorem ringHops_fits (n w : Nat) (rx : Bool) : (ringHops n w rx).lo + (ringHops n w rx).w ≤ 32 ∧ (ringHops n w rx).w = 4 := by
  cases rx <;> simp [ringHops]

/-- A ring's hops lie above its code. -/
theorem ringHops_beside (n w : Nat) (rx : Bool) : (ringCode n w rx).lo + (ringCode n w rx).w ≤ (ringHops n w rx).lo := by
  cases rx <;> simp [ringCode, ringHops]

/-- The state after a ring's hop to its line at a lower code. -/
def State.hopped (s : State) (n w : Nat) (rx : Bool) (c : Nat) : State :=
  (s.bumpSat (ringHops n w rx)).put (ringCode n w rx) c

theorem hopped_code (s : State) (n w : Nat) (rx : Bool) (c : Fin 4096) : (s.hopped n w rx c).get (ringCode n w rx) = c := by
  obtain ⟨hfits, hw⟩ := ringCode_fits n w rx
  exact get_put_fits _ hfits (by rw [hw]; exact c.isLt)

theorem hopped_hops (s : State) (n w : Nat) (rx : Bool) (c : Nat) :
    (s.hopped n w rx c).get (ringHops n w rx) = min 15 (s.get (ringHops n w rx) + 1) := by
  obtain ⟨hfits, hw⟩ := ringHops_fits n w rx
  have hcount := (get_put_other (s.bumpSat (ringHops n w rx)) _ _ c hfits (.inr (.inr (ringHops_beside n w rx)))).trans
    (get_bumpSat_same s _ 1 hfits)
  rw [hw] at hcount
  exact hcount

/-! ## The output clamp (R353, R354) -/

/-- The state with link `n` clamped, and no relighting under way. -/
def State.clamped (s : State) (n : Nat) : State :=
  (s.putB (F.LK_STATUS_CLAMPED n) true).modLink n fun l => { l with relight := none }

theorem clamped_on (s : State) (n : Nat) : (s.clamped n).on (F.LK_STATUS_CLAMPED n) = true :=
  (on_congr (State.modLink_regs _ n _) _).trans (on_putB_same s _ true rfl (by simp))

theorem clampTrip_dark {s : State} {n : Nat} (h : s.restState n = 5) (power : Nat) : s.clampTrip n power = s := if_pos h

theorem clampTrip_transmits {s : State} {n : Nat} (h : s.restState n ≠ 5) (power : Nat) : s.clampTrip n power
    = ((((s.clamped n).raise 0x0605 (payload 16 [(0, 1, n), (4, 4, uInt 32 (sInt 16 power))])).trip 0 n 0).linkDown n 2) := by
  unfold State.clampTrip State.clamped
  rw [if_neg h]

/-- The state with the clamp of link `n` cleared and its first feed ring lit (log 19). -/
def State.unclamped (s : State) (n : Nat) : State :=
  (s.putB (F.LK_STATUS_CLAMPED n) false).modLink n fun l => { l with relight := some (1, s.clk.cycle) }

theorem clearClamp_clamped {s : State} {n : Nat} (h : s.on (F.LK_STATUS_CLAMPED n) = true) : s.clearClamp n = s.unclamped n := if_pos h

theorem clearClamp_not {s : State} {n : Nat} (h : s.on (F.LK_STATUS_CLAMPED n) = false) : s.clearClamp n = s := if_neg (by simp [h])

theorem unclamped_off (s : State) (n : Nat) : (s.unclamped n).on (F.LK_STATUS_CLAMPED n) = false :=
  (on_congr (State.modLink_regs _ n _) _).trans (on_putB_same s _ false rfl (by simp))

theorem unclamped_relight (s : State) (n : Nat) : ((s.unclamped n).link n).relight = some (1, s.clk.cycle) :=
  congrArg Link.relight (State.modLink_link_same _ n _)

theorem unclamped_eq_withLinksOf (s : State) (n : Nat) : s.unclamped n = s.withLinksOf (s.unclamped n) :=
  withLinksOf_trans (put_eq_withLinksOf s _ _) (modLink_eq_withLinksOf _ n _)

/-- The state with the feed ring after number `k` of link `n` lit. -/
def State.relit (s : State) (n k : Nat) : State :=
  s.modLink n fun l => { l with relight := if k < 7 then some (k + 1, s.clk.cycle) else none }

theorem relightStep_due {s v : State} {n k c0 : Nat} (hlight : (s.link n).relight = some (k, c0))
    (hreach : s.reach (c0 + 2500000) = some v) : s.relightStep n = (v.relit n k).evalLink n := by
  obtain ⟨reach, heq⟩ : ∃ reach, reach = s.reach := ⟨_, rfl⟩
  rw [← heq] at hreach
  rw [State.relightStep, hlight, ← heq]
  simp only [hreach, State.relit]

theorem relit_relight (s : State) (n k : Nat) :
    ((s.relit n k).link n).relight = if k < 7 then some (k + 1, s.clk.cycle) else none :=
  congrArg Link.relight (State.modLink_link_same s n _)

/-! ## Lane lock (R366, R375) -/

/-- The data of the last three codewords of a lane that can be decoded. -/
def State.lockData (s : State) (n w levels : Nat) : List Nat :=
  ((wordsIn (s.on (F.LK_CTRL_PRECODE n)) 3 (sget {} (s.link n).lanesIn w).level levels).1.map laneDecode).filterMap fun d => d.map (·.1)

/-- The link with lane `w` locked, its receiver as given. -/
def Link.lockedLane (l : Link) (w : Nat) (x : LaneIn) : Link :=
  { l with locked := l.locked ||| 2 ^ w, lanesIn := sset {} l.lanesIn w x }

theorem countWords_eq_withRegsOf (s : State) (n : Nat) (fec : List Bool) : s.countWords n fec = s.withRegsOf (s.countWords n fec) :=
  withRegsOf_trans (put_eq_withRegsOf s _ _) (put_eq_withRegsOf _ _ _)

theorem countWords_link (s : State) (n : Nat) (fec : List Bool) (m : Nat) : (s.countWords n fec).link m = s.link m := by
  rw [State.countWords, State.bump, State.bump, put_link, put_link]

section
variable {s : State} {n w : Nat} (hpers : s.on (F.LK_CTRL_PERS n) = true)
  (hstate : s.get (F.LK_STATUS_STATE n) = 1 ∨ s.get (F.LK_STATUS_STATE n) = 2) (huse : bit (s.link n).use w = true)
  (htrain : s.trainable n = true)
include hpers hstate huse htrain

/-- The codewords of a training lane are counted; three that agree lock it, and the last lane to lock takes its link on. -/
theorem laneLock_eq (levels : Nat) : ∃ (fec : List Bool) (x : LaneIn), let l := (s.link n).lockedLane w x
    s.laneLock n w levels =
      if (s.lockData n w levels).length != 3 || !headersAgree w ((s.link n).use != 255) (s.lockData n w levels) then s.countWords n fec
      else if l.locked != l.use then (s.countWords n fec).modLink n fun _ => l
      else ((s.countWords n fec).modLink n fun _ => l).put (F.LK_STATUS_STATE n) (if l.deskewed s.clk.cycle then 3 else 2) := by
  have hguard : (!s.on (F.LK_CTRL_PERS n) || !(s.get (F.LK_STATUS_STATE n) = 1 || s.get (F.LK_STATUS_STATE n) = 2)
      || !bit (s.link n).use w || !s.trainable n) = false := by
    rcases hstate with hstate | hstate <;> simp [hpers, hstate, huse, htrain]
  obtain ⟨words, hwords⟩ : ∃ words, words = wordsIn := ⟨_, rfl⟩
  rw [State.laneLock, State.lockData, ← hwords, hguard]
  generalize words _ _ _ _ = ws
  obtain ⟨ws, last⟩ := ws
  exact ⟨_, _, rfl⟩

/-- Codewords that do not agree are counted, no more. -/
theorem laneLock_inconsistent {levels : Nat}
    (h : (s.lockData n w levels).length ≠ 3 ∨ headersAgree w ((s.link n).use != 255) (s.lockData n w levels) = false) :
    s.laneLock n w levels = s.withRegsOf (s.laneLock n w levels) := by
  obtain ⟨fec, x, heq⟩ := laneLock_eq hpers hstate huse htrain levels
  rw [heq, if_pos (by simpa using h)]
  exact countWords_eq_withRegsOf s n fec

/-- Three codewords that agree lock their lane; with the last lane the link is deskewing, or in INIT. -/
theorem laneLock_consistent {levels : Nat} (hlen : (s.lockData n w levels).length = 3)
    (hagree : headersAgree w ((s.link n).use != 255) (s.lockData n w levels) = true) : let t := s.laneLock n w levels
    (t.link n).locked = (s.link n).locked ||| 2 ^ w
      ∧ ((t.link n).locked = (s.link n).use →
          t.get (F.LK_STATUS_STATE n) = if (t.link n).deskewed s.clk.cycle = true then 3 else 2) := by
  obtain ⟨fec, x, heq⟩ := laneLock_eq hpers hstate huse htrain levels
  dsimp only
  rw [heq, if_neg (by simp [hlen, hagree])]
  split
  next hmore =>
    rw [State.modLink_link_same]
    exact ⟨rfl, fun hall => absurd hall (by simpa [Link.lockedLane] using hmore)⟩
  next =>
    rw [put_link, State.modLink_link_same]
    exact ⟨rfl, fun _ => get_put_fits _ (by simp) (by split <;> simp)⟩

end

/-- Settles O45: a failed wavelength or ring, a clamp and the codewords of a lane each give the state their lemma names; a settled link is
the link as it was with its settling over, and a relit one with its next feed ring lit. -/
theorem lanesFailAndLock : Obligations.LanesFailAndLock := by
  unfold Obligations.LanesFailAndLock
  refine ⟨fun s n w hlive => ?lanes, fun s n power w hlive => ?clamp⟩
  case lanes =>
    have hfail (fault : LaneFault) : exec (.laneFail n w fault) s = .next (s.laneFail n w fault) := by
      rw [exec_laneFail, whenLive_true hlive]
    have hhop (rx : Bool) (found : Option (Fin 4096)) := exec_ringHop n w rx found s
    simp only [whenLive_true hlive] at hhop
    simp only [hfail, hhop, exec_laneSettleExpiry, whenLive_true hlive]
    refine ⟨fun _ => trivial, fun hpers huse hlit hbright => ?signal, fun h => by rw [laneFail_signal_unused h],
      fun h => by rw [laneFail_codeword_before h], fun rx h => by rw [laneFail_ring_dark h], fun rx h => by rw [laneFail_ring_bright h],
      fun c0 v code mask hfrom hreach hrate => ?retrains, fun c0 v hfrom hreach hrate => ?dead, fun rx c => ?hops, fun _ => trivial⟩
    case signal =>
      rw [laneFail_signal huse hlit hbright, darken_settles hpers huse]
      refine ⟨_, rfl, settling_dark s n w.isLt, ?_, ?_, settling_eq_withLinksOf s n w⟩ <;> rw [settling_link]
    case retrains =>
      rw [settleLink_retrains hfrom hreach hrate]
      exact ⟨_, rfl, congrArg Link.settleFrom (State.modLink_link_same v n _), rfl⟩
    case dead =>
      rw [settleLink_dead hfrom hreach hrate]
      refine ⟨_, rfl, ?_, congrArg Link.dead (State.modLink_link_same _ n _), rfl⟩
      rw [State.modLink_link_same]
      exact congrArg Link.settleFrom (State.modLink_link_same v n _)
    case hops => exact ⟨_, rfl, hopped_code s n w rx c, hopped_hops s n w rx c, rfl⟩
  case clamp =>
    refine ⟨fun hon => ⟨_, clamped_on s n, ?trips⟩, fun hoff => ?untouched, fun hp hclamped => ?cleared, fun hp hnot => ?notClamped,
      fun k c0 v hlight hreach => ?relights, fun levels => ?locks, fun levels hpers hstate huse htrain =>
        ⟨fun hlen hagree => laneLock_consistent hpers hstate huse htrain hlen hagree,
          fun h => laneLock_inconsistent hpers hstate huse htrain h⟩⟩
    case trips => rw [exec_opticalClampTrip, whenLive_true hlive, clampTrip_transmits hon]
    case untouched => rw [exec_opticalClampTrip, whenLive_true hlive, clampTrip_dark hoff]
    case cleared =>
      rw [exec_clampClr, whenHost_true (live_takesLinkCtrl hlive n) hp, clearClamp_clamped hclamped]
      exact ⟨_, rfl, unclamped_off s n, unclamped_relight s n, unclamped_eq_withLinksOf s n⟩
    case notClamped => rw [exec_clampClr, whenHost_true (live_takesLinkCtrl hlive n) hp, clearClamp_not hnot]
    case relights =>
      rw [exec_clampRelightStep, whenLive_true hlive, relightStep_due hlight hreach]
      exact ⟨_, rfl, rfl, relit_relight v n k⟩
    case locks =>
      rw [exec_laneLock, execLaneLock, whenLive_true hlive]
      simp only [Bool.and_eq_true, decide_eq_true_eq, bne_iff_ne]

end Sys2Proof.Machine
end

section
/-! In-line pairs: what ENGAGE asks, how a pair leaves for bypass, where the end of a move brings it, and what a timer of it does (R361,
R362, R364, R471). -/

namespace Sys2Proof.Machine

theorem exec_engage (p : Fin 12) (s : State) : exec (.engage p) s = whenHost s (R.LK_PAIR_CTRL p) fun s => s.engage p := rfl

theorem exec_release (p : Fin 12) (s : State) : exec (.release p) s = whenHost s (R.LK_PAIR_CTRL p) fun s => s.releasePair p := rfl

theorem exec_pairTrainingTimeout (p : Fin 12) (s : State) :
    exec (.pairTrainingTimeout p) s = whenLive s fun s => s.trainTimeout p := rfl

theorem exec_autoRevert (p : Fin 12) (s : State) : exec (.autoRevert p) s = whenLive s fun s => s.autoRevert p := rfl

theorem exec_bypassMoveDone (p : Fin 12) (s : State) :
    exec (.bypassMoveDone p) s = .next (if s.frozen || s.phase == .reset then s else s.moveDone p) := rfl

theorem exec_bypassSenseTimeout (p : Fin 12) (s : State) :
    exec (.bypassSenseTimeout p) s = .next (if s.frozen || s.phase == .reset then s else s.senseTimeout p) := rfl

/-- The switches move on in every phase but internal reset. -/
theorem switches_move {s : State} (hfrozen : s.frozen = false) (hphase : s.phase ≠ .reset) (p : Fin 12) :
    exec (.bypassMoveDone p) s = .next (s.moveDone p) ∧ exec (.bypassSenseTimeout p) s = .next (s.senseTimeout p) := by
  have hruns : ¬(s.frozen || s.phase == .reset) = true := by simp [hfrozen, hphase]
  exact ⟨by rw [exec_bypassMoveDone, if_neg hruns], by rw [exec_bypassSenseTimeout, if_neg hruns]⟩

theorem switches_move_live {s : State} (h : s.live = true) (p : Fin 12) :
    exec (.bypassMoveDone p) s = .next (s.moveDone p) ∧ exec (.bypassSenseTimeout p) s = .next (s.senseTimeout p) := by
  obtain ⟨hready, hfrozen⟩ := live_iff.1 h
  exact switches_move hfrozen (by simp [hready]) p

/-! ## The start of a move (R361, R471) -/

/-- A pair fit for it moves to in-line or to direct attachment. -/
theorem engageTarget_some {s : State} {p st : Nat} (h : s.engageTarget p = some st) : st = 1 ∨ st = 6 := by
  unfold State.engageTarget at h
  dsimp only at h
  split at h
  next => cases h
  next =>
    split at h
    next =>
      split at h
      · exact .inl (Option.some.inj h).symm
      · cases h
    next =>
      split at h
      · cases h
      · exact .inr (Option.some.inj h).symm

/-- The state with the switches of a pair on their way, in a state of the pair. -/
def State.switching (s : State) (p st : Nat) : State :=
  (s.put (F.LK_PAIR_STATUS_STATE p) st).modPair p fun x => { x with moveFrom := s.clk.cycle, repeated := false, reverse := none }

section
variable {s : State} {p : Nat}

theorem engage_fit {st : Nat} (h : s.engageTarget p = some st) : s.engage p = s.switching p st := by
  rw [State.engage, h]
  rfl

theorem engage_unfit (h : s.engageTarget p = none) : s.engage p = s.putB (F.LK_PAIR_STATUS_REFUSED p) true := by
  rw [State.engage, h]

theorem switching_state {st : Nat} (h : st < 8) : (s.switching p st).get (F.LK_PAIR_STATUS_STATE p) = st :=
  (get_congr (State.modPair_regs _ p _) _).trans (get_put_fits s (by simp) h)

theorem switching_moveFrom (st : Nat) : ((s.switching p st).pair p).moveFrom = s.clk.cycle :=
  congrArg Pair.moveFrom (State.modPair_pair_same _ p _)

end

/-! ## Leaving for bypass (R361, R471) -/

section
variable {s : State} {p : Nat}

theorem settleGoing_none {n : Nat} (h : (s.link n).going = none) : s.settleGoing n = s := by
  rw [State.settleGoing, h]

theorem settlePair_none (ha : (s.link (2 * p)).going = none) (hb : (s.link (2 * p + 1)).going = none) : s.settlePair p = s := by
  rw [State.settlePair, settleGoing_none ha, settleGoing_none hb]

/-- The state of a pair that turns back once its switches are in place. -/
def State.turnsBack (s : State) (p cause reason : Nat) : State :=
  s.modPair p fun x => { x with reverse := some (x.reverse.getD (cause, reason)) }

theorem turnsBack_reverse (h : (s.pair p).reverse = none) (cause reason : Nat) :
    ((s.turnsBack p cause reason).pair p).reverse = some (cause, reason) := by
  rw [State.turnsBack, State.modPair_pair_same, h]
  rfl

theorem turnsBack_settled (ha : (s.link (2 * p)).going = none) (hb : (s.link (2 * p + 1)).going = none) (cause reason : Nat) :
    (s.turnsBack p cause reason).settlePair p = s.turnsBack p cause reason :=
  settlePair_none ha hb

theorem leavePair_moving (h : s.get (F.LK_PAIR_STATUS_STATE p) = 1 ∨ s.get (F.LK_PAIR_STATUS_STATE p) = 6) (cause reason : Nat) :
    s.leavePair p cause reason = s.turnsBack p cause reason :=
  if_pos (by simpa using h)

theorem leavePair_inline
    (h : s.get (F.LK_PAIR_STATUS_STATE p) = 2 ∨ s.get (F.LK_PAIR_STATUS_STATE p) = 3 ∨ s.get (F.LK_PAIR_STATUS_STATE p) = 5)
    (cause reason : Nat) : s.leavePair p cause reason = s.toBypass p cause reason := by
  rcases h with h | h | h <;> simp [State.leavePair, h]

theorem leavePair_bypassed (h : s.get (F.LK_PAIR_STATUS_STATE p) = 0 ∨ s.get (F.LK_PAIR_STATUS_STATE p) = 4) (cause reason : Nat) :
    s.leavePair p cause reason = s := by
  rcases h with h | h <;> simp [State.leavePair, h]

end

/-! ## The end of a move (R361, R471) -/

/-- The state with the pair's SENSE as given. -/
def State.sensed (s : State) (p : Nat) (inline : Bool) : State := s.putB (F.LK_PAIR_STATUS_SENSE p) inline

/-- The state with SENSE as given and the pair in a state. -/
def State.arrived (s : State) (p : Nat) (inline : Bool) (st : Nat) : State := (s.sensed p inline).put (F.LK_PAIR_STATUS_STATE p) st

/-- The state with the pair in-line and its training begun. -/
def State.pairTrains (s : State) (p : Nat) : State :=
  (s.arrived p true 2).modPair p fun x => { x with trainFrom := s.clk.cycle }

theorem arrived_state (s : State) (p : Nat) (inline : Bool) {st : Nat} (h : st < 8) :
    (s.arrived p inline st).get (F.LK_PAIR_STATUS_STATE p) = st :=
  get_put_fits _ (by simp) h

theorem arrived_sense (s : State) (p : Nat) (inline : Bool) (st : Nat) :
    (s.arrived p inline st).on (F.LK_PAIR_STATUS_SENSE p) = inline := by
  rw [State.arrived, on_put_other _ _ _ _ (by simp) (.inr (.inr (by simp)))]
  exact on_putB_same s _ inline rfl (by simp)

theorem pairTrains_state (s : State) (p : Nat) : (s.pairTrains p).get (F.LK_PAIR_STATUS_STATE p) = 2 :=
  (get_congr (State.modPair_regs _ p _) _).trans (arrived_state s p true (by simp))

theorem pairTrains_sense (s : State) (p : Nat) : (s.pairTrains p).on (F.LK_PAIR_STATUS_SENSE p) = true :=
  (on_congr (State.modPair_regs _ p _) _).trans (arrived_sense s p true 2)

theorem pairTrains_from (s : State) (p : Nat) : ((s.pairTrains p).pair p).trainFrom = s.clk.cycle :=
  congrArg Pair.trainFrom (State.modPair_pair_same _ p _)

theorem arrived_eq_withRegsOf (s : State) (p : Nat) (inline : Bool) (st : Nat) :
    s.arrived p inline st = s.withRegsOf (s.arrived p inline st) :=
  withRegsOf_trans (putB_eq_withRegsOf s _ _) (put_eq_withRegsOf _ _ _)

theorem pairTrains_frame (s : State) (p : Nat) :
    s.pairTrains p = { s with regs := (s.pairTrains p).regs, pairs := (s.pairTrains p).pairs } := by
  rw [State.pairTrains, arrived_eq_withRegsOf]
  rfl

section
variable {s : State} {p : Nat}

theorem moveDone_turnsBack {cause reason : Nat}
    (hst : s.get (F.LK_PAIR_STATUS_STATE p) = 1 ∨ s.get (F.LK_PAIR_STATUS_STATE p) = 6) (hback : (s.pair p).reverse = some (cause, reason)) :
    s.moveDone p = ((s.sensed p true).toBypass p cause reason).settlePair p := by
  rcases hst with hst | hst <;> simp [State.moveDone, hst, hback, State.sensed]

theorem moveDone_inline (hst : s.get (F.LK_PAIR_STATUS_STATE p) = 1) (hback : (s.pair p).reverse = none) :
    s.moveDone p = ((s.pairTrains p).evalLink (2 * p)).evalLink (2 * p + 1) := by
  simp [State.moveDone, hst, hback, State.pairTrains, State.arrived, State.sensed]

theorem moveDone_direct (hst : s.get (F.LK_PAIR_STATUS_STATE p) = 6) (hback : (s.pair p).reverse = none) :
    s.moveDone p = (((s.arrived p true 5).bypassChange p 2 0).evalLink (2 * p)).evalLink (2 * p + 1) := by
  simp [State.moveDone, hst, hback, State.arrived, State.sensed]

theorem moveDone_bypass (hst : s.get (F.LK_PAIR_STATUS_STATE p) = 4) :
    s.moveDone p = ((s.settlePair p).arrived p false 0).bypassChange p 0 (s.get (F.LK_PAIR_STATUS_CAUSE p)) :=
  if_pos hst

end

/-! ## The timers of a pair (R362, R364) -/

section
variable {s u : State} {p : Nat}

theorem trainTimeout_due (hst : s.get (F.LK_PAIR_STATUS_STATE p) = 2)
    (hreach : s.reach ((s.pair p).trainFrom + 2500000 * s.get (F.LK_PAIR_CTRL_TIMEOUT p)) = some u) :
    s.trainTimeout p = (u.leavePair p 0 1).settlePair p := by
  obtain ⟨reach, heq⟩ : ∃ reach, reach = s.reach := ⟨_, rfl⟩
  rw [← heq] at hreach
  rw [State.trainTimeout, hst, ← heq, if_neg (by simp), hreach]

/-- The links of a pair that are down, where one of them is. -/
theorem pairDown_one {a b : Nat} (hab : (a = 2 * p ∧ b = a + 1) ∨ (b = 2 * p ∧ a = b + 1)) (ha : s.linkUp a = false)
    (hb : s.linkUp b = true) : ([2 * p, 2 * p + 1].filter fun n => !s.linkUp n) = [a] := by
  rcases hab with ⟨rfl, rfl⟩ | ⟨rfl, rfl⟩ <;> simp [ha, hb]

theorem autoRevert_due {a b : Nat} (hst : s.get (F.LK_PAIR_STATUS_STATE p) = 3) (hon : s.on (F.LK_PAIR_CTRL_AUTO_REVERT p) = true)
    (hab : (a = 2 * p ∧ b = a + 1) ∨ (b = 2 * p ∧ a = b + 1)) (ha : s.linkUp a = false) (hb : s.linkUp b = true)
    (hreach : s.reach ((s.link a).downAt + 2500000) = some u) : s.autoRevert p = (u.leavePair p 0 1).settlePair p := by
  obtain ⟨reach, heq⟩ : ∃ reach, reach = s.reach := ⟨_, rfl⟩
  rw [← heq] at hreach
  rw [State.autoRevert, ← heq, pairDown_one hab ha hb, hst, hon]
  simp only [List.map_cons, List.map_nil, List.foldl_nil, hreach]
  rfl

/-- The state with the pulse of a pair's switches driven a second time. -/
def State.pulsedAgain (s : State) (p : Nat) : State :=
  s.modPair p fun x => { x with moveFrom := s.clk.cycle, repeated := true }

/-- The state with a pair stuck and valve 1 tripped. -/
def State.pairStuck (s : State) (p detail : Nat) : State := (s.putB (F.LK_PAIR_STATUS_STUCK p) true).trip 1 (2 * p) detail

variable (hfree : s.on (F.LK_PAIR_STATUS_STUCK p) = false) (hdue : (s.pair p).moveFrom + 500000 ≤ s.clk.cycle)
include hfree hdue

theorem senseTimeout_first
    (hst : s.get (F.LK_PAIR_STATUS_STATE p) = 1 ∨ s.get (F.LK_PAIR_STATUS_STATE p) = 4 ∨ s.get (F.LK_PAIR_STATUS_STATE p) = 6)
    (hfirst : (s.pair p).repeated = false) : s.senseTimeout p = s.pulsedAgain p := by
  have hmoving : (!(s.get (F.LK_PAIR_STATUS_STATE p) = 1 || s.get (F.LK_PAIR_STATUS_STATE p) = 4
      || s.get (F.LK_PAIR_STATUS_STATE p) = 6)) = false := by
    rcases hst with hst | hst | hst <;> simp [hst]
  rw [State.senseTimeout, hmoving, hfree, reach_now s _ hdue, hfirst]
  rfl

theorem senseTimeout_again (hst : s.get (F.LK_PAIR_STATUS_STATE p) = 4) (hagain : (s.pair p).repeated = true) :
    s.senseTimeout p = match ((s.pairStuck p 0).pair p).reverse with
      | none => s.pairStuck p 0
      | some (cause, reason) => (s.pairStuck p 0).toBypass p cause reason := by
  rw [State.senseTimeout, hst, hfree, reach_now s _ hdue, hagain]
  change (match ((s.pairStuck p 0).pair p).reverse with
    | some (cause, reason) => (s.pairStuck p 0).toBypass p cause reason
    | none => s.pairStuck p 0) = _
  cases ((s.pairStuck p 0).pair p).reverse <;> rfl

end

/-- Settles O46: ENGAGE, RELEASE, the end of a move and the timers of a pair each give the state their lemma names. -/
theorem pairsMove : Obligations.PairsMove := by
  unfold Obligations.PairsMove
  refine ⟨fun s p hfrozen hphase => switches_move hfrozen hphase p, fun s p hlive => ?_⟩
  obtain ⟨hdone, hsense⟩ := switches_move_live hlive p
  simp only [hdone, hsense, exec_pairTrainingTimeout, exec_autoRevert, whenLive_true hlive]
  refine ⟨fun htakes hp => ?host, fun cause reason hst hback => by rw [moveDone_turnsBack hst hback]; rfl,
    fun hst hback => ?inline, fun hst hback => ?direct, fun hst => ?bypass, fun u hst hreach => by rw [trainTimeout_due hst hreach],
    fun hst => leavePair_inline (.inl hst) 0 1, fun a b u hst hon hab ha hb hreach => by rw [autoRevert_due hst hon hab ha hb hreach],
    fun hst => leavePair_inline (.inr (.inl hst)) 0 1, fun hst hfree hdue hfirst => ?first, fun hst hfree hdue hagain => ?again⟩
  case host =>
    simp only [exec_engage, exec_release, whenHost_true htakes hp, State.releasePair]
    refine ⟨fun st hfit => ⟨engageTarget_some hfit, ?engaged⟩, fun hunfit => by rw [engage_unfit hunfit],
      fun hst ha hb hback => ?turns, fun hst => by rw [leavePair_moving hst]; rfl, fun hst => by rw [leavePair_inline hst],
      fun hst => by rw [leavePair_bypassed hst]⟩
    case engaged =>
      have hfits : st < 8 := by have := engageTarget_some hfit; omega
      rw [engage_fit hfit]
      exact ⟨_, rfl, switching_state hfits, switching_moveFrom st, rfl⟩
    case turns =>
      rw [leavePair_moving (.inl hst), turnsBack_settled ha hb]
      exact ⟨_, rfl, turnsBack_reverse hback 0 3, rfl⟩
  case inline =>
    rw [moveDone_inline hst hback]
    exact ⟨_, rfl, pairTrains_state s p, pairTrains_sense s p, pairTrains_from s p, pairTrains_frame s p⟩
  case direct =>
    rw [moveDone_direct hst hback]
    exact ⟨_, rfl, arrived_state s p true (by simp), arrived_sense s p true 5⟩
  case bypass =>
    rw [moveDone_bypass hst]
    exact ⟨_, rfl, arrived_state _ p false (by simp), arrived_sense _ p false 0⟩
  case first =>
    rw [senseTimeout_first hfree hdue hst hfirst]
    refine ⟨_, rfl, ?_, ?_, rfl⟩ <;> rw [State.pulsedAgain, State.modPair_pair_same]
  case again =>
    rw [senseTimeout_again hfree hdue hst hagain]
    rfl

end Sys2Proof.Machine
end

section
/-! The Luapo fabric: what a flit does that arrives, what goes out and what it leaves as it is, messages, replays and delays (R365-R371,
R375, R376). -/

namespace Sys2Proof.Machine

theorem exec_flitReceive_flit (n : Fin 40) (f : List Byte) (s : State) :
    exec (.flitReceive n (.flit f)) s = whenLive s fun s => s.rxFlit n f := rfl

theorem exec_flitReceive_words (n : Fin 40) (levels : List Nat) (s : State) :
    exec (.flitReceive n (.words levels)) s = whenLive s fun s => s.rxWords n levels := rfl

theorem exec_nak (n : Fin 40) (f : List Byte) (s : State) :
    exec (.nak n f) s = whenLive s fun s => if flitIs 2 f then s.rxFlit n f else s := rfl

theorem exec_strokeMarkerReceive (n : Fin 40) (f : List Byte) (s : State) :
    exec (.strokeMarkerReceive n f) s = whenLive s fun s => if flitIs 3 f then s.rxFlit n f else s := rfl

theorem exec_init (n : Fin 40) (f : List Byte) (s : State) :
    exec (.init n f) s = whenLive s fun s => if flitIs 4 f then s.rxFlit n f else s := rfl

theorem exec_delayResp (n : Fin 40) (f : List Byte) (s : State) :
    exec (.delayResp n f) s = whenLive s fun s => if flitIs 6 f then s.rxFlit n f else s := rfl

theorem exec_messageWrite (n : Fin 40) (s : State) : exec (.messageWrite n) s = whenLive s fun s => s.messageWrite n := rfl

theorem exec_replayTimeout (n : Fin 40) (s : State) : exec (.replayTimeout n) s = whenLive s fun s => s.replayTimeout n := rfl

theorem exec_delayReq (n : Fin 40) (s : State) : exec (.delayReq n) s = whenLive s fun s => s.delayReq n := rfl

/-! ## The Luapo side of a link -/

@[simp] theorem modLua_lua_same (s : State) (n : Nat) (f : Luapo → Luapo) : (s.modLua n f).lua n = f (s.lua n) := by
  simp [State.lua, State.modLua, smod]

theorem put_lua (s : State) (f : Fld) (v n : Nat) : (s.put f v).lua n = s.lua n := rfl

theorem linkUp_iff {s : State} {n : Nat} : s.linkUp n = true ↔ s.get (F.LK_STATUS_STATE n) = 4 := by
  simp [State.linkUp]

theorem bytesNat_lt (bs : List Byte) : bytesNat bs < 256 ^ bs.length := by
  induction bs with
  | nil => exact Nat.one_pos
  | cons b bs ih =>
    have hb := b.isLt
    rw [List.length_cons, Nat.pow_succ, bytesNat]
    omega

theorem fieldAt_lt (bs : List Byte) (o n : Nat) : fieldAt bs o n < 256 ^ n :=
  Nat.lt_of_lt_of_le (bytesNat_lt _) (Nat.pow_le_pow_right (by simp) (List.length_take_le n _))

theorem uInt_lt (w : Nat) (i : Int) : uInt w i < 2 ^ w := by
  have hpos : (0 : Int) < ((2 ^ w : Nat) : Int) := by exact_mod_cast Nat.two_pow_pos w
  exact (Int.toNat_lt (Int.emod_nonneg i (Int.ne_of_gt hpos))).2 (Int.emod_lt_of_pos i hpos)

/-- A map built key by key answers each of its keys with its value. -/
theorem sget_foldl_sset (g : Nat → Nat) {ks : List Nat} {v : Nat} (hv : v ∈ ks) (m : SMap Nat) :
    sget 0 (ks.foldl (fun m k => sset 0 m k (g k)) m) v = g v := by
  have hmem (ks : List Nat) (m : SMap Nat) :
      sget 0 (ks.foldl (fun m k => sset 0 m k (g k)) m) v = if v ∈ ks then g v else sget 0 m v := by
    induction ks generalizing m with
    | nil => simp
    | cons k ks ih =>
      rw [List.foldl_cons, ih, sget_sset]
      by_cases hk : v = k <;> simp [hk]
  rw [hmem, if_pos hv]

/-! ## What goes out (R365, R371)

A flit that goes out moves the lane coder and the CRVC of its header on; the registers and the replay buffer stay. -/

/-- Registers, replay buffer and the time of its last ACK are as they were. -/
structure State.Sends (n : Nat) (s t : State) : Prop where
  regs : t.regs = s.regs
  replay : (t.lua n).replay = (s.lua n).replay
  ackAt : (t.lua n).ackAt = (s.lua n).ackAt

namespace State.Sends

variable {n : Nat} {s t u : State}

theorem refl (s : State) : Sends n s s := ⟨rfl, rfl, rfl⟩

theorem trans (hst : Sends n s t) (htu : Sends n t u) : Sends n s u :=
  ⟨htu.regs.trans hst.regs, htu.replay.trans hst.replay, htu.ackAt.trans hst.ackAt⟩

theorem emit (s : State) (o : Out) : Sends n s (s.emit o) := ⟨rfl, rfl, rfl⟩

theorem free (s : State) : Sends n s s.free.2 := ⟨rfl, rfl, rfl⟩

theorem modLink (s : State) (m : Nat) (f : Link → Link) : Sends n s (s.modLink m f) := ⟨rfl, rfl, rfl⟩

theorem foldl {α : Type} {g : State → α → State} (h : ∀ t a, Sends n t (g t a)) (l : List α) (s : State) : Sends n s (l.foldl g s) :=
  List.foldlRecOn l g (refl s) fun t ht a _ => ht.trans (h t a)

theorem countsCrvc (s : State) : Sends n s (s.modLua n fun l => { l with crvc := (l.crvc + 1) % 4 }) :=
  ⟨rfl, by rw [modLua_lua_same], by rw [modLua_lua_same]⟩

theorem codeFlit (s : State) (bs : List Byte) : Sends n s (s.codeFlit n bs) := by
  unfold State.codeFlit
  generalize Coder.push _ _ _ = pushed
  obtain ⟨out, coder⟩ := pushed
  exact ((modLink s n _).trans (countsCrvc _)).trans (foldl (fun t x => emit t _) out _)

theorem sendIdle (s : State) (k : Nat) : Sends n s (s.sendIdle n k) := by
  induction k generalizing s with
  | zero => exact refl s
  | succ k ih => exact (codeFlit s _).trans (ih _)

theorem startCoder (s : State) : Sends n s (s.startCoder n) := by
  unfold State.startCoder
  dsimp only
  split
  · exact refl s
  · exact (free s).trans (modLink _ n _)

theorem catchUp (s : State) : Sends n s (s.catchUp n) := by
  unfold State.catchUp
  dsimp only
  split
  · exact sendIdle s _
  · exact (((sendIdle s _).trans (free _)).trans (modLink _ n _)).trans (sendIdle _ _)

theorem sendFlit (s : State) (type vc seq poison : Nat) (first last : Bool) (body : List Byte) :
    Sends n s (s.sendFlit n type vc seq poison first last body) :=
  (((startCoder s).trans (catchUp _)).trans (codeFlit _ _)).trans (emit _ _)

theorem sendData (s : State) (e : Nat × Flit) : Sends n s (s.sendData n e) := sendFlit s _ _ _ _ _ _ _

end State.Sends

/-- A control flit goes out last. -/
theorem sendControl_out (s : State) (n type : Nat) (body : List Byte) :
    ∃ flit before, (s.sendControl n type body).out = .flit n flit :: before := ⟨_, _, rfl⟩

/-! ## Replay (R371) -/

/-- The state with a replay counted and begun. -/
def State.replaying (s : State) (n : Nat) : State :=
  (s.bump (F.LK_LUAPO_REPLAY n)).modLua n fun l => { l with ackAt := s.clk.cycle, replayAt := some s.clk.cycle }

section
variable {s : State} {n : Nat} {e : Nat × Flit} {es : List (Nat × Flit)} (hkept : (s.lua n).replay = e :: es)
include hkept

/-- From its first flit on, all of the replay buffer goes out again. -/
theorem resend_first : s.resend n e.1 = (e :: es).foldl (fun t e => State.sendData t n e) (s.replaying n) := by
  have hall : (s.lua n).replay.dropWhile (fun x => x.1 != e.1) = e :: es := by simp [hkept]
  rw [State.resend, hall]
  rfl

theorem resend_first_sends : State.Sends n (s.replaying n) (s.resend n e.1) := by
  rw [resend_first hkept]
  exact State.Sends.foldl (fun t e => State.Sends.sendData t e) _ _

theorem resend_first_counts :
    (s.resend n e.1).get (F.LK_LUAPO_REPLAY n) = (s.get (F.LK_LUAPO_REPLAY n) + 1) % 2 ^ (F.LK_LUAPO_REPLAY n).w :=
  (get_congr (resend_first_sends hkept).regs _).trans (get_bump_same s _ 1 (by simp))

theorem resend_first_keeps : ((s.resend n e.1).lua n).replay = (s.lua n).replay := by
  rw [(resend_first_sends hkept).replay, State.replaying, modLua_lua_same, State.bump, put_lua]

theorem resend_first_ackAt : ((s.resend n e.1).lua n).ackAt = s.clk.cycle := by
  rw [(resend_first_sends hkept).ackAt, State.replaying, modLua_lua_same]

theorem replayTimeout_due {u : State} (hup : s.luaUp n = true) (hreach : s.reach ((s.lua n).ackAt + 5000) = some u) :
    s.replayTimeout n = u.resend n e.1 := by
  obtain ⟨reach, heq⟩ : ∃ reach, reach = s.reach := ⟨_, rfl⟩
  rw [← heq] at hreach
  rw [State.replayTimeout, hkept, hup, ← heq]
  simp only [hreach, Bool.not_true, Bool.false_eq_true, if_false]

end

theorem replayTimeout_empty {s : State} {n : Nat} (h : (s.lua n).replay = []) : s.replayTimeout n = s := by
  rw [State.replayTimeout, h]

/-! ## Delays (R376) -/

theorem addDelay_shown (s : State) (n : Nat) (d : Int) : let ds := (d :: (s.lua n).delays).take 16
    (s.addDelay n d).get (F.LK_DELAY n) = uInt 32 (ds.sum / ds.length) :=
  get_put_fits _ (by simp) (uInt_lt 32 _)

theorem addDelay_delays (s : State) (n : Nat) (d : Int) : ((s.addDelay n d).lua n).delays = (d :: (s.lua n).delays).take 16 := by
  rw [State.addDelay, put_lua, modLua_lua_same]

theorem delayReq_due {s u : State} {n : Nat} (hup : s.luaUp n = true) (hreach : s.reach ((s.lua n).reqAt + 2500000) = some u) :
    s.delayReq n = (u.fineTime.2.modLua n fun l => { l with reqAt := u.clk.cycle }).sendControl n 5 (natBytes 8 u.fineTime.1) := by
  obtain ⟨reach, heq⟩ : ∃ reach, reach = s.reach := ⟨_, rfl⟩
  rw [← heq] at hreach
  rw [State.delayReq, hup, ← heq]
  simp only [hreach, Bool.not_true, Bool.false_eq_true, if_false]

theorem delayReq_notUp {s : State} {n : Nat} (h : s.luaUp n = false) : s.delayReq n = s := by
  rw [State.delayReq, h]
  rfl

/-! ## A flit arrives (R366, R367, R375) -/

section
variable {s : State} {n : Nat} {f : List Byte}

theorem rxFlit_noLink (h : s.flitLink n = false) : s.rxFlit n f = s := by
  rw [State.rxFlit, h]
  rfl

variable (hlink : s.flitLink n = true)
include hlink

theorem rxFlit_bad (hbad : flitOk f = false) : s.rxFlit n f
    = if s.linkUp n = true then (s.bump (F.LK_LUAPO_CRC n)).nakNow n else s.bump (F.LK_LUAPO_CRC n) := by
  rw [State.rxFlit, hlink, hbad]
  rfl

theorem rxFlit_init (hok : flitOk f = true) (htype : fhType (fieldAt f 0 8) = 4) : s.rxFlit n f = s.takeFlit n f := by
  simp [State.rxFlit, hlink, hok, htype]

theorem rxFlit_up (hok : flitOk f = true) (htype : fhType (fieldAt f 0 8) ≠ 4) (hup : s.linkUp n = true) :
    s.rxFlit n f = ((s.modLua n fun l => l.header (fieldAt f 0 8) s.clk.cycle).takeFlit n f).pump n := by
  have hstate : s.get (F.LK_STATUS_STATE n) ≠ 3 := by simp [linkUp_iff.1 hup]
  simp [State.rxFlit, hlink, hok, htype, hup, hstate]

/-- The first flit after the partner's INIT brings the link up. -/
theorem rxFlit_first (hok : flitOk f = true) (htype : fhType (fieldAt f 0 8) ≠ 4) (hstate : s.get (F.LK_STATUS_STATE n) = 3)
    (hinit : (s.lua n).init = true) (hup : (s.linkComesUp n).linkUp n = true) : s.rxFlit n f
      = (((s.linkComesUp n).modLua n fun l => l.header (fieldAt f 0 8) s.clk.cycle).takeFlit n f).pump n := by
  simp [State.rxFlit, hlink, hok, htype, hstate, hinit, hup]

end

theorem flitIs_iff {t : Nat} {f : List Byte} : flitIs t f = true ↔ flitOk f = true ∧ fhType (fieldAt f 0 8) = t := by
  simp [flitIs]

/-! ## A flit taken in, by its TYPE (R367, R370, R371, R376) -/

section
variable {s : State} {n : Nat} {f : List Byte}

theorem takeFlit_data (htype : fhType (fieldAt f 0 8) = 1) (hseq : fhSeq (fieldAt f 0 8) = (s.lua n).rxSeq) : s.takeFlit n f
    = (s.modLua n fun l => { l with rxSeq := (l.rxSeq + 1) % 4096, nakAt := none }).takeData n
        ⟨fhVc (fieldAt f 0 8), fhPoison (fieldAt f 0 8), bit (fieldAt f 0 8) 55, bit (fieldAt f 0 8) 56, (f.drop 8).take 240⟩ := by
  simp only [State.takeFlit, htype, hseq, if_true]

theorem takeFlit_outOfOrder (htype : fhType (fieldAt f 0 8) = 1) (hseq : fhSeq (fieldAt f 0 8) ≠ (s.lua n).rxSeq) :
    s.takeFlit n f = s.nakNow n := by
  simp only [State.takeFlit, htype, hseq, if_false]

theorem takeFlit_nak (htype : fhType (fieldAt f 0 8) = 2) (hnew : (s.lua n).replayAt ≠ some s.clk.cycle) :
    s.takeFlit n f = s.resend n (fieldAt ((f.drop 8).take 240) 0 2 % 4096) := by
  simp only [State.takeFlit, htype, State.takeNak, hnew, if_false]

theorem takeFlit_marker (htype : fhType (fieldAt f 0 8) = 3) (hrole : s.get F.STK_CTRL_ROLE ≠ 2) : s.takeFlit n f = s := by
  simp only [State.takeFlit, htype, State.takeMarker, bne_iff_ne.2 hrole, Bool.true_or, if_true]

theorem takeFlit_init (htype : fhType (fieldAt f 0 8) = 4) : s.takeFlit n f = s.takeInit n ((f.drop 8).take 240) := by
  simp only [State.takeFlit, htype]

theorem takeFlit_delay (htype : fhType (fieldAt f 0 8) = 6) :
    ∃ (d : Int) (v : State), s.takeFlit n f = v.addDelay n d ∧ v = { s with fresh := v.fresh } := by
  simp only [State.takeFlit, htype]
  exact ⟨_, _, rfl, rfl⟩

end

/-! ## The partner's INIT (R367) -/

/-- The credit an INIT gives, by virtual channel. -/
def initCredit (body : List Byte) : SMap Nat := (List.range 4).foldl (fun m v => sset 0 m v (fieldAt body (4 + 2 * v) 2)) []

theorem initCredit_sget (body : List Byte) {v : Nat} (h : v < 4) : sget 0 (initCredit body) v = fieldAt body (4 + 2 * v) 2 :=
  sget_foldl_sset (fun v => fieldAt body (4 + 2 * v) 2) (List.mem_range.2 h) []

/-- The state with the partner's identifier shown. -/
def State.peerShown (s : State) (n devid : Nat) : State := (s.put (F.LK_PEER_DEVID n) devid).putB (F.LK_PEER_VALID n) true

/-- The state with the partner's INIT taken. -/
def State.initTaken (s : State) (n : Nat) (body : List Byte) : State :=
  (s.peerShown n (fieldAt body 0 2)).modLua n fun l => { l with init := true, credit := initCredit body }

theorem initTaken_regs (s : State) (n : Nat) (body : List Byte) :
    (s.initTaken n body).regs = (s.peerShown n (fieldAt body 0 2)).regs := by
  rw [State.initTaken, State.modLua]

theorem initTaken_lua (s : State) (n : Nat) (body : List Byte) :
    (s.initTaken n body).lua n = { s.lua n with init := true, credit := initCredit body } := by
  rw [State.initTaken, modLua_lua_same, State.peerShown, State.putB, put_lua, put_lua]

section
variable {s : State} {n : Nat}

theorem takeInit_taken {body : List Byte} (hstate : s.get (F.LK_STATUS_STATE n) = 3) (hversion : byteAt body 2 = 1) :
    s.takeInit n body = s.initTaken n body :=
  if_neg (by simp [hstate, hversion])

theorem peerShown_devid {devid : Nat} (h : devid < 65536) : (s.peerShown n devid).get (F.LK_PEER_DEVID n) = devid := by
  rw [State.peerShown, get_putB_other _ _ _ _ (by simp) (.inr (.inl (by simp)))]
  exact get_put_fits s (by simp) h

theorem peerShown_valid (devid : Nat) : (s.peerShown n devid).on (F.LK_PEER_VALID n) = true :=
  on_putB_same _ _ true rfl (by simp)

theorem peerShown_state (devid : Nat) : (s.peerShown n devid).get (F.LK_STATUS_STATE n) = s.get (F.LK_STATUS_STATE n) := by
  rw [State.peerShown, get_putB_other _ _ _ _ (by simp) (.inl (by simp)), get_put_other _ _ _ _ (by simp) (.inl (by simp))]

end

/-! ## A period of codewords (R365, R366) -/

/-- The lanes' codewords counted, their receivers moved on, and the flits they carry taken in. -/
def State.takeLanes (s : State) (n : Nat) (lanes : List (Nat × List (Option Nat) × List Bool × LaneIn)) : State :=
  (flitsOf (lanes.map fun x => x.2.1)).foldl (fun t f => State.rxFlit t n f)
    ((s.countWords n ((lanes.map fun x => x.2.2.1).flatten)).modLink n fun l => { l with
      lanesIn := lanes.foldl (fun m x => sset {} m x.1 x.2.2.2) l.lanesIn })

theorem rxWords_eq {s : State} {n : Nat} {levels : List Nat} (hlink : s.flitLink n = true)
    (hlevels : levels.length = (lanesOf (s.link n).use).length) :
    s.rxWords n levels = s.takeLanes n ((lanesOf (s.link n).use).zipIdx.map fun (w, i) =>
      (w, (sget ({} : LaneIn) (s.link n).lanesIn w).take (s.on (F.LK_CTRL_PRECODE n)) (wordPeriod (lanesOf (s.link n).use).length)
        (levels.getD i 0))) := by
  refine (if_neg (by simp [hlink])).trans (congrArg (s.takeLanes n) (List.map_congr_left fun x hx => ?_))
  obtain ⟨w, i⟩ := x
  have hi : i < levels.length := hlevels ▸ (List.getElem?_eq_some_iff.1 (List.mk_mem_zipIdx_iff_getElem?.1 hx)).1
  simp only [List.getD_eq_getElem?_getD, List.getElem?_eq_getElem hi, Option.getD_some]

/-! ## Messages (R368, R369) -/

/-- The state with the oldest complete message of a link taken out, and its buffers freed. -/
def State.messageTaken (s : State) (n v : Nat) (parts : List Flit) (rest : List (Nat × List Flit)) : State :=
  s.modLua n fun l => { l with inbox := rest, freed := smod 0 l.freed v (· + parts.length) }

theorem messageWrite_oldest {s : State} {n v : Nat} {parts : List Flit} {rest : List (Nat × List Flit)}
    (h : (s.lua n).inbox = (v, parts) :: rest) : s.messageWrite n = (s.messageTaken n v parts rest).writeMessage n parts := by
  rw [State.messageWrite, h]
  rfl

theorem messageWrite_empty {s : State} {n : Nat} (h : (s.lua n).inbox = []) : s.messageWrite n = s := by
  rw [State.messageWrite, h]

theorem messageTaken_lua (s : State) (n v : Nat) (parts : List Flit) (rest : List (Nat × List Flit)) :
    (s.messageTaken n v parts rest).lua n
      = { s.lua n with inbox := rest, freed := smod 0 (s.lua n).freed v (· + parts.length) } :=
  modLua_lua_same s n _

section
variable {s : State} {n : Nat} {f : Flit} {fs : List Flit}

theorem writeMessage_beyond (h : spaceEnd (byteAt f.payload 6) < fieldAt f.payload 8 8 + fieldAt f.payload 16 2) :
    s.writeMessage n (f :: fs) = s.bump (F.LK_LUAPO_BADADDR n) := by
  simp [State.writeMessage, h]

/-- A message whose header is in order. -/
structure GoodMessage (f : Flit) (fs : List Flit) : Prop where
  kind : byteAt f.payload 5 = 1
  space : byteAt f.payload 6 = 1 ∨ byteAt f.payload 6 = 2
  aligned : fieldAt f.payload 8 8 % 16 = 0
  whole : fieldAt f.payload 16 2 % 16 = 0
  least : 16 ≤ fieldAt f.payload 16 2
  most : fieldAt f.payload 16 2 ≤ 4096
  inside : fieldAt f.payload 8 8 + fieldAt f.payload 16 2 ≤ spaceEnd (byteAt f.payload 6)
  carried : fieldAt f.payload 16 2 / 16 ≤ (messageWords (f :: fs)).length

/-- The state with a message's words written. -/
def State.messageStored (s : State) (f : Flit) (fs : List Flit) : State :=
  s.wrMarked (spaceMem (byteAt f.payload 6)) (fieldAt f.payload 8 8)
    ((messageWords (f :: fs)).take (fieldAt f.payload 16 2 / 16))

theorem writeMessage_good (h : GoodMessage f fs) : s.writeMessage n (f :: fs)
    = if bit (byteAt f.payload 7) 0 = true then
        (s.messageStored f fs).addFloat (fieldAt f.payload 20 4 % 2 ^ 17) (fieldAt f.payload 18 2)
      else s.messageStored f fs := by
  obtain ⟨hkind, hspace, haligned, hwhole, hleast, hmost, hinside, hcarried⟩ := h
  refine if_neg ?_
  simp only [Bool.or_eq_true, bne_iff_ne, beq_iff_eq, Bool.not_eq_true', Bool.or_eq_false_iff, beq_eq_false_iff_ne, decide_eq_true_eq]
  omega

end

/-- Settles O47: a flit's arrival, what its TYPE brings, codewords, messages, replays and delays each give the state their lemma names. -/
theorem luapoCarriesMessages : Obligations.LuapoCarriesMessages := by
  unfold Obligations.LuapoCarriesMessages
  refine ⟨fun s n f hlive => ?flits, fun s n hlive => ?rest⟩
  case flits =>
    simp only [exec_flitReceive_flit, exec_flitReceive_words, exec_nak, exec_strokeMarkerReceive, exec_init, exec_delayResp,
      whenLive_true hlive]
    refine ⟨⟨trivial, fun h => by rw [if_pos h], fun h => by rw [if_pos h], fun h => by rw [if_pos h], fun h => by rw [if_pos h]⟩,
      fun _ => trivial, fun levels hlink hlevels => rxWords_eq hlink hlevels, rxFlit_noLink, rxFlit_bad,
      fun hlink hup hok htype => rxFlit_up hlink hok htype hup,
      fun hlink hstate hinit hok htype hup => rxFlit_first hlink hok htype hstate hinit hup,
      fun u => ⟨takeFlit_outOfOrder, takeFlit_data, takeFlit_nak, takeFlit_marker, takeFlit_delay⟩,
      fun u d => ⟨addDelay_shown u n d, addDelay_delays u n d⟩, fun hinit hlink hstate hversion => ?init⟩
    case init =>
      obtain ⟨hok, htype⟩ := flitIs_iff.1 hinit
      rw [if_pos hinit, rxFlit_init hlink hok htype, takeFlit_init htype, takeInit_taken hstate hversion]
      have hshown := initTaken_regs s n ((f.drop 8).take 240)
      refine ⟨_, rfl, ?_, ?_, ?_, fun v hv => ?_, ?_⟩
      · rw [get_congr hshown, peerShown_devid (fieldAt_lt _ 0 2)]
      · rw [on_congr hshown, peerShown_valid]
      · rw [initTaken_lua]
      · rw [initTaken_lua]
        exact initCredit_sget _ hv
      · rw [get_congr hshown, peerShown_state, hstate]
  case rest =>
    simp only [exec_messageWrite, exec_replayTimeout, exec_delayReq, whenLive_true hlive]
    refine ⟨fun v parts rest hinbox => ?oldest, fun h => by rw [messageWrite_empty h], fun u f fs => ?good,
      fun u f fs => writeMessage_beyond, fun e es u hkept hup hreach => by rw [replayTimeout_due hkept hup hreach],
      fun e es hkept => ⟨resend_first_counts hkept, resend_first_keeps hkept, resend_first_ackAt hkept⟩,
      fun h => by rw [replayTimeout_empty h], fun u hup hreach => by rw [delayReq_due hup hreach], sendControl_out s n,
      fun h => by rw [delayReq_notUp h]⟩
    case oldest =>
      rw [messageWrite_oldest hinbox]
      refine ⟨_, rfl, ?_, ?_, rfl⟩ <;> rw [messageTaken_lua]
      rw [sget_smod, if_pos rfl]
    case good =>
      intro hkind hspace haligned hwhole hleast hmost hinside hcarried
      rw [writeMessage_good ⟨hkind, hspace, haligned, hwhole, hleast, hmost, hinside, hcarried⟩]
      exact ⟨fun hplain => if_neg (by simp [hplain]), fun hsignal => if_pos hsignal⟩

end Sys2Proof.Machine
end

section
/-! Control cores and their firmware: what a core, its status and the replacement under way read after an update, and what each step of a
replacement leaves (R382, R383, R387-R392). -/

namespace Sys2Proof.Machine

theorem exec_fwReplace (cold : Bool) (s : State) : exec (.fwReplace cold) s
    = whenHost s R.SEC_FW_CTRL fun s => if s.live then s.stageModule cold else s := rfl

theorem exec_fwRecoveryLoad (s : State) : exec .fwRecoveryLoad s = whenHost s R.SEC_FW_CTRL State.recoveryLoad := rfl

theorem exec_fwCheckDone (s : State) : exec .fwCheckDone s = whenLive s State.checkDone := rfl

theorem exec_fwHandover (body : List Byte) (s : State) : exec (.fwHandover body) s = whenLive s fun s => s.handover body := rfl

theorem exec_fwStart (s : State) : exec .fwStart s = whenLive s State.fwStarted := rfl

theorem exec_fwQuiesceTimeout (s : State) : exec .fwQuiesceTimeout s = whenLive s State.quiesceTimeout := rfl

theorem exec_fwStartTimeout (s : State) : exec .fwStartTimeout s = whenLive s State.startTimeout := rfl

theorem exec_fwStoreWriteDone (s : State) : exec .fwStoreWriteDone s = whenLive s State.storeDone := rfl

/-! ## Cores and the replacement under way -/

section
variable (s : State) (c st : Nat) (g : Fld)

@[simp] theorem modCore_core_same (f : Core → Core) : (s.modCore c f).core c = f (s.core c) := by
  simp [State.core, State.modCore, smod]

@[simp] theorem modFw_core (f : FwJob → FwJob) : (s.modFw f).core c = s.core c := rfl

@[simp] theorem modFw_fw (f : FwJob → FwJob) : (s.modFw f).sec.fw = f s.sec.fw := rfl

@[simp] theorem modFw_cores (f : FwJob → FwJob) : (s.modFw f).sec.cores = s.sec.cores := rfl

@[simp] theorem setCore_sec : (s.setCore c st).sec = s.sec := by simp [State.setCore]

@[simp] theorem setCore_nv : (s.setCore c st).nv = s.nv := by simp [State.setCore]

@[simp] theorem modCore_nv (f : Core → Core) : (s.modCore c f).nv = s.nv := rfl

@[simp] theorem modFw_nv (f : FwJob → FwJob) : (s.modFw f).nv = s.nv := rfl

@[simp] theorem put_core (v : Nat) : (s.put g v).core c = s.core c := rfl

@[simp] theorem putB_core (b : Bool) : (s.putB g b).core c = s.core c := rfl

@[simp] theorem setCore_core (d : Nat) : (s.setCore c st).core d = s.core d := by simp [State.core]

@[simp] theorem modCore_get (f : Core → Core) : (s.modCore c f).get g = s.get g := rfl

@[simp] theorem modFw_get (f : FwJob → FwJob) : (s.modFw f).get g = s.get g := rfl

@[simp] theorem modFw_on (f : FwJob → FwJob) : (s.modFw f).on g = s.on g := rfl

@[simp] theorem fwStage_get (stage : FwStage) : (s.fwStage stage).get g = s.get g := rfl

end

/-! The status and the version of a core are registers of their own, apart from the others that a replacement writes. -/

theorem coreStatus_ne_bootStatus (c : Nat) : R.SEC_CORE_STATUS c ≠ R.SEC_BOOT_STATUS := by
  show 0x1800040 + 0x4 * c ≠ 0x1800000
  omega

theorem coreStatus_ne_fwStatus (c : Nat) : R.SEC_CORE_STATUS c ≠ R.SEC_FW_STATUS := by
  show 0x1800040 + 0x4 * c ≠ 0x1800028
  omega

theorem coreStatus_ne_modver {c : Nat} (hc : c < 8) (d : Nat) : R.SEC_CORE_STATUS c ≠ R.SEC_MODVER d := by
  show 0x1800040 + 0x4 * c ≠ 0x1800060 + 0x4 * d
  omega

theorem coreStatus_ne_fnver {c : Nat} (hc : c < 8) : R.SEC_CORE_STATUS c ≠ R.MX_VEC_FNVER := by
  show 0x1800040 + 0x4 * c ≠ 0x681000
  omega

theorem modver_ne_fwStatus (c : Nat) : R.SEC_MODVER c ≠ R.SEC_FW_STATUS := by
  show 0x1800060 + 0x4 * c ≠ 0x1800028
  omega

theorem modver_ne_fnver (c : Nat) : R.SEC_MODVER c ≠ R.MX_VEC_FNVER := by
  show 0x1800060 + 0x4 * c ≠ 0x681000
  omega

theorem setCore_coreState (s : State) (c : Nat) {st : Nat} (h : st < 8) : (s.setCore c st).coreState c = st := by
  rw [State.coreState, State.setCore, get_putB_otherReg _ _ (coreStatus_ne_bootStatus c), get_put_fits _ (by simp) h]

theorem setCore_fwStatus (s : State) (c st : Nat) {g : Fld} (h : g.reg = R.SEC_FW_STATUS) : (s.setCore c st).get g = s.get g := by
  have hboot : g.reg ≠ R.SEC_BOOT_STATUS := by rw [h]; decide
  rw [State.setCore, get_putB_otherReg _ _ hboot, get_put_otherReg _ _ _ _ (h ▸ (coreStatus_ne_fwStatus c).symm)]

theorem coreState_put (s : State) (c : Nat) {f : Fld} (v : Nat) (h : R.SEC_CORE_STATUS c ≠ f.reg) :
    (s.put f v).coreState c = s.coreState c := get_put_otherReg s f _ v h

/-! ## Staging (R387) -/

theorem stageModule_busy {s : State} (h : s.on F.SEC_FW_STATUS_BUSY = true) (cold : Bool) : s.stageModule cold = s := if_pos h

theorem recoveryLoad_busy {s : State} (h : s.on F.SEC_FW_STATUS_BUSY = true) : s.recoveryLoad = s := if_pos h

/-- The state in which GO has begun the copy of a module: BUSY, with no result yet. -/
def State.staging (s : State) (cold : Bool) : State :=
  ((((s.putB F.SEC_FW_CTRL_COLD cold).putB F.SEC_FW_CTRL_SOURCE false).putB F.SEC_FW_STATUS_BUSY true).put
    F.SEC_FW_STATUS_RESULT 0).put F.SEC_FW_STATUS_CODE 0

theorem staging_busy (s : State) (cold : Bool) : (s.staging cold).on F.SEC_FW_STATUS_BUSY = true := by
  rw [State.staging, on_put_other _ _ _ _ (by decide) (by decide), on_put_other _ _ _ _ (by decide) (by decide),
    on_putB_same _ _ _ rfl (by decide)]

theorem staging_result (s : State) (cold : Bool) : (s.staging cold).get F.SEC_FW_STATUS_RESULT = 0 := by
  rw [State.staging, get_put_other _ _ _ _ (by decide) (by decide), get_put_fits _ (by decide) (by decide)]

theorem staging_eq_withRegsOf (s : State) (cold : Bool) : s.staging cold = s.withRegsOf (s.staging cold) :=
  withRegsOf_trans (withRegsOf_trans (withRegsOf_trans (withRegsOf_trans (putB_eq_withRegsOf s _ _) (putB_eq_withRegsOf _ _ _))
    (putB_eq_withRegsOf _ _ _)) (put_eq_withRegsOf _ _ _)) (put_eq_withRegsOf _ _ _)

/-- A module whose address and length are in order is read from the Cistern whole. -/
theorem stageModule_fits {s : State} (hidle : s.on F.SEC_FW_STATUS_BUSY = false) (haligned : s.get64 R.SEC_FW_ADDR_LO % 16 = 0)
    (hend : s.get64 R.SEC_FW_ADDR_LO + s.get F.SEC_FW_LEN ≤ 2 ^ 32) (hlen : s.get F.SEC_FW_LEN ≤ 1048576) (cold : Bool) :
    s.stageModule cold = (let r := (s.staging cold).rdRange .cis (s.get64 R.SEC_FW_ADDR_LO) (s.get F.SEC_FW_LEN)
      r.1.modFw fun _ => { stage := .staged, mod := r.2.1, poisoned := r.2.2.contains true, cold := cold, since := s.clk.cycle }) := by
  rw [State.stageModule, if_neg (by simp [hidle])]
  simp only [haligned, hend, hlen, BEq.rfl, decide_true, Bool.and_true, if_true]
  rfl

/-! ## The check (R383, R388) -/

/-- The state of a module refused with a status code, but for its event. -/
def State.refused (s : State) (code : Nat) : State :=
  ((((s.put F.SEC_FW_STATUS_RESULT 3).put F.SEC_FW_STATUS_CODE code).put F.SEC_FW_STATUS_ROLE (modRole s.sec.fw.mod)).putB
    F.SEC_FW_STATUS_BUSY false).modFw fun _ => {}

theorem refuseModule_eq (s : State) (code : Nat) :
    s.refuseModule code = (s.refused code).fwEvent (modRole s.sec.fw.mod) 1 (modVersion s.sec.fw.mod) := rfl

theorem refused_busy (s : State) (code : Nat) : (s.refused code).on F.SEC_FW_STATUS_BUSY = false := by
  rw [State.refused, modFw_on, on_putB_same _ _ _ rfl (by decide)]

theorem refused_result (s : State) (code : Nat) : (s.refused code).get F.SEC_FW_STATUS_RESULT = 3 := by
  rw [State.refused, modFw_get, get_putB_other _ _ _ _ (by decide) (by decide), get_put_other _ _ _ _ (by decide) (by decide),
    get_put_other _ _ _ _ (by decide) (by decide), get_put_fits _ (by decide) (by decide)]

theorem refused_code (s : State) (code : Nat) : (s.refused code).get F.SEC_FW_STATUS_CODE = code % 256 := by
  rw [State.refused, modFw_get, get_putB_other _ _ _ _ (by decide) (by decide), get_put_other _ _ _ _ (by decide) (by decide)]
  exact get_put_same _ _ _ (by decide)

theorem refused_fw (s : State) (code : Nat) : (s.refused code).sec.fw = {} := modFw_fw _ _

theorem refused_cores (s : State) (code : Nat) : (s.refused code).sec.cores = s.sec.cores := by
  rw [State.refused, modFw_cores, State.putB_sec, State.put_sec, State.put_sec, State.put_sec]

/-- The state of a module accepted for a core: it waits for its stroke. -/
def State.accepted (s : State) : State :=
  ((s.put F.SEC_FW_STATUS_RESULT 1).put F.SEC_FW_STATUS_ROLE (modRole s.sec.fw.mod)).fwStage .pending

theorem accepted_result (s : State) : s.accepted.get F.SEC_FW_STATUS_RESULT = 1 := by
  rw [State.accepted, fwStage_get, get_put_other _ _ _ _ (by decide) (by decide), get_put_fits _ (by decide) (by decide)]

theorem beginHandover_result (s : State) : s.beginHandover.get F.SEC_FW_STATUS_RESULT = s.get F.SEC_FW_STATUS_RESULT :=
  setCore_fwStatus _ _ _ rfl

theorem beginHandover_stage (s : State) : s.beginHandover.sec.fw.stage = .begun := by
  rw [State.beginHandover, setCore_sec]
  rfl

/-- The state of a module accepted for the loader's slot: it goes to the store at once. -/
def State.loaderAccepted (s : State) : State := ((s.put F.SEC_FW_STATUS_RESULT 2).put F.SEC_FW_STATUS_ROLE 8).startStore

@[simp] theorem startStore_stage (s : State) : s.startStore.sec.fw.stage = .storing := rfl

theorem loaderAccepted_storing (s : State) : s.loaderAccepted.on F.SEC_FW_STATUS_STORING = true :=
  on_putB_same _ _ _ rfl (by decide)

theorem loaderAccepted_result (s : State) : s.loaderAccepted.get F.SEC_FW_STATUS_RESULT = 2 := by
  rw [State.loaderAccepted, State.startStore, get_putB_other _ _ _ _ (by decide) (by decide), fwStage_get,
    get_put_other _ _ _ _ (by decide) (by decide), get_put_fits _ (by decide) (by decide)]

section
variable {s : State} (hstaged : s.sec.fw.stage = .staged)
include hstaged

theorem checkDone_poisoned (h : s.sec.fw.poisoned = true) : s.checkDone = s.refuseModule Status.poison := by
  simp [State.checkDone, hstaged, h]

variable (hclean : s.sec.fw.poisoned = false)
include hclean

theorem checkDone_failed (h : s.moduleCheck s.sec.fw.mod ≠ 0) :
    s.checkDone = s.refuseModule (checkCode (s.moduleCheck s.sec.fw.mod)) := by
  simp [State.checkDone, hstaged, hclean, h]

variable (hpass : s.moduleCheck s.sec.fw.mod = 0)
include hpass

theorem checkDone_loader (h : modRole s.sec.fw.mod = 8) :
    s.checkDone = s.loaderAccepted := by
  simp [State.checkDone, State.loaderAccepted, hstaged, hclean, hpass, h]

theorem checkDone_accepted (h : modRole s.sec.fw.mod ≠ 8) (hfits : s.compatible s.sec.fw.mod = true) :
    s.checkDone = if s.on F.STK_CTRL_ENABLE = true then s.accepted else s.accepted.beginHandover := by
  simp [State.checkDone, State.accepted, hstaged, hclean, hpass, h, hfits]

end

/-! ## The handover (R389, R390) -/

/-- The state block that the new module of a handover starts with. -/
def State.handedBlock (s : State) (body : List Byte) : List Byte :=
  let j := s.sec.fw
  let old := (s.core (modRole j.mod)).mod
  if j.cold || j.wasDown then s.coldBlock j.mod
  else stateBlock (modState old) (modRole j.mod) 0 (modVersion old) s.strokeOr0 body

/-- The state in which the new module is loaded, with its block. -/
def State.handedOver (s : State) (body : List Byte) : State :=
  (s.modCore (modRole s.sec.fw.mod) fun k => { k with mod := modBody s.sec.fw.mod, block := s.handedBlock body }).modFw
    fun j => { j with stage := .loaded }

theorem handover_begun {s : State} (hbegun : s.sec.fw.stage = .begun) (hsoon : s.clk.cycle ≤ s.sec.fw.since + 125000)
    (body : List Byte) : s.handover body = s.handedOver body := by
  have hlate : ¬s.sec.fw.since + 125000 < s.clk.cycle := by omega
  simp [State.handover, hbegun, hlate, State.handedOver, State.handedBlock]

theorem handedOver_core (s : State) (body : List Byte) : ((s.handedOver body).core (modRole s.sec.fw.mod)).mod = modBody s.sec.fw.mod
    ∧ ((s.handedOver body).core (modRole s.sec.fw.mod)).block = s.handedBlock body := by
  rw [State.handedOver, modFw_core, modCore_core_same]
  exact ⟨rfl, rfl⟩

/-! ## A core runs a module (R385, R389) -/

theorem modVersion_lt (m : List Byte) : modVersion m < 2 ^ 32 := fieldAt_lt m 8 4

theorem runCore_core (s : State) (c : Nat) (m block : List Byte) :
    (s.runCore c m block).core c = { s.core c with mod := modBody m, block := block, startedAt := s.clk.cycle } := by
  rw [State.runCore, put_core, setCore_core, modCore_core_same]

theorem runCore_coreState (s : State) {c : Nat} (hc : c < 8) (m block : List Byte) : (s.runCore c m block).coreState c = 1 := by
  rw [State.runCore, coreState_put _ _ _ (coreStatus_ne_modver hc c), setCore_coreState _ _ (by decide)]

theorem runCore_version (s : State) (c : Nat) (m block : List Byte) :
    (s.runCore c m block).get (F.SEC_MODVER_MODULE_VERSION c) = modVersion m :=
  get_put_fits _ (by simp) (modVersion_lt m)

theorem runCore_nv (s : State) (c : Nat) (m block : List Byte) : (s.runCore c m block).nv = s.nv := by
  simp [State.runCore]

theorem newTables_eq (s : State) : s.newTables = { s with regs := s.newTables.regs, fresh := s.newTables.fresh } := by
  unfold State.newTables
  dsimp only
  split <;> rfl

theorem newTables_sec (s : State) : s.newTables.sec = s.sec := by rw [newTables_eq]

theorem newTables_get (s : State) {g : Fld} (h : g.reg ≠ R.MX_VEC_FNVER) : s.newTables.get g = s.get g := by
  unfold State.newTables
  dsimp only
  split
  · rfl
  · rw [get_put_otherReg _ _ _ _ h]
    rfl

/-! ## START (R389, R392) -/

/-- The state in which the new module runs and goes to the store, but for its event. -/
def State.moduleRuns (s : State) : State :=
  ((((s.runCore (modRole s.sec.fw.mod) s.sec.fw.mod (s.core (modRole s.sec.fw.mod)).block).newTables).modCore (modRole s.sec.fw.mod)
    fun k => { k with expired := none }).startStore).put F.SEC_FW_STATUS_RESULT 2

theorem fwStarted_loaded {s : State} (hloaded : s.sec.fw.stage = .loaded) (hsoon : s.clk.cycle ≤ s.sec.fw.since + 475000) :
    s.fwStarted = s.moduleRuns.fwEvent (modRole s.sec.fw.mod) 0 (modVersion s.sec.fw.mod) := by
  have hlate : ¬s.sec.fw.since + 475000 < s.clk.cycle := by omega
  simp [State.fwStarted, hloaded, hlate, State.moduleRuns]

section
variable (s : State)

theorem moduleRuns_stage : s.moduleRuns.sec.fw.stage = .storing := by
  rw [State.moduleRuns, State.put_sec, startStore_stage]

theorem moduleRuns_result : s.moduleRuns.get F.SEC_FW_STATUS_RESULT = 2 := get_put_fits _ (by decide) (by decide)

theorem moduleRuns_core : (s.moduleRuns.core (modRole s.sec.fw.mod)).mod = modBody s.sec.fw.mod := by
  rw [State.moduleRuns, put_core, State.startStore, State.putB, put_core, State.fwStage, modFw_core, modCore_core_same, State.core,
    newTables_sec, ← State.core, runCore_core]

/-- A field outside FW_STATUS and the function tables' version is as `runCore` leaves it. -/
theorem moduleRuns_get {g : Fld} (hstatus : g.reg ≠ R.SEC_FW_STATUS) (htables : g.reg ≠ R.MX_VEC_FNVER) : s.moduleRuns.get g
    = (s.runCore (modRole s.sec.fw.mod) s.sec.fw.mod (s.core (modRole s.sec.fw.mod)).block).get g := by
  rw [State.moduleRuns, get_put_otherReg _ _ _ _ hstatus, State.startStore, get_putB_otherReg _ _ hstatus, fwStage_get, modCore_get,
    newTables_get _ htables]

theorem moduleRuns_version : s.moduleRuns.get (F.SEC_MODVER_MODULE_VERSION (modRole s.sec.fw.mod)) = modVersion s.sec.fw.mod := by
  rw [moduleRuns_get s (modver_ne_fwStatus _) (modver_ne_fnver _), runCore_version]

theorem moduleRuns_coreState (hc : modRole s.sec.fw.mod < 8) : s.moduleRuns.coreState (modRole s.sec.fw.mod) = 1 := by
  rw [State.coreState, moduleRuns_get s (coreStatus_ne_fwStatus _) (coreStatus_ne_fnver hc), ← State.coreState, runCore_coreState s hc]

end

/-! ## Past the limits (R391) -/

/-- The state of a replacement that ended without its module in place, but for its event. -/
def State.replacementEnded (s : State) : State :=
  ((s.putB F.SEC_FW_STATUS_BUSY false).put F.SEC_FW_STATUS_RESULT 4).modFw fun _ => {}

theorem fwTimedOut_eq (s : State) (c version : Nat) : s.fwTimedOut c version = s.replacementEnded.fwEvent c 2 version := rfl

theorem replacementEnded_busy (s : State) : s.replacementEnded.on F.SEC_FW_STATUS_BUSY = false := by
  rw [State.replacementEnded, modFw_on, on_put_other _ _ _ _ (by decide) (by decide), on_putB_same _ _ _ rfl (by decide)]

theorem replacementEnded_result (s : State) : s.replacementEnded.get F.SEC_FW_STATUS_RESULT = 4 := by
  rw [State.replacementEnded, modFw_get, get_put_fits _ (by decide) (by decide)]

theorem replacementEnded_coreState (s : State) (c : Nat) : s.replacementEnded.coreState c = s.coreState c := by
  rw [State.replacementEnded, State.coreState, modFw_get, get_put_otherReg _ _ _ _ (coreStatus_ne_fwStatus c),
    get_putB_otherReg _ _ (coreStatus_ne_fwStatus c), State.coreState]

theorem replacementEnded_core (s : State) (c : Nat) : s.replacementEnded.core c = s.core c := by
  rw [State.replacementEnded, modFw_core, put_core, putB_core]

theorem replacementEnded_fw (s : State) : s.replacementEnded.sec.fw = {} := modFw_fw _ _

theorem replacementEnded_nv (s : State) : s.replacementEnded.nv = s.nv := by simp [State.replacementEnded]

theorem quiesceTimeout_due {s : State} (hbegun : s.sec.fw.stage = .begun) (hran : s.sec.fw.wasDown = false)
    (hdue : s.sec.fw.since + 125000 ≤ s.clk.cycle) :
    s.quiesceTimeout = (s.setCore (modRole s.sec.fw.mod) 1).fwTimedOut (modRole s.sec.fw.mod) (modVersion s.sec.fw.mod) := by
  simp [State.quiesceTimeout, hbegun, hran, reach_now s _ hdue]

theorem startTimeout_due {s : State} (hloaded : s.sec.fw.stage = .loaded) (hdue : s.sec.fw.since + 475000 ≤ s.clk.cycle) :
    s.startTimeout = ((s.coldStart (modRole s.sec.fw.mod)).fwTimedOut (modRole s.sec.fw.mod) (modVersion s.sec.fw.mod)).watchdogEvent
      (modRole s.sec.fw.mod) 1 := by
  simp [State.startTimeout, hloaded, reach_now s _ hdue]

theorem coldStart_mod (s : State) (c : Nat) : ((s.coldStart c).core c).mod = modBody (sget [] s.nv.slots c) := by
  rw [State.coldStart, runCore_core]

theorem coldStart_startedAt (s : State) (c : Nat) : ((s.coldStart c).core c).startedAt = s.clk.cycle := by
  rw [State.coldStart, runCore_core]

theorem coldStart_nv (s : State) (c : Nat) : (s.coldStart c).nv = s.nv := runCore_nv s c _ _

theorem coldStart_coreState (s : State) {c : Nat} (hc : c < 8) : (s.coldStart c).coreState c = 1 := runCore_coreState s hc _ _

/-! ## The store write (R392) -/

/-- The state with a module in its store slot. -/
def State.slotWritten (s : State) (m : List Byte) : State :=
  { s with nv := { s.nv with slots := sset [] s.nv.slots (modRole m) m } }

theorem slotWritten_slots (s : State) (m : List Byte) (k : Nat) :
    sget [] (s.slotWritten m).nv.slots k = if k = modRole m then m else sget [] s.nv.slots k := sget_sset [] _ _ k m

/-- The state with the staged module in its slot and no replacement under way. -/
def State.stored (s : State) : State :=
  (((s.slotWritten s.sec.fw.mod).putB F.SEC_FW_STATUS_BUSY false).putB F.SEC_FW_STATUS_STORING false).modFw fun _ => {}

theorem storeDone_storing {s : State} (h : s.sec.fw.stage = .storing) : s.storeDone = s.stored := by
  simp [State.storeDone, h, State.stored, State.slotWritten]

theorem stored_slots (s : State) (k : Nat) :
    sget [] s.stored.nv.slots k = if k = modRole s.sec.fw.mod then s.sec.fw.mod else sget [] s.nv.slots k := by
  rw [State.stored, modFw_nv, State.putB_nv, State.putB_nv, slotWritten_slots]

theorem stored_busy (s : State) : s.stored.on F.SEC_FW_STATUS_BUSY = false := by
  rw [State.stored, modFw_on, on_putB_other _ _ _ _ (by decide) (by decide), on_putB_same _ _ _ rfl (by decide)]

theorem stored_storing (s : State) : s.stored.on F.SEC_FW_STATUS_STORING = false := by
  rw [State.stored, modFw_on, on_putB_same _ _ _ rfl (by decide)]

theorem stored_fw (s : State) : s.stored.sec.fw = {} := modFw_fw _ _

/-- Settles O48: each step of a replacement leaves the state that its lemma names. -/
theorem firmwareIsReplaced : Obligations.FirmwareIsReplaced := by
  unfold Obligations.FirmwareIsReplaced
  intro s hlive
  have htakes : s.takesWrite R.SEC_FW_CTRL = true := live_takes hlive _ (by decide)
  simp only [exec_fwCheckDone, exec_fwHandover, exec_fwStart, exec_fwQuiesceTimeout, exec_fwStartTimeout, exec_fwStoreWriteDone,
    exec_fwReplace, exec_fwRecoveryLoad, whenLive_true hlive]
  refine ⟨fun cold body => ⟨fun hlink => ?commands, trivial, trivial, trivial, trivial, trivial, trivial⟩,
    fun cold hlink hbusy => ?busy, fun cold hlink hidle haligned hend hlen => ?staged,
    fun hstaged hpoison => by rw [checkDone_poisoned hstaged hpoison],
    fun hstaged hclean hbad => by rw [checkDone_failed hstaged hclean hbad],
    fun code => ⟨s.refused code, refuseModule_eq s code, refused_busy s code, refused_result s code, refused_code s code, refused_fw s code,
      refused_cores s code⟩,
    fun hstaged hclean hpass hrole hfits => ?accepted, fun hstaged hclean hpass hrole => ?loader, fun body hbegun hsoon => ?handover,
    fun hloaded hsoon hc => ?started, fun hbegun hran hc hdue => ?quiesce, fun hloaded hdue hc => ?startTimeout, fun hstoring => ?stored⟩
  case commands => simp only [whenHost_true htakes hlink, hlive, if_true, and_self]
  case busy => simp only [whenHost_true htakes hlink, hlive, if_true, stageModule_busy hbusy, recoveryLoad_busy hbusy, and_self]
  case staged =>
    refine ⟨s.staging cold, staging_busy s cold, staging_result s cold, staging_eq_withRegsOf s cold, ?_⟩
    rw [whenHost_true htakes hlink, if_pos hlive, stageModule_fits hidle haligned hend hlen]
  case accepted =>
    rw [checkDone_accepted hstaged hclean hpass hrole hfits]
    refine ⟨_, rfl, ?_⟩
    split
    · exact ⟨accepted_result s, rfl⟩
    · exact ⟨(beginHandover_result _).trans (accepted_result s), beginHandover_stage _⟩
  case loader =>
    rw [checkDone_loader hstaged hclean hpass hrole]
    exact ⟨_, rfl, loaderAccepted_result s, rfl, loaderAccepted_storing s⟩
  case handover =>
    rw [handover_begun hbegun hsoon body]
    obtain ⟨hmod, hblock⟩ := handedOver_core s body
    exact ⟨_, rfl, rfl, hmod, rfl, hblock⟩
  case started =>
    rw [fwStarted_loaded hloaded hsoon]
    exact ⟨s.moduleRuns, rfl, moduleRuns_stage s, moduleRuns_coreState s hc, moduleRuns_result s, moduleRuns_version s, moduleRuns_core s⟩
  case quiesce =>
    rw [quiesceTimeout_due hbegun hran hdue, fwTimedOut_eq]
    refine ⟨_, rfl, ?_, replacementEnded_fw _, replacementEnded_busy _, replacementEnded_result _, ?_⟩
    · rw [replacementEnded_coreState, setCore_coreState _ _ (by decide)]
    · rw [replacementEnded_nv, setCore_nv]
  case startTimeout =>
    rw [startTimeout_due hloaded hdue, fwTimedOut_eq]
    refine ⟨_, rfl, ?_, replacementEnded_fw _, ?_, ?_⟩
    · rw [replacementEnded_coreState, coldStart_coreState s hc]
    · rw [replacementEnded_core, coldStart_mod]
    · rw [replacementEnded_nv, coldStart_nv]
  case stored =>
    rw [storeDone_storing hstoring]
    exact ⟨_, rfl, by rw [stored_slots, if_pos rfl], fun k hk => by rw [stored_slots, if_neg hk], stored_busy s, stored_storing s,
      stored_fw s⟩

end Sys2Proof.Machine
end

section
/-! The recovery mailbox, the watchdogs of the control cores and their restarts (R386, R393, R394). -/

namespace Sys2Proof.Machine

theorem exec_recStart (s : State) : exec .recStart s
    = whenHost s R.SEC_REC_CTRL fun s => { s with sec := { s.sec with recovery := [] } } := rfl

theorem exec_recData (v : Word) (s : State) : exec (.recData v) s = whenHost s R.SEC_REC_DATA fun s =>
    if 1048576 ≤ s.sec.recovery.length then s
    else { s with sec := { s.sec with recovery := s.sec.recovery ++ natBytes 4 v.toNat } } := rfl

theorem exec_watchdog (core : Fin 8) (s : State) : exec (.watchdog core) s = whenLive s fun s => s.watchdog core := rfl

theorem exec_coreRestarted (core : Fin 8) (s : State) : exec (.coreRestarted core) s
    = whenLive s fun s => if s.coreState core = 3 then s.coldStart core else s := rfl

/-! ## A recovery module through its check (R383, R386) -/

theorem checkCode_lt (reason : Nat) : checkCode reason < 256 := by
  unfold checkCode
  split <;> decide

/-- A module's check looks at the keys and at two register fields alone. -/
theorem moduleCheck_congr {s t : State} (hnv : t.nv = s.nv) (hlife : t.get F.GLB_STATUS_LIFECYCLE = s.get F.GLB_STATUS_LIFECYCLE)
    (howner : t.on F.SEC_OWNER_STATUS_ENROLLED = s.on F.SEC_OWNER_STATUS_ENROLLED) (m : List Byte) :
    t.moduleCheck m = s.moduleCheck m := by
  simp only [State.moduleCheck, State.ownerRule, hnv, hlife, howner]

theorem badSlot_congr {s t : State} (hnv : t.nv = s.nv) (hlife : t.get F.GLB_STATUS_LIFECYCLE = s.get F.GLB_STATUS_LIFECYCLE)
    (howner : t.on F.SEC_OWNER_STATUS_ENROLLED = s.on F.SEC_OWNER_STATUS_ENROLLED) : t.badSlot = s.badSlot := by
  simp only [State.badSlot, hnv, moduleCheck_congr hnv hlife howner]

/-- What a load of the recovery module shows: its result, code and role. -/
def State.recoveryShown (s : State) (result code : Nat) : State :=
  (((s.putB F.SEC_FW_CTRL_SOURCE true).put F.SEC_FW_STATUS_RESULT result).put F.SEC_FW_STATUS_CODE code).put F.SEC_FW_STATUS_ROLE
    (modRole s.sec.recovery)

section
variable (s : State) {result code : Nat}

theorem recoveryShown_result (h : result < 8) : (s.recoveryShown result code).get F.SEC_FW_STATUS_RESULT = result := by
  rw [State.recoveryShown, get_put_other _ _ _ _ (by decide) (by decide), get_put_other _ _ _ _ (by decide) (by decide),
    get_put_fits _ (by decide) h]

theorem recoveryShown_code (h : code < 256) : (s.recoveryShown result code).get F.SEC_FW_STATUS_CODE = code := by
  rw [State.recoveryShown, get_put_other _ _ _ _ (by decide) (by decide), get_put_fits _ (by decide) h]

theorem recoveryShown_eq_withRegsOf (result code : Nat) : s.recoveryShown result code = s.withRegsOf (s.recoveryShown result code) :=
  withRegsOf_trans (withRegsOf_trans (withRegsOf_trans (putB_eq_withRegsOf s _ _) (put_eq_withRegsOf _ _ _))
    (put_eq_withRegsOf _ _ _)) (put_eq_withRegsOf _ _ _)

end

/-- The state with the recovery module in its slot. -/
def State.recoveryStored (s : State) : State := (s.recoveryShown 2 0).slotWritten s.sec.recovery

theorem slotWritten_get (s : State) (m : List Byte) (g : Fld) : (s.slotWritten m).get g = s.get g := get_congr rfl g

theorem recoveryStored_result (s : State) : s.recoveryStored.get F.SEC_FW_STATUS_RESULT = 2 :=
  (slotWritten_get _ _ _).trans (recoveryShown_result s (by decide))

theorem recoveryStored_slots (s : State) : sget [] s.recoveryStored.nv.slots (modRole s.sec.recovery) = s.sec.recovery :=
  (slotWritten_slots _ _ _).trans (if_pos rfl)

/-- The state in another phase. -/
def State.inPhase (s : State) (p : Phase) : State := { s with phase := p }

section
variable (s : State) (p : Phase) (g : Fld)

@[simp] theorem inPhase_get : (s.inPhase p).get g = s.get g := get_congr rfl g

@[simp] theorem inPhase_on : (s.inPhase p).on g = s.on g := on_congr rfl g

@[simp] theorem inPhase_nv : (s.inPhase p).nv = s.nv := rfl

end

/-- The state in which start-up goes on: no slot is bad. -/
def State.startupResumes (s : State) : State :=
  ((((s.putB F.GLB_STATUS_FAULT_HOLD false).putB F.SEC_BOOT_STATUS_RECOVERY false).put F.SEC_BOOT_STATUS_ROLE 0).put
    F.SEC_BOOT_STATUS_REASON 0).inPhase .startup

theorem enterRecovery_eq (s : State) (role why : Nat) : s.enterRecovery role why
    = (((((((s.put F.GLB_STATUS_STAGE 1).putB F.GLB_STATUS_FAULT_HOLD true).inPhase .hold).putB F.SEC_BOOT_STATUS_RECOVERY true).put
      F.SEC_BOOT_STATUS_ROLE role).put F.SEC_BOOT_STATUS_REASON why).put F.SEC_BOOT_STATUS_STAGE (if role = 8 then 1 else 2)).inPhase
        .recovery := rfl

section
variable (s : State)

theorem startupResumes_faultHold : s.startupResumes.on F.GLB_STATUS_FAULT_HOLD = false := by
  rw [State.startupResumes, inPhase_on, on_put_other _ _ _ _ (by decide) (by decide), on_put_other _ _ _ _ (by decide) (by decide),
    on_putB_other _ _ _ _ (by decide) (by decide), on_putB_same _ _ _ rfl (by decide)]

/-- Start-up resumed shows itself in GLB_STATUS and SEC_BOOT_STATUS alone. -/
theorem startupResumes_get {g : Fld} (hglb : g.reg ≠ R.GLB_STATUS) (hboot : g.reg ≠ R.SEC_BOOT_STATUS) :
    s.startupResumes.get g = s.get g := by
  rw [State.startupResumes, inPhase_get, get_put_otherReg _ _ _ _ hboot, get_put_otherReg _ _ _ _ hboot, get_putB_otherReg _ _ hboot,
    get_putB_otherReg _ _ hglb]

theorem startupResumes_lifecycle : s.startupResumes.get F.GLB_STATUS_LIFECYCLE = s.get F.GLB_STATUS_LIFECYCLE := by
  rw [State.startupResumes, inPhase_get, get_put_otherReg _ _ _ _ (by decide), get_put_otherReg _ _ _ _ (by decide),
    get_putB_otherReg _ _ (by decide), get_putB_other _ _ _ _ (by decide) (by decide)]

theorem startupResumes_nv : s.startupResumes.nv = s.nv := by simp [State.startupResumes]

theorem startupResumes_badSlot : s.startupResumes.badSlot = s.badSlot :=
  badSlot_congr (startupResumes_nv s) (startupResumes_lifecycle s)
    (congrArg (· == 1) (startupResumes_get s (g := F.SEC_OWNER_STATUS_ENROLLED) (by decide) (by decide)))

variable (role why : Nat)

theorem enterRecovery_role : (s.enterRecovery role why).get F.SEC_BOOT_STATUS_ROLE = role % 16 := by
  rw [enterRecovery_eq, inPhase_get, get_put_other _ _ _ _ (by decide) (by decide), get_put_other _ _ _ _ (by decide) (by decide)]
  exact get_put_same _ _ _ (by decide)

theorem enterRecovery_reason : (s.enterRecovery role why).get F.SEC_BOOT_STATUS_REASON = why % 16 := by
  rw [enterRecovery_eq, inPhase_get, get_put_other _ _ _ _ (by decide) (by decide)]
  exact get_put_same _ _ _ (by decide)

/-- A wait in the mailbox shows itself in GLB_STATUS and SEC_BOOT_STATUS alone. -/
theorem enterRecovery_get {g : Fld} (hglb : g.reg ≠ R.GLB_STATUS) (hboot : g.reg ≠ R.SEC_BOOT_STATUS) :
    (s.enterRecovery role why).get g = s.get g := by
  rw [enterRecovery_eq, inPhase_get, get_put_otherReg _ _ _ _ hboot, get_put_otherReg _ _ _ _ hboot, get_put_otherReg _ _ _ _ hboot,
    get_putB_otherReg _ _ hboot, inPhase_get, get_putB_otherReg _ _ hglb, get_put_otherReg _ _ _ _ hglb]

theorem enterRecovery_lifecycle : (s.enterRecovery role why).get F.GLB_STATUS_LIFECYCLE = s.get F.GLB_STATUS_LIFECYCLE := by
  rw [enterRecovery_eq, inPhase_get, get_put_otherReg _ _ _ _ (by decide), get_put_otherReg _ _ _ _ (by decide),
    get_put_otherReg _ _ _ _ (by decide), get_putB_otherReg _ _ (by decide), inPhase_get,
    get_putB_other _ _ _ _ (by decide) (by decide), get_put_other _ _ _ _ (by decide) (by decide)]

theorem enterRecovery_nv : (s.enterRecovery role why).nv = s.nv := by simp [enterRecovery_eq]

theorem enterRecovery_badSlot : (s.enterRecovery role why).badSlot = s.badSlot :=
  badSlot_congr (enterRecovery_nv s role why) (enterRecovery_lifecycle s role why)
    (congrArg (· == 1) (enterRecovery_get s role why (g := F.SEC_OWNER_STATUS_ENROLLED) (by decide) (by decide)))

end

section
variable {s : State} (hidle : s.on F.SEC_FW_STATUS_BUSY = false) (hphase : s.phase = .recovery)
include hidle hphase

theorem recoveryLoad_bad (hbad : s.moduleCheck s.sec.recovery ≠ 0) :
    s.recoveryLoad = s.recoveryShown 3 (checkCode (s.moduleCheck s.sec.recovery)) := by
  simp [State.recoveryLoad, hidle, hphase, hbad, State.recoveryShown]

variable (hgood : s.moduleCheck s.sec.recovery = 0)
include hgood

theorem recoveryLoad_good : s.recoveryLoad
    = s.recoveryStored.badSlot.elim s.recoveryStored.startupResumes fun bad => s.recoveryStored.enterRecovery bad.1 bad.2 := by
  have hbusy : ¬s.on F.SEC_FW_STATUS_BUSY = true := by simp [hidle]
  have hrecovery : ¬(s.phase != .recovery) = true := by simp [hphase]
  have hpass : ¬(s.moduleCheck s.sec.recovery != 0) = true := by simp [hgood]
  refine (if_neg hbusy).trans ((if_neg hrecovery).trans ((if_neg hpass).trans ?_))
  change (match s.recoveryStored.badSlot with
    | some (role, why) => s.recoveryStored.enterRecovery role why
    | none => s.recoveryStored.startupResumes) = _
  cases s.recoveryStored.badSlot <;> rfl

theorem recoveryLoad_goesOn (hnone : s.recoveryStored.badSlot = none) : s.recoveryLoad = s.recoveryStored.startupResumes := by
  rw [recoveryLoad_good hidle hphase hgood, hnone]
  rfl

theorem recoveryLoad_waits {role why : Nat} (hslot : s.recoveryStored.badSlot = some (role, why)) :
    s.recoveryLoad = s.recoveryStored.enterRecovery role why := by
  rw [recoveryLoad_good hidle hphase hgood, hslot]
  rfl

end

/-! ## What a move to bypass leaves of the control cores (R361, R393)

The pairs that a watchdog latches in bypass, and the frames and links that go with them, are none of the control cores'. -/

theorem foldl_sec {α : Type} {g : State → α → State} (h : ∀ t a, (g t a).sec = t.sec) (l : List α) (s : State) :
    (l.foldl g s).sec = s.sec :=
  List.foldlRecOn (motive := fun t => t.sec = s.sec) l g rfl fun t ht a _ => (h t a).trans ht

theorem modFrame_sec (s : State) (n id : Nat) (f : SpFrame → SpFrame) : (s.modFrame n id f).sec = s.sec := by
  unfold State.modFrame State.noteFreed
  dsimp only
  split <;> rfl

theorem releaseEntry_sec (s : State) (e : QEntry) : (s.releaseEntry e).sec = s.sec := by
  unfold State.releaseEntry
  split
  · rfl
  · exact modFrame_sec s _ _ _

theorem dropClass_sec (s : State) (n c : Nat) : (s.dropClass n c).sec = s.sec := by
  rw [State.dropClass, State.bump_sec, State.setClassQ_sec, foldl_sec releaseEntry_sec]

theorem dropLink_sec (s : State) (n : Nat) : (s.dropLink n).sec = s.sec := foldl_sec (fun t c => dropClass_sec t n c) _ s

theorem sendDown_sec (s : State) (n reason : Nat) : (s.sendDown n reason).sec = s.sec := by
  unfold State.sendDown
  split <;> rfl

theorem toBypass_sec (s : State) (p cause reason : Nat) : (s.toBypass p cause reason).sec = s.sec := by
  unfold State.toBypass
  dsimp only
  split
  · rfl
  · rw [sendDown_sec, sendDown_sec, dropLink_sec, dropLink_sec, State.modPair_sec, State.put_sec, State.put_sec]

theorem leavePair_sec (s : State) (p cause reason : Nat) : (s.leavePair p cause reason).sec = s.sec := by
  unfold State.leavePair
  dsimp only
  split
  · rfl
  · split
    · exact toBypass_sec s p cause reason
    · rfl

theorem latchBypass_sec (s : State) (p cause : Nat) : (s.latchBypass p cause).sec = s.sec := by
  unfold State.latchBypass
  dsimp only
  split
  · exact leavePair_sec s p cause 1
  · rfl

/-! ## A watchdog expires (R393, R394) -/

/-- The state with an expiry of a core's watchdog counted and noted. -/
def State.expiryNoted (s : State) (c : Nat) : State :=
  (s.bumpSat (F.SEC_CORE_STATUS_EXPIRIES c)).modCore c fun k => { k with expired := some s.clk.cycle, startedAt := s.clk.cycle }

/-- `t` with the pairs latched in bypass that are privileged in `s`, where the core is CC0 or CC1. -/
def State.privLatched (t s : State) (c : Nat) : State :=
  if c ≤ 1 then (List.range 12).foldl (fun t p => if s.privPair p then t.latchBypass p 1 else t) t else t

theorem privLatched_sec (t s : State) (c : Nat) : (t.privLatched s c).sec = t.sec := by
  unfold State.privLatched
  split
  · refine foldl_sec (fun t p => ?_) _ t
    split
    · exact latchBypass_sec t p 1
    · rfl
  · rfl

/-- The last expiry of a core's watchdog was at most 1,000 ms ago. -/
def State.expiredLately (s : State) (c : Nat) : Bool := (s.core c).expired.any fun t => s.clk.cycle ≤ t + 2500000000

theorem expiredLately_false {s : State} {c : Nat} (h : ∀ t, (s.core c).expired = some t → t + 2500000000 < s.clk.cycle) :
    s.expiredLately c = false := by
  unfold State.expiredLately
  cases hlast : (s.core c).expired with
  | none => rfl
  | some t => simpa using h t hlast

theorem expiredLately_true {s : State} {c t : Nat} (hlast : (s.core c).expired = some t) (h : s.clk.cycle ≤ t + 2500000000) :
    s.expiredLately c = true := by
  simpa [State.expiredLately, hlast] using h

/-- `u` with a core that its watchdog has stopped, but for the events; `s` is the state in which the pairs were privileged. -/
def State.watchdogStopped (u s : State) (c : Nat) : State :=
  ((u.expiryNoted c).privLatched s c).setCore c (if u.expiredLately c = true then 4 else 3)

theorem watchdog_due {s u : State} {c : Nat} (hstate : s.coreState c = 1 ∨ s.coreState c = 3)
    (hreach : s.reach ((s.core c).startedAt + 2500 * s.get (F.RV_WDT c)) = some u) :
    s.watchdog c = if u.expiredLately c = true then
        ((u.watchdogStopped s c).watchdogEvent c (if c ≤ 1 then 2 else 1)).unitFailed 6 c 2 0
      else (u.watchdogStopped s c).watchdogEvent c (if c ≤ 1 then 2 else 1) := by
  have hruns : ¬(s.coreState c != 1 && s.coreState c != 3) = true := by
    rcases hstate with h | h <;> simp [h]
  refine (if_neg hruns).trans ?_
  rw [hreach]
  cases hlast : (u.core c).expired with
  | none =>
    have hlately : u.expiredLately c = false := by rw [State.expiredLately, hlast, Option.any_none]
    simp only [State.watchdogStopped, hlately, hlast]
    rfl
  | some t =>
    have hlately : u.expiredLately c = decide (u.clk.cycle ≤ t + 2500000000) := by rw [State.expiredLately, hlast, Option.any_some]
    simp only [State.watchdogStopped, hlately, hlast]
    rfl

section
variable (u s : State) (c : Nat)

theorem watchdogStopped_coreState : (u.watchdogStopped s c).coreState c = if u.expiredLately c = true then 4 else 3 :=
  setCore_coreState _ c (by split <;> decide)

theorem watchdogStopped_expired : ((u.watchdogStopped s c).core c).expired = some u.clk.cycle := by
  rw [State.watchdogStopped, setCore_core, State.core, privLatched_sec, ← State.core, State.expiryNoted, modCore_core_same]

end

/-- `s` with the registers and the trust part of `t`. -/
def State.withCoresOf (s t : State) : State := { s with regs := t.regs, sec := t.sec }

theorem withCoresOf_trans {s t u : State} (hst : t = s.withCoresOf t) (htu : u = t.withCoresOf u) : u = s.withCoresOf u :=
  calc u = t.withCoresOf u := htu
    _ = (s.withCoresOf t).withCoresOf u := congrArg (fun x => State.withCoresOf x u) hst
    _ = s.withCoresOf u := rfl

theorem put_eq_withCoresOf (s : State) (f : Fld) (v : Nat) : s.put f v = s.withCoresOf (s.put f v) := rfl

/-- A watchdog of CC2 to CC7 moves no pair (R393). -/
theorem watchdogStopped_eq_withCoresOf {u s : State} {c : Nat} (hc : 2 ≤ c) :
    u.watchdogStopped s c = u.withCoresOf (u.watchdogStopped s c) := by
  have hpairs : (u.expiryNoted c).privLatched s c = u.expiryNoted c := if_neg (by omega)
  have hnoted : u.expiryNoted c = u.withCoresOf (u.expiryNoted c) := rfl
  rw [State.watchdogStopped, hpairs]
  exact withCoresOf_trans hnoted (withCoresOf_trans (put_eq_withCoresOf _ _ _) (put_eq_withCoresOf _ _ _))

/-- Settles O49: a load of the recovery module by its check and by the slots that it leaves, a watchdog by its last expiry, a restart
by whether the core waits for it. -/
theorem coresRecover : Obligations.CoresRecover := by
  unfold Obligations.CoresRecover
  intro s core v
  refine ⟨fun htakes hlink => by rw [exec_recStart, whenHost_true htakes hlink], fun htakes hlink hroom => ?data,
    fun hphase htakes hlink hidle => ⟨fun hbad => ?refused, fun hgood => ?stored⟩,
    fun hlive => by rw [exec_watchdog, whenLive_true hlive], fun hlive u hstate hreach => ?expires,
    fun hlive hcore hstate hdue => ⟨fun hlong => ?stops, fun t0 hlast hsoon => ?fails⟩,
    fun hlive hstate => by rw [exec_coreRestarted, whenLive_true hlive, if_neg hstate], fun hlive hstate => ?restarted⟩
  case data => rw [exec_recData, whenHost_true htakes hlink, if_neg (by omega)]
  case refused =>
    rw [exec_fwRecoveryLoad, whenHost_true htakes hlink, recoveryLoad_bad hidle hphase hbad]
    exact ⟨_, rfl, recoveryShown_result s (by decide), recoveryShown_code s (checkCode_lt _), recoveryShown_eq_withRegsOf s _ _⟩
  case stored =>
    rw [exec_fwRecoveryLoad, whenHost_true htakes hlink]
    refine ⟨_, rfl, ?_⟩
    cases hslot : s.recoveryStored.badSlot with
    | none =>
      rw [recoveryLoad_goesOn hidle hphase hgood hslot, startupResumes_get _ (by decide) (by decide), recoveryStored_result,
        startupResumes_nv, recoveryStored_slots, startupResumes_badSlot, hslot]
      exact ⟨rfl, rfl, fun _ => ⟨rfl, startupResumes_faultHold _⟩, nofun⟩
    | some bad =>
      rw [recoveryLoad_waits hidle hphase hgood hslot, enterRecovery_get _ _ _ (by decide) (by decide), recoveryStored_result,
        enterRecovery_nv, recoveryStored_slots, enterRecovery_badSlot, hslot]
      refine ⟨rfl, rfl, nofun, fun role why h => ?_⟩
      cases h
      exact ⟨rfl, enterRecovery_role _ role why, enterRecovery_reason _ role why⟩
  case expires =>
    rw [exec_watchdog, whenLive_true hlive, watchdog_due hstate hreach]
    refine ⟨u.watchdogStopped s core, ?_⟩
    intro again
    have hagain : again = u.expiredLately core := by
      simp only [again, State.expiredLately]
      cases (u.core core).expired <;> rfl
    simp only [hagain]
    exact ⟨trivial, watchdogStopped_coreState u s core, watchdogStopped_expired u s core, watchdogStopped_eq_withCoresOf⟩
  case stops =>
    rw [exec_watchdog, whenLive_true hlive, watchdog_due hstate (reach_now s _ hdue), expiredLately_false hlong,
      if_neg Bool.false_ne_true, if_neg (by omega)]
    refine ⟨_, rfl, ?_, watchdogStopped_expired s s core⟩
    rw [watchdogStopped_coreState, expiredLately_false hlong, if_neg Bool.false_ne_true]
  case fails =>
    rw [exec_watchdog, whenLive_true hlive, watchdog_due hstate (reach_now s _ hdue), if_pos (expiredLately_true hlast hsoon),
      if_neg (by omega)]
    refine ⟨_, rfl, ?_⟩
    rw [watchdogStopped_coreState, if_pos (expiredLately_true hlast hsoon)]
  case restarted =>
    rw [exec_coreRestarted, whenLive_true hlive, if_pos hstate]
    exact ⟨_, rfl, coldStart_coreState s core.isLt, coldStart_mod s core, coldStart_startedAt s core⟩

end Sys2Proof.Machine
end

section
/-! The life cycle and the owner's key: GO with a token, the burn of the fuses, the consent, and the enrolment of a key (R395-R400). -/

namespace Sys2Proof.Machine

theorem exec_lcConsent (v : Word) (s : State) : exec (.lcConsent v) s = whenHost s R.SEC_LC_CONSENT fun s =>
    if v = 0xC05E0880#32 then { s with sec := { s.sec with consent := true } } else s := rfl

theorem exec_lcGo (target : Fin 8) (s : State) : exec (.lcGo target) s
    = whenHost s R.SEC_LC_CTRL fun s => if s.live then s.lcGo target else s.put F.SEC_LC_CTRL_TARGET target := rfl

theorem exec_lifecycleChange (healthy : Bool) (s : State) :
    exec (.lifecycleChange healthy) s = whenLive s fun s => s.lifecycleChange healthy := rfl

theorem exec_ownerEnrol (v : Word) (s : State) : exec (.ownerEnrol v) s = whenHost s R.SEC_OWNER_CTRL fun s => s.enrol v.toNat := rfl

theorem exec_ownerKeyBurnt (s : State) : exec .ownerKeyBurnt s = whenLive s State.ownerBurnt := rfl

/-! ## The nonce (R397) -/

@[simp] theorem withRegsOf_sec (s t : State) : (s.withRegsOf t).sec = s.sec := rfl

@[simp] theorem withRegsOf_nv (s t : State) : (s.withRegsOf t).nv = s.nv := rfl

@[simp] theorem freeBytes_sec (s : State) (n : Nat) : (s.freeBytes n).2.sec = s.sec := rfl

@[simp] theorem freeBytes_nv (s : State) (n : Nat) : (s.freeBytes n).2.nv = s.nv := rfl

@[simp] theorem freeBytes_get (s : State) (n : Nat) (g : Fld) : (s.freeBytes n).2.get g = s.get g := get_congr rfl g

/-- One word of the nonce, of its bytes. -/
def State.nonceWord (bs : List Byte) (s : State) (i : Nat) : State := s.put (F.SEC_LC_NONCE i) (fieldAt bs (4 * i) 4)

theorem newNonce_eq (s : State) :
    s.newNonce = (List.range 8).foldl (State.nonceWord (s.freeBytes 32).1) (s.freeBytes 32).2 := rfl

/-- A draw of the nonce changes its registers alone, and takes fresh bytes. -/
theorem newNonce_eq_withRegsOf (s : State) : s.newNonce = (s.freeBytes 32).2.withRegsOf s.newNonce := by
  rw [newNonce_eq]
  exact List.foldlRecOn (motive := fun t => t = (s.freeBytes 32).2.withRegsOf t) (List.range 8) _ rfl
    fun t ht i _ => withRegsOf_trans ht (put_eq_withRegsOf t _ _)

theorem newNonce_sec (s : State) : s.newNonce.sec = s.sec := by rw [newNonce_eq_withRegsOf, withRegsOf_sec, freeBytes_sec]

theorem newNonce_nv (s : State) : s.newNonce.nv = s.nv := by rw [newNonce_eq_withRegsOf, withRegsOf_nv, freeBytes_nv]

theorem nonce_ne_lcStatus {i : Nat} (hi : i < 8) : R.SEC_LC_STATUS ≠ R.SEC_LC_NONCE i := by
  show 0x1800234 ≠ 0x1800200 + 0x4 * i
  omega

theorem newNonce_lcStatus (s : State) {g : Fld} (h : g.reg = R.SEC_LC_STATUS) : s.newNonce.get g = s.get g := by
  rw [newNonce_eq, foldl_get_other, freeBytes_get]
  exact fun t i hi => get_put_otherReg t _ g _ (h ▸ nonce_ne_lcStatus (List.mem_range.1 hi))

/-! ## GO (R396-R398) -/

/-- The end of every GO: the consent is used up, the nonce drawn anew. -/
def State.goEnded (s : State) : State := ({ s with sec := { s.sec with consent := false } } : State).newNonce

section
variable (s : State)

theorem goEnded_consent : s.goEnded.sec.consent = false := by rw [State.goEnded, newNonce_sec]

theorem goEnded_burning : s.goEnded.sec.burning = s.sec.burning := by rw [State.goEnded, newNonce_sec]

theorem goEnded_nv : s.goEnded.nv = s.nv := by rw [State.goEnded, newNonce_nv]

theorem goEnded_lcStatus {g : Fld} (h : g.reg = R.SEC_LC_STATUS) : s.goEnded.get g = s.get g :=
  (newNonce_lcStatus _ h).trans (get_congr rfl g)

end

/-- The state after a GO whose token is refused for a reason. -/
def State.tokenRefused (s : State) (why : Nat) : State :=
  ((s.put F.SEC_LC_STATUS_RESULT 2).put F.SEC_LC_STATUS_REASON why).goEnded

section
variable (s : State) (why : Nat)

theorem tokenRefused_result : (s.tokenRefused why).get F.SEC_LC_STATUS_RESULT = 2 := by
  rw [State.tokenRefused, goEnded_lcStatus _ rfl, get_put_other _ _ _ _ (by decide) (by decide), get_put_fits _ (by decide) (by decide)]

theorem tokenRefused_reason : (s.tokenRefused why).get F.SEC_LC_STATUS_REASON = why % 16 := by
  rw [State.tokenRefused, goEnded_lcStatus _ rfl]
  exact get_put_same _ _ _ (by decide)

theorem tokenRefused_burning : (s.tokenRefused why).sec.burning = s.sec.burning := by
  rw [State.tokenRefused, goEnded_burning, State.put_sec, State.put_sec]

theorem tokenRefused_nv : (s.tokenRefused why).nv = s.nv := by rw [State.tokenRefused, goEnded_nv, State.put_nv, State.put_nv]

theorem tokenRefused_consent : (s.tokenRefused why).sec.consent = false := goEnded_consent _

end

/-- The state with the burn of a life-cycle state under way. -/
def State.burningTo (s : State) (target : Nat) : State := { s with sec := { s.sec with burning := some target } }

/-- The state after a GO whose token is accepted: the burn of its target begins. -/
def State.burnStarted (s : State) (target : Nat) : State :=
  ((((s.putB F.SEC_LC_STATUS_BUSY true).put F.SEC_LC_STATUS_RESULT 0).put F.SEC_LC_STATUS_REASON 0).burningTo target).goEnded

section
variable (s : State) (target : Nat)

theorem burningTo_get (g : Fld) : (s.burningTo target).get g = s.get g := get_congr rfl g

theorem burnStarted_lcStatus {g : Fld} (h : g.reg = R.SEC_LC_STATUS) : (s.burnStarted target).get g
    = (((s.putB F.SEC_LC_STATUS_BUSY true).put F.SEC_LC_STATUS_RESULT 0).put F.SEC_LC_STATUS_REASON 0).get g := by
  rw [State.burnStarted, goEnded_lcStatus _ h, burningTo_get]

theorem burnStarted_busy : (s.burnStarted target).on F.SEC_LC_STATUS_BUSY = true := by
  rw [State.on, burnStarted_lcStatus s target rfl, ← State.on, on_put_other _ _ _ _ (by decide) (by decide),
    on_put_other _ _ _ _ (by decide) (by decide), on_putB_same _ _ _ rfl (by decide)]

theorem burnStarted_result : (s.burnStarted target).get F.SEC_LC_STATUS_RESULT = 0 := by
  rw [burnStarted_lcStatus s target rfl, get_put_other _ _ _ _ (by decide) (by decide), get_put_fits _ (by decide) (by decide)]

theorem burnStarted_burning : (s.burnStarted target).sec.burning = some target := goEnded_burning _

theorem burnStarted_nv : (s.burnStarted target).nv = s.nv := by
  rw [State.burnStarted, goEnded_nv]
  simp [State.burningTo]

theorem burnStarted_consent : (s.burnStarted target).sec.consent = false := goEnded_consent _

end

theorem tokenReason_noTransition {s : State} {target : Nat} (h : transition s.nv.lifecycle target = none) (tok : List Byte)
    (marked : Bool) : s.tokenReason target tok marked = 1 := by
  simp only [State.tokenReason, h]

theorem lcGo_busy {s : State} (h : s.on F.SEC_LC_STATUS_BUSY = true ∨ s.on F.SEC_FW_STATUS_BUSY = true) (target : Nat) :
    s.lcGo target = (s.put F.SEC_LC_CTRL_TARGET target).tokenRefused 4 :=
  if_pos (by simpa using h)

/-- A token judged: what was read, its marks, and the state that the read left. -/
def State.tokenJudged (target : Nat) (r : State × List Byte × List Bool) : State :=
  let why := r.1.tokenReason target r.2.1 (r.2.2.contains true)
  if why != 0 then r.1.tokenRefused why else r.1.burnStarted target

section
variable {target : Nat} {r : State × List Byte × List Bool}

theorem tokenJudged_refused (h : r.1.tokenReason target r.2.1 (r.2.2.contains true) ≠ 0) :
    State.tokenJudged target r = r.1.tokenRefused (r.1.tokenReason target r.2.1 (r.2.2.contains true)) :=
  if_pos (by simpa using h)

theorem tokenJudged_accepted (h : r.1.tokenReason target r.2.1 (r.2.2.contains true) = 0) :
    State.tokenJudged target r = r.1.burnStarted target :=
  if_neg (by rw [h]; decide)

theorem tokenJudged_consent : (State.tokenJudged target r).sec.consent = false := by
  by_cases h : r.1.tokenReason target r.2.1 (r.2.2.contains true) = 0
  · rw [tokenJudged_accepted h, burnStarted_consent]
  · rw [tokenJudged_refused h, tokenRefused_consent]

theorem tokenJudged_nv : (State.tokenJudged target r).nv = r.1.nv := by
  by_cases h : r.1.tokenReason target r.2.1 (r.2.2.contains true) = 0
  · rw [tokenJudged_accepted h, burnStarted_nv]
  · rw [tokenJudged_refused h, tokenRefused_nv]

end

theorem rdRange_nv (s : State) (m : MemId) (a n : Nat) : (s.rdRange m a n).1.nv = s.nv :=
  congrArg Still.nv (State.rdRange_still s m a n)

section
variable {s : State} (hidle : s.on F.SEC_LC_STATUS_BUSY = false) (hfw : s.on F.SEC_FW_STATUS_BUSY = false)
include hidle hfw

theorem lcGo_idle (target : Nat) : s.lcGo target = State.tokenJudged target ((s.put F.SEC_LC_CTRL_TARGET target).rdRange .cis
    (s.get64 R.SEC_LC_ADDR_LO) (if s.get64 R.SEC_LC_ADDR_LO % 16 == 0 && s.get64 R.SEC_LC_ADDR_LO + s.get F.SEC_LC_LEN ≤ 2 ^ 32
      && s.get F.SEC_LC_LEN ≤ 64 + 2 * sigLen then s.get F.SEC_LC_LEN else 0)) := by
  have hbusy : ¬(s.on F.SEC_LC_STATUS_BUSY || s.on F.SEC_FW_STATUS_BUSY) = true := by simp [hidle, hfw]
  exact (if_neg hbusy).trans rfl

/-- A token whose address and length are in order is read whole. -/
theorem lcGo_fits (haligned : s.get64 R.SEC_LC_ADDR_LO % 16 = 0) (hend : s.get64 R.SEC_LC_ADDR_LO + s.get F.SEC_LC_LEN ≤ 2 ^ 32)
    (hlen : s.get F.SEC_LC_LEN ≤ 64 + 2 * sigLen) (target : Nat) : s.lcGo target = State.tokenJudged target
      ((s.put F.SEC_LC_CTRL_TARGET target).rdRange .cis (s.get64 R.SEC_LC_ADDR_LO) (s.get F.SEC_LC_LEN)) := by
  rw [lcGo_idle hidle hfw, if_pos (by simp only [haligned, hend, hlen, BEq.rfl, decide_true, Bool.and_self])]

end

/-! ## The burn (R396, R398, R400) -/

/-- The state with another trust part and other fuses. -/
def State.withTrust (s : State) (sec : Security) (nv : NonVolatile) : State := { s with sec := sec, nv := nv }

section
variable (s : State) (sec : Security) (nv : NonVolatile) (g : Fld)

@[simp] theorem withTrust_get : (s.withTrust sec nv).get g = s.get g := get_congr rfl g

@[simp] theorem withTrust_on : (s.withTrust sec nv).on g = s.on g := on_congr rfl g

@[simp] theorem withTrust_sec : (s.withTrust sec nv).sec = sec := rfl

@[simp] theorem withTrust_nv : (s.withTrust sec nv).nv = nv := rfl

end

/-- The state in which the burn of a life-cycle state has ended. -/
def State.burnEnded (s : State) : State :=
  (s.putB F.SEC_LC_STATUS_BUSY false).withTrust { s.sec with burning := none } (s.putB F.SEC_LC_STATUS_BUSY false).nv

/-- The state with the fuses of a life-cycle state burnt: RETIRED erases the seed. -/
def State.fusesBurnt (s : State) (target : Nat) : State :=
  { s with nv := { s.nv with lifecycle := target, seed := if target = 4 then none else s.nv.seed } }

/-- The state in which the fuses hold `target`, burnt from life-cycle state `old`, but for the event. -/
def State.lifecycleBurnt (s : State) (old target : Nat) : State :=
  ((if old = 0 && target = 1 then s.burnEnded.personalise else s.burnEnded).fusesBurnt target).put F.SEC_LC_STATUS_RESULT 1

theorem lifecycleChange_burns {s : State} {target : Nat} {healthy : Bool} (hburn : s.sec.burning = some target)
    (hhealth : s.nv.lifecycle = 0 ∧ target = 1 → healthy = true) : s.lifecycleChange healthy
      = (s.lifecycleBurnt s.nv.lifecycle target).raise 0x0804 (payload 16 [(0, 1, s.nv.lifecycle), (1, 1, target)]) := by
  have hpass : ¬(s.nv.lifecycle = 0 && target = 1 && !healthy) = true := by
    simp only [Bool.and_eq_true, decide_eq_true_eq]
    rintro ⟨hfirst, hbad⟩
    simp [hhealth hfirst] at hbad
  unfold State.lifecycleChange
  rw [hburn]
  exact (if_neg hpass).trans rfl

theorem lifecycleChange_unhealthy {s : State} (hburn : s.sec.burning = some 1) (hblank : s.nv.lifecycle = 0) :
    s.lifecycleChange false = (s.burnEnded.put F.SEC_LC_STATUS_RESULT 2).put F.SEC_LC_STATUS_REASON 6 := by
  unfold State.lifecycleChange
  rw [hburn]
  exact (if_pos (by simp [hblank])).trans rfl

section
variable (s : State) (g : Fld)

theorem burnEnded_get (h : g.reg ≠ R.SEC_LC_STATUS) : s.burnEnded.get g = s.get g := by
  rw [State.burnEnded, withTrust_get, get_putB_otherReg s false h]

theorem burnEnded_nv : s.burnEnded.nv = s.nv := (withTrust_nv _ _ _).trans (State.putB_nv s _ _)

theorem burnEnded_burning : s.burnEnded.sec.burning = none := congrArg Security.burning (withTrust_sec _ _ _)

@[simp] theorem fusesBurnt_get (target : Nat) : (s.fusesBurnt target).get g = s.get g := get_congr rfl g

@[simp] theorem fusesBurnt_sec (target : Nat) : (s.fusesBurnt target).sec = s.sec := rfl

@[simp] theorem personalise_get : s.personalise.get g = s.get g := get_congr rfl g

@[simp] theorem personalise_sec : s.personalise.sec = s.sec := rfl

variable (old target : Nat)

theorem lifecycleBurnt_result : (s.lifecycleBurnt old target).get F.SEC_LC_STATUS_RESULT = 1 := get_put_fits _ (by decide) (by decide)

theorem lifecycleBurnt_get (h : g.reg ≠ R.SEC_LC_STATUS) : (s.lifecycleBurnt old target).get g = s.get g := by
  rw [State.lifecycleBurnt, get_put_otherReg _ _ _ _ h, fusesBurnt_get]
  split
  · rw [personalise_get, burnEnded_get s g h]
  · exact burnEnded_get s g h

theorem lifecycleBurnt_burning : (s.lifecycleBurnt old target).sec.burning = none := by
  rw [State.lifecycleBurnt, State.put_sec, fusesBurnt_sec]
  split
  · rw [personalise_sec, burnEnded_burning]
  · exact burnEnded_burning s

theorem lifecycleBurnt_lifecycle : (s.lifecycleBurnt old target).nv.lifecycle = target := rfl

variable {old target}

theorem lifecycleBurnt_retired (h : target = 4) : (s.lifecycleBurnt old target).nv.seed = none := if_pos h

theorem lifecycleBurnt_seed (hold : old ≠ 0) (htarget : target ≠ 4) : (s.lifecycleBurnt old target).nv.seed = s.nv.seed := by
  have hkept : ¬(old = 0 && target = 1) = true := by simp [hold]
  rw [State.lifecycleBurnt, if_neg hkept, State.put_nv]
  exact (if_neg htarget).trans (congrArg NonVolatile.seed (burnEnded_nv s))

end

/-! ## The owner's key (R399) -/

theorem enrol_starts {s : State} (hlife : s.get F.GLB_STATUS_LIFECYCLE = 1 ∨ s.get F.GLB_STATUS_LIFECYCLE = 2)
    (hnew : s.on F.SEC_OWNER_STATUS_ENROLLED = false) (hidle : s.sec.enrolling = none) (hfw : s.on F.SEC_FW_STATUS_BUSY = false) :
    s.enrol 0x0E200880
      = { s with sec := { s.sec with enrolling := some (shake256 64 (s.regBytes (R.SEC_OWNER_PUB 0) 16)) } } := by
  refine if_pos ?_
  rcases hlife with h | h <;> simp [h, hnew, hidle, hfw]

theorem enrol_refused {s : State} {v : Nat} (h : v ≠ 0x0E200880 ∨ s.on F.SEC_OWNER_STATUS_ENROLLED = true) :
    s.enrol v = s.putB F.SEC_OWNER_STATUS_REFUSED true := by
  refine if_neg ?_
  rcases h with h | h <;> simp [h]

/-- The state with the digest of the owner's key burnt. -/
def State.keyBurnt (s : State) (d : List Byte) : State :=
  (s.putB F.SEC_OWNER_STATUS_ENROLLED true).withTrust { s.sec with enrolling := none } { s.nv with owner := some d }

theorem ownerBurnt_enrolling {s : State} {d : List Byte} (h : s.sec.enrolling = some d) : s.ownerBurnt = s.keyBurnt d := by
  simp only [State.ownerBurnt, h]
  rfl

theorem keyBurnt_enrolled (s : State) (d : List Byte) : (s.keyBurnt d).on F.SEC_OWNER_STATUS_ENROLLED = true := by
  rw [State.keyBurnt, withTrust_on, on_putB_same _ _ _ rfl (by decide)]

theorem keyBurnt_owner (s : State) (d : List Byte) : (s.keyBurnt d).nv.owner = some d := congrArg NonVolatile.owner (withTrust_nv _ _ _)

theorem keyBurnt_enrolling (s : State) (d : List Byte) : (s.keyBurnt d).sec.enrolling = none :=
  congrArg Security.enrolling (withTrust_sec _ _ _)

/-- Settles O50: a GO by its token's judgement, a burn by the health test, an enrolment by its key and by whether one is enrolled. -/
theorem lifecycleMoves : Obligations.LifecycleMoves := by
  unfold Obligations.LifecycleMoves
  intro s target v hlive
  have htakes {off : Nat} (hoff : dbgBlock off = false) : s.takesWrite off = true := live_takes hlive off hoff
  have hgo (hlink : s.pcieUp = true) : exec (.lcGo target) s = .next (s.lcGo target) := by
    rw [exec_lcGo, whenHost_true (htakes (by decide)) hlink, if_pos hlive]
  have henrol (hlink : s.pcieUp = true) (v : Word) : exec (.ownerEnrol v) s = .next (s.enrol v.toNat) := by
    rw [exec_ownerEnrol, whenHost_true (htakes (by decide)) hlink]
  have hburnt (healthy : Bool) : exec (.lifecycleChange healthy) s = .next (s.lifecycleChange healthy) := by
    rw [exec_lifecycleChange, whenLive_true hlive]
  refine ⟨fun hlink => ⟨hgo hlink, henrol hlink v⟩, hburnt, fun hlink => ⟨?consent, fun hv => ?noConsent⟩, fun hlink hbusy => ?busy,
    fun hlink hidle hfw haligned hend hlen => ⟨fun hnone => ?noTransition, ?judged⟩, fun healthy hburn hhealth => ?burnt,
    fun hburn hblank => ?unhealthy, fun hlink hlife hnew hidle hfw => ?enrols, fun hlink h => ?refused, fun d henrolling => ?keyBurnt⟩
  case consent => rw [exec_lcConsent, whenHost_true (htakes (by decide)) hlink, if_pos rfl]
  case noConsent => rw [exec_lcConsent, whenHost_true (htakes (by decide)) hlink, if_neg hv]
  case busy =>
    rw [hgo hlink, lcGo_busy hbusy]
    refine ⟨_, rfl, tokenRefused_result _ 4, tokenRefused_reason _ 4, ?_, tokenRefused_consent _ 4, ?_⟩
    · rw [tokenRefused_burning, State.put_sec]
    · rw [tokenRefused_nv, State.put_nv]
  case noTransition =>
    refine tokenReason_noTransition ?_ _ _
    rw [rdRange_nv, State.put_nv, hnone]
  case judged =>
    rw [hgo hlink, lcGo_fits hidle hfw haligned hend hlen]
    refine ⟨_, rfl, tokenJudged_consent, ?_, fun hwhy => ?_, fun hwhy => ?_⟩
    · rw [tokenJudged_nv, rdRange_nv, State.put_nv]
    · rw [tokenJudged_refused hwhy]
      exact ⟨tokenRefused_result _ _, tokenRefused_reason _ _, tokenRefused_burning _ _⟩
    · rw [tokenJudged_accepted hwhy]
      exact ⟨burnStarted_busy _ _, burnStarted_result _ _, burnStarted_burning _ _⟩
  case burnt =>
    rw [hburnt, lifecycleChange_burns hburn hhealth]
    exact ⟨_, rfl, lifecycleBurnt_lifecycle s _ _, lifecycleBurnt_retired s, lifecycleBurnt_seed s, lifecycleBurnt_burning s _ _,
      lifecycleBurnt_result s _ _, lifecycleBurnt_get s _ _ _ (by decide)⟩
  case unhealthy =>
    rw [hburnt, lifecycleChange_unhealthy hburn hblank]
    refine ⟨_, rfl, ?_, ?_, ?_, get_put_fits _ (by decide) (by decide)⟩
    · rw [State.put_nv, State.put_nv, burnEnded_nv]
    · rw [State.put_sec, State.put_sec, burnEnded_burning]
    · rw [get_put_other _ _ _ _ (by decide) (by decide), get_put_fits _ (by decide) (by decide)]
  case enrols => rw [henrol hlink]; exact congrArg _ (enrol_starts hlife hnew hidle hfw)
  case refused =>
    rw [henrol hlink, enrol_refused]
    exact h.imp_left fun hv hnat => hv (BitVec.eq_of_toNat_eq hnat)
  case keyBurnt =>
    rw [exec_ownerKeyBurnt, whenLive_true hlive, ownerBurnt_enrolling henrolling]
    exact ⟨_, rfl, keyBurnt_owner s d, keyBurnt_enrolled s d, keyBurnt_enrolling s d⟩

end Sys2Proof.Machine
end

section
/-! Self-test: a full BIST asked for, refused, run and ended by its reset, and the steps of the in-service test (R395, R424, R425,
R427-R429). -/

namespace Sys2Proof.Machine

theorem exec_fullBistRequest (key : Word) (mv : Nat) (s : State) : exec (.fullBistRequest key mv) s
    = whenHost s R.PWR_BIST_CTRL fun s => if key = 0xB1570880#32 && s.phase != .safe then s.requestBist mv else s := rfl

theorem exec_fullBistEnd (failed : List (Nat × Nat)) (mv : Nat) (s : State) :
    exec (.fullBistEnd failed mv) s = .next (s.endBist failed mv) := rfl

theorem exec_istStep (unit : IstUnit) (fault : Bool) (mv : Nat) (s : State) :
    exec (.istStep unit fault mv) s = whenLive s fun s => s.istStep unit fault mv := rfl

theorem exec_istSliceAbort (b : Fin 19) (s : State) : exec (.istSliceAbort b) s = whenLive s fun s => s.sliceAbort b := rfl

/-! ## A full BIST asked for (R395, R425, R427) -/

section
variable {s : State} (htakes : s.takesWrite R.PWR_BIST_CTRL = true) (hlink : s.pcieUp = true)
include htakes hlink

theorem exec_fullBistRequest_key (hsafe : s.phase ≠ .safe) (mv : Nat) :
    exec (.fullBistRequest 0xB1570880#32 mv) s = .next (s.requestBist mv) := by
  rw [exec_fullBistRequest, whenHost_true htakes hlink, if_pos (by simpa using hsafe)]

theorem exec_fullBistRequest_wrongKey {key : Word} (hkey : key ≠ 0xB1570880#32) (mv : Nat) :
    exec (.fullBistRequest key mv) s = .next s := by
  rw [exec_fullBistRequest, whenHost_true htakes hlink, if_neg (by simp [hkey])]

end

section
variable {s : State} {mv : Nat} (hphase : s.phase ≠ .bist)
include hphase

theorem requestBist_refusedLc (h : s.get F.GLB_STATUS_LIFECYCLE = 2 ∨ s.get F.GLB_STATUS_LIFECYCLE = 4) :
    s.requestBist mv = s.putB F.PWR_BIST_STATUS_REFUSED_LC true := by
  simp [State.requestBist, hphase, h]

variable (hfield : s.get F.GLB_STATUS_LIFECYCLE ≠ 2) (hretired : s.get F.GLB_STATUS_LIFECYCLE ≠ 4)
include hfield hretired

theorem requestBist_outOfRange {q v : Nat} (h : s.outOfRange mv = some (q, v)) :
    s.requestBist mv = (s.putB F.PWR_BIST_STATUS_REFUSED_RANGE true).rangeEvent q v := by
  simp [State.requestBist, hphase, hfield, hretired, h]

theorem requestBist_starts (h : s.outOfRange mv = none) : s.requestBist mv = s.startBist := by
  simp [State.requestBist, hphase, hfield, hretired, h]

end

/-- A full BIST that starts shows itself RUNNING and FULL, in a phase of its own. -/
theorem startBist_shown (s : State) : ∃ r : State,
    s.startBist = ((r.putB F.PWR_BIST_STATUS_RUNNING true).putB F.PWR_BIST_STATUS_FULL true).inPhase .bist := ⟨_, rfl⟩

theorem startBist_running (s : State) : s.startBist.phase = .bist ∧ s.startBist.on F.PWR_BIST_STATUS_RUNNING = true
    ∧ s.startBist.on F.PWR_BIST_STATUS_FULL = true := by
  obtain ⟨r, hr⟩ := startBist_shown s
  rw [hr, inPhase_on, inPhase_on, on_putB_other _ _ _ _ (by decide) (by decide), on_putB_same _ _ _ rfl (by decide),
    on_putB_same _ _ _ rfl (by decide)]
  exact ⟨rfl, rfl, rfl⟩

/-! ## Its end (R424, R427) -/

theorem sget_filter_kept {α : Type} (d : α) {p : Nat × α → Bool} {k : Nat} (hp : ∀ v, p (k, v) = true) (m : SMap α) :
    sget d (m.filter p) k = sget d m k := by
  induction m with
  | nil => rfl
  | cons e m ih =>
    obtain ⟨j, v⟩ := e
    by_cases hj : j = k
    · subst hj
      simp [hp, sget]
    · by_cases hkeep : p (j, v) = true <;> simp [hkeep, sget, hj, ih]

theorem keptRegs_kept (s : State) (d : Word) {off : Nat} (h : survivesReset off = true) : sget d s.keptRegs off = sget d s.regs off :=
  sget_filter_kept d (fun _ => h) s.regs

theorem cutStore_regs (s : State) (powerLost : Bool) : (s.cutStore powerLost).regs = s.regs := by
  unfold State.cutStore
  split
  · rfl
  · cases powerLost <;> rfl

/-- A reset changes of PWR_BIST_STATUS its RUNNING alone. -/
theorem resetWith_bistStatus (s : State) (cause : Nat) (phase : Phase) {g : Fld} (hreg : g.reg = R.PWR_BIST_STATUS) (hg : g.lo + g.w ≤ 5) :
    (s.resetWith cause phase).get g = s.get g := by
  obtain ⟨r, hregs, heq⟩ := resetWith_regs s cause phase
  have hcause : g.reg ≠ R.PWR_RESET_CAUSE := by rw [hreg]; decide
  rw [heq, State.withCause, get_put_otherReg _ _ _ _ hcause, get_put_otherReg _ _ _ _ hcause, get_put_otherReg _ _ _ _ hcause,
    get_putB_other _ _ _ _ (by omega) (.inr (.inl hg))]
  simp only [State.get, State.word, hregs, keptRegs_kept _ _ (show survivesReset g.reg = true by rw [hreg]; decide), cutStore_regs]

theorem resetWith_notRunning (s : State) (cause : Nat) (phase : Phase) :
    (s.resetWith cause phase).on F.PWR_BIST_STATUS_RUNNING = false := by
  obtain ⟨r, -, heq⟩ := resetWith_regs s cause phase
  rw [heq, State.withCause, on_put_other _ _ _ _ (by decide) (by decide), on_put_other _ _ _ _ (by decide) (by decide),
    on_put_other _ _ _ _ (by decide) (by decide), on_putB_same _ _ _ rfl (by decide)]

theorem resetWith_cause {s : State} (hsafe : s.phase ≠ .safe) {cause : Nat} (hc : cause < 16) (phase : Phase) :
    (s.resetWith cause phase).get F.PWR_RESET_CAUSE_CAUSE = cause := by
  obtain ⟨r, -, heq⟩ := resetWith_regs s cause phase
  rw [heq, if_neg (by simpa [cutStore_phase] using hsafe), withCause_cause r hc]

theorem bistLog_phase (s : State) (kind unit : Nat) (absorbed : Bool) : (s.bistLog kind unit absorbed).phase = s.phase := by
  unfold State.bistLog
  dsimp only
  split
  · rw [State.putB_phase]
  · rw [State.put_phase, State.putB_phase, State.putB_phase, State.put_phase, State.put_phase]

/-- The state with every failure of a full BIST in its log. -/
def State.failuresLogged (s : State) (failed : List (Nat × Nat)) : State :=
  failed.foldl (fun t (k, u) => State.bistLog t k u (absorbable k u)) s

theorem failuresLogged_phase (s : State) (failed : List (Nat × Nat)) : (s.failuresLogged failed).phase = s.phase :=
  List.foldlRecOn (motive := fun t => t.phase = s.phase) failed _ rfl fun t ht x _ => (bistLog_phase t x.1 x.2 _).trans ht

/-- The result of a full BIST: passed, passed with every failure absorbed, failed. -/
def bistResult (failed : List (Nat × Nat)) : Nat :=
  if failed = [] then 1 else if failed.all (fun x => absorbable x.1 x.2) = true then 2 else 3

theorem bistResult_lt (failed : List (Nat × Nat)) : bistResult failed < 4 := by
  unfold bistResult
  split
  · decide
  · split <;> decide

theorem endBist_notRunning {s : State} (h : s.phase ≠ .bist) (failed : List (Nat × Nat)) (mv : Nat) : s.endBist failed mv = s :=
  if_pos (by simp [h])

theorem endBist_inRange {s : State} (hphase : s.phase = .bist) (hfrozen : s.frozen = false) {mv : Nat}
    (hrange : s.outOfRange mv = none) (hnot : s.on F.PWR_BIST_STATUS_REFUSED_RANGE = false) (failed : List (Nat × Nat)) :
    s.endBist failed mv
      = ((s.failuresLogged failed).put F.PWR_BIST_STATUS_RESULT (bistResult failed)).resetWith 6 .startup := by
  have hruns : ¬(s.phase != .bist || s.frozen) = true := by simp [hphase, hfrozen]
  refine (if_neg hruns).trans ?_
  simp only [hrange, hnot, Bool.false_eq_true, if_false, bistResult, List.isEmpty_iff]
  rfl

/-! ## The in-service test (R428, R429) -/

section
variable {s : State} {unit : IstUnit} {mv : Nat}

theorem istStep_disabled (h : s.on F.PWR_IST_CTRL_EN = false) (fault : Bool) : s.istStep unit fault mv = s := by
  simp [State.istStep, h]

theorem istReady_untended (h : s.tended 7 = false) : s.istReady unit = false := by
  simp [State.istReady, h]

section
variable (hen : s.on F.PWR_IST_CTRL_EN = true) (hrange : s.outOfRange mv = none)
include hen hrange

theorem istStep_takes (hnone : s.istTest unit = none) (hready : s.istReady unit = true) (fault : Bool) :
    s.istStep unit fault mv = s.istTake unit := by
  simp [State.istStep, hen, hrange, hnone, hready]

theorem istStep_notReady (hnone : s.istTest unit = none) (hready : s.istReady unit = false) (fault : Bool) :
    s.istStep unit fault mv = s := by
  simp [State.istStep, hen, hrange, hnone, hready]

end

end

/-- The state with the aborts of a slice counted as `v`. -/
def State.abortsSet (s : State) (b : Nat) (v : Nat × Nat) : State :=
  { s with power := { s.power with aborts := sset (0, 0) s.power.aborts b v } }

section
variable (s : State) (b : Nat) (v : Nat × Nat)

theorem abortsSet_aborts : sget (0, 0) (s.abortsSet b v).power.aborts b = v := sget_sset_same _ _ _ _

theorem abortsSet_istTest (unit : IstUnit) : (s.abortsSet b v).istTest unit = s.istTest unit := rfl

theorem putB_istTest (f : Fld) (x : Bool) (unit : IstUnit) : (s.putB f x).istTest unit = s.istTest unit := rfl

end

/-- What a test that found nothing leaves before its unit returns: a bank's mirror takes its place, a slice's aborts are forgotten. -/
def State.istPassed (s : State) : IstUnit → State
  | .bank b => s.bankSwap b
  | .slice b => s.abortsSet b (0, 0)
  | _ => s

/-- A test that is over: its unit fails, or returns and counts as tested. -/
theorem istStep_ends {s u : State} {unit : IstUnit} {mv : Nat} {t : IstRun} (hen : s.on F.PWR_IST_CTRL_EN = true)
    (hrange : s.outOfRange mv = none) (htest : s.istTest unit = some t) (hunit : t.unit = unit) (hover : s.istOver unit = true)
    (hreach : s.reach (t.since + istCycles unit) = some u) (fault : Bool) :
    s.istStep unit fault mv = if fault = true then u.istFail unit else ((u.istPassed unit).istReturn unit).istCover unit := by
  simp only [State.istStep, hen, hrange, htest, hunit, hover, hreach, Bool.not_true, Bool.false_eq_true, if_false, bne_self_eq_false,
    Bool.or_self]
  cases unit <;> rfl

theorem istBit_lt (unit : IstUnit) : istBit unit < 32 := by
  cases unit <;> simp [istBit]

theorem istEnd_istTest (s : State) (unit : IstUnit) : (s.istEnd unit).istTest unit = none := by
  rw [State.istEnd, putB_istTest]
  exact List.find?_eq_none.2 fun t ht => by simpa using (List.mem_filter.1 ht).2

theorem istEnd_shown (s : State) (unit : IstUnit) : (s.istEnd unit).on ⟨R.PWR_IST_STATUS, istBit unit, 1⟩ = false :=
  on_putB_same _ _ _ rfl (istBit_lt unit)

theorem istReturn_istTest (s : State) (unit : IstUnit) : (s.istReturn unit).istTest unit = none := istEnd_istTest _ unit

theorem istReturn_shown (s : State) (unit : IstUnit) : (s.istReturn unit).on ⟨R.PWR_IST_STATUS, istBit unit, 1⟩ = false :=
  istEnd_shown _ unit

/-! ## A slice that gives way (R429) -/

section
variable {s : State} {b : Fin 19} {t : IstRun} (htest : s.istTest (.slice b) = some t) (hunit : t.unit = .slice b)
include htest hunit

theorem sliceAbort_counts (hfew : (sget (0, 0) s.power.aborts b).1 < 999) : s.sliceAbort b
    = (s.istReturn (.slice b)).abortsSet b ((sget (0, 0) s.power.aborts b).1 + 1, s.clk.cycle) := by
  have hmore : ¬1000 ≤ (sget (0, 0) s.power.aborts b).1 + 1 := by omega
  simp only [State.sliceAbort, htest, hunit, hmore, bne_self_eq_false, Bool.false_eq_true, if_false]
  rfl

theorem sliceAbort_starved (hmany : 999 ≤ (sget (0, 0) s.power.aborts b).1) : s.sliceAbort b
    = (((s.istReturn (.slice b)).abortsSet b (0, 0)).putB F.PWR_IST_STATUS_STARVED true).istCover (.slice b) := by
  have hmore : 1000 ≤ (sget (0, 0) s.power.aborts b).1 + 1 := by omega
  simp only [State.sliceAbort, htest, hunit, hmore, bne_self_eq_false, Bool.false_eq_true, if_false, if_true]
  rfl

end

/-- Settles O55: a request by its key, the life cycle and the range, an end by its phase, a step by the test that is under way, an
abort by how many came before it. -/
theorem selfTestsRun : Obligations.SelfTestsRun := by
  unfold Obligations.SelfTestsRun
  intro s key mv failed unit b
  refine ⟨fun htakes hlink hsafe => exec_fullBistRequest_key htakes hlink hsafe mv, exec_fullBistEnd failed mv s,
    fun hlive fault => ⟨by rw [exec_istStep, whenLive_true hlive], by rw [exec_istSliceAbort, whenLive_true hlive]⟩,
    fun hlive hlink => ?request, fun hphase hfrozen hrange hnot => ?ended, fun hphase => ?notRunning, fun hlive hen hrange => ?step,
    fun hlive hen fault => ?disabled, fun u => ⟨istReturn_istTest u unit, istReturn_shown u unit⟩,
    fun t hlive htest hunit hfew => ?counted, fun t hlive htest hunit hmany => ?starved⟩
  case request =>
    obtain ⟨hready, -⟩ := live_iff.1 hlive
    have hbist : s.phase ≠ .bist := by simp [hready]
    have htakes : s.takesWrite R.PWR_BIST_CTRL = true := live_takes hlive _ (by decide)
    have hkey := exec_fullBistRequest_key htakes hlink (by simp [hready]) mv
    refine ⟨fun hwrong => exec_fullBistRequest_wrongKey htakes hlink hwrong mv,
      fun hlife => by rw [hkey, requestBist_refusedLc hbist hlife], fun hfield hretired => ⟨fun hrange => ?_,
        fun q v hrange => by rw [hkey, requestBist_outOfRange hbist hfield hretired hrange]⟩⟩
    rw [hkey, requestBist_starts hbist hfield hretired hrange]
    exact ⟨_, rfl, startBist_running s⟩
  case ended =>
    rw [exec_fullBistEnd, endBist_inRange hphase hfrozen hrange hnot]
    refine ⟨_, rfl, resetWith_justReset _ 6 (.inr rfl), resetWith_cause ?_ (by decide) _, resetWith_notRunning _ 6 _, ?_⟩
    · rw [State.put_phase, failuresLogged_phase, hphase]
      decide
    · rw [resetWith_bistStatus _ 6 _ rfl (by decide), get_put_fits _ (by decide) (bistResult_lt failed), bistResult]
  case notRunning => rw [exec_fullBistEnd, endBist_notRunning hphase]
  case step =>
    simp only [exec_istStep, whenLive_true hlive]
    refine ⟨fun hnone hready fault => by rw [istStep_takes hen hrange hnone hready],
      fun hnone hready fault => by rw [istStep_notReady hen hrange hnone hready], fun t u htest hunit hover hreach => ?_, istReady_untended⟩
    simp only [istStep_ends hen hrange htest hunit hover hreach, if_true, Bool.false_eq_true, if_false, true_and]
    refine ⟨fun hother => ?_, fun k hbank => by rw [hbank]; rfl, fun j hslice => by rw [hslice]; rfl⟩
    cases unit with
    | bank k => exact absurd rfl (hother k).1
    | slice j => exact absurd rfl ((hother 0).2 j)
    | _ => rfl
  case disabled => rw [exec_istStep, whenLive_true hlive, istStep_disabled hen]
  case counted =>
    rw [exec_istSliceAbort, whenLive_true hlive, sliceAbort_counts htest hunit hfew]
    exact ⟨_, rfl, by rw [abortsSet_istTest, istReturn_istTest], abortsSet_aborts _ _ _⟩
  case starved =>
    rw [exec_istSliceAbort, whenLive_true hlive, sliceAbort_starved htest hunit hmany]
    exact ⟨_, rfl, on_putB_same _ _ _ rfl (by decide), by rw [putB_istTest, abortsSet_istTest, istReturn_istTest],
      by rw [State.putB_power, abortsSet_aborts]⟩

end Sys2Proof.Machine
end


section
/-! The queue of commands and service: what a step does with the queue, when an idle block ticks how, what the phases keep from acting,
and that every command is answered (R416, R417, R432, R439, R440; log 1, log 9). -/

namespace Sys2Proof.Machine

/-! ## The queue of commands (log 9) -/

/-- Settles O1: a step with a command waiting takes it from the front, by the definition of a step. -/
theorem stepRunsFront : Obligations.StepRunsFront := fun _ _ _ => rfl

/-- The state one tick on, which a freeze does not keep from counting: the timebase and the part's own running time (R440). -/
def State.countedTick (s : State) : State := { s with clk := { s.clk with real := s.clk.real + 1, time := s.clk.time + 1 } }

theorem step_nothingWaiting {s : State} (h : s.pending = []) : step s = .next s.idle := by simp only [step, h]

theorem idle_frozen {s : State} (h : s.frozen = true) : s.idle = s.countedTick.tickPort := if_pos h

theorem tickPort_noReadout {s : State} (h : s.dbg.readout = none) : s.tickPort = s := by simp only [State.tickPort, h]

theorem idle_safe {s : State} (hfrozen : s.frozen = false) (hphase : s.phase = .safe) : s.idle = s.tickReal := by
  simp [State.idle, hfrozen, hphase]

theorem idle_held {s : State} (hfrozen : s.frozen = false) (hphase : s.phase = .hold ∨ s.phase = .recovery ∨ s.phase = .bist) :
    s.idle = s.elapse 1 := by
  rcases hphase with h | h | h <;> simp [State.idle, hfrozen, h]

theorem clocked_iff {s : State} : s.clocked = true ↔ (s.phase = .ready ∨ s.phase = .startup) ∧ s.frozen = false := by
  simp [State.clocked]

theorem idle_clocked {s : State} (h : s.clocked = true) : s.idle = s.tickCore := by
  obtain ⟨hphase, hfrozen⟩ := clocked_iff.1 h
  rcases hphase with h | h <;> simp [State.idle, hfrozen, h]

theorem tickCore_noBoundary {s : State} (harmed : s.clk.armed = false) (htime : s.canElapse 1 = true) :
    s.tickCore = (s.elapse 1).tickLinks := by
  simp [State.tickCore, harmed, htime]

/-- Settles O2, by the idle tick of a frozen part and of each phase of a running one. -/
theorem emptyQueueTicks : Obligations.EmptyQueueTicks := by
  intro s hempty
  simp only [step_nothingWaiting hempty]
  refine ⟨fun hfrozen => ?_, fun hfrozen hsafe => congrArg _ (idle_safe hfrozen hsafe),
    fun hfrozen hphase => congrArg _ (idle_held hfrozen hphase),
    fun hclocked harmed htime => congrArg _ ((idle_clocked hclocked).trans (tickCore_noBoundary harmed htime))⟩
  rw [idle_frozen hfrozen]
  exact ⟨rfl, fun hnone => congrArg _ (tickPort_noReadout hnone)⟩

/-! ## Out of service and in service (R416, R417, R432, R439) -/

/-- Settles O5: each service command is a step of the running part, which changes nothing out of service. -/
theorem nothingRunsOutOfService : Obligations.NothingRunsOutOfService := by
  intro c s hservice hlive
  cases c
  all_goals first
    | exact absurd hservice Bool.false_ne_true
    | rw [exec]; exact whenLive_false hlive _

theorem reply_answers (s : State) (m : List Byte) : ∃ t, s.reply m = .next t := ⟨_, rfl⟩

theorem exec_resetN_answers (low : Nat) (s : State) : ∃ t, exec (.resetN low) s = .next t := by
  rcases Nat.lt_or_ge low 1000 with h | h
  · obtain ⟨t, hexec, -⟩ := exec_resetN_short h s
    exact ⟨t, hexec⟩
  · exact ⟨_, exec_resetN_long h s⟩

/-- Settles O59: every command is a step under its condition, which answers either way; those of the management endpoint answer by
their reply, and RESET_N by the free value that judges a short pulse. -/
theorem everyCommandAnswers : Obligations.EveryCommandAnswers := by
  intro c s
  cases c
  case resetN low => exact exec_resetN_answers low s
  case setEndpointId inst op eid =>
    simp only [exec, execSetEndpointId]
    split
    · exact ⟨_, rfl⟩
    · split <;> exact reply_answers _ _
  case getMctpVersionSupport inst type =>
    simp only [exec, execGetMctpVersionSupport]
    split <;> exact reply_answers _ _
  case unsupportedPldmCmd inst type cmd =>
    simp only [exec, execUnsupportedPldmCmd]
    split
    · exact ⟨_, rfl⟩
    · exact reply_answers _ _
  case getsensorreading inst sensor =>
    simp only [exec, execGetsensorreading]
    split <;> exact reply_answers _ _
  case getstatesensorreadings inst sensor =>
    simp only [exec, execGetstatesensorreadings]
    split <;> exact reply_answers _ _
  case getpdr inst record handle flag count change =>
    simp only [exec, execGetpdr]
    split <;> exact reply_answers _ _
  all_goals exact ⟨_, rfl⟩

section
variable {c : Instr} {s : State} {off : Nat} (f : State → State)

theorem exec_inService (hlive : s.live = true) (h : exec c s = whenLive s f) : exec c s = .next (f s) :=
  h.trans (whenLive_true hlive f)

theorem exec_clocked (hclocked : s.clocked = true) (h : exec c s = whenClocked s f) : exec c s = .next (f s) :=
  h.trans (whenClocked_true hclocked f)

theorem exec_written (htakes : s.takesWrite off = true) (h : exec c s = whenWritable s off f) : exec c s = .next (f s) :=
  h.trans (whenWritable_true htakes f)

theorem exec_hostWritten (htakes : s.takesWrite off = true) (hlink : s.pcieUp = true) (h : exec c s = whenHost s off f) :
    exec c s = .next (f s) :=
  h.trans (whenHost_true htakes hlink f)

end

theorem exec_frameReceive (n : Fin 24) (first : Bool) (chunk : FrameChunk) (fin : Option Bool) (s : State) :
    exec (.frameReceive n first chunk fin) s
      = whenLive s fun s => if s.lit n then (s.countWords n chunk.fec).receive n first chunk.bytes fin else s := rfl

/-- Settles O60: a command whose condition holds completes with the operation that its arm of the dispatcher names. -/
theorem commandsActInService : Obligations.CommandsActInService := by
  unfold Obligations.CommandsActInService
  refine ⟨fun s n q r lane b bs hlive => ?service, fun s q stores hlive => ?fetch, fun s hclocked => ?strokes,
    fun s n mode v q => ?writes⟩
  case service =>
    have acts {c : Instr} (f : State → State) (h : exec c s = whenLive s f := by rfl) : exec c s = .next (f s) :=
      exec_inService f hlive h
    refine ⟨fun first fin fec hlit => ?_, acts State.deal, acts (·.flowLookup r), acts State.flowInsertPort,
      acts (·.insertTimeout r), acts State.relocate, acts State.flowEnd, acts (·.featureProgram r), acts (·.classify r),
      fun mem word => acts (·.refetch r mem word), acts (·.treeIssue lane), fun g => acts (·.groupFail g),
      acts State.spareLoaded, acts (·.verdictStage r), fun seq => acts (·.verdictDeadline n seq), acts (·.reorderRelease n),
      acts (·.holdExpiry n), acts State.egressEnqueue, acts (·.egressSelect n), acts (·.frameEnd n), acts (·.gateChange n),
      acts (·.gateTakeover n), acts (·.gclValidated n), acts (·.originate n bs), acts State.originEnd, acts State.budgetWindow,
      acts (·.validated b), acts (·.copied b), acts (·.retired b), acts (·.takeHead q), acts (·.writeRec q),
      acts (·.hostError q), acts (·.hostError q), acts State.drain, acts State.spareReady, acts State.mirrorDone,
      fun k => ⟨acts (·.messageWrite k), acts (·.replayTimeout k), acts (·.delayReq k), acts (·.settleLink k),
        acts (·.relightStep k), fun power => acts (·.clampTrip k power.toNat)⟩,
      fun p => ⟨acts (·.trainTimeout p), acts (·.autoRevert p)⟩, fun i => acts (·.releaseApr i),
      fun bank => acts (·.retireDone bank), fun k => acts (·.retireChannel k)⟩
    rw [exec_frameReceive, whenLive_true hlive, if_pos hlit]
  case fetch => rw [exec_descriptorFetch, whenLive_true hlive]
  case strokes =>
    have acts {c : Instr} (f : State → State) (h : exec c s = whenClocked s f := by rfl) : exec c s = .next (f s) :=
      exec_clocked f hclocked h
    exact ⟨acts State.strokeBoundary, acts State.openingBoundary, acts State.enterHoldover, acts State.expireHoldover⟩
  case writes =>
    have acts {c : Instr} {off : Nat} (htakes : s.takesWrite off = true) (f : State → State)
        (h : exec c s = whenWritable s off f := by rfl) : exec c s = .next (f s) := exec_written f htakes h
    refine ⟨fun h => acts h (·.flush n), fun h => acts h (·.setMode n mode), fun h => acts h (·.gclCommit n),
      fun h => acts h State.enableFlowRing, fun off h => acts h (·.writeStaging off v.toNat),
      fun h => acts h (·.writePeriod v.toNat),
      fun h hlink => ⟨exec_hostWritten State.enableStrokes h hlink rfl, exec_hostWritten State.disableStrokes h hlink rfl⟩,
      fun h => ⟨acts h (·.enableQueue q), acts h (·.disableQueue q), acts h (·.setStop q), acts h (·.clearStop q),
        acts h (·.resetQueue q)⟩,
      fun h => acts h State.enableEvents, exec_eventLoss_running, fun _ hopen ring => exec_irqHoldoffExpiry_open hopen ring,
      fun vec h => acts h (·.unmask vec),
      fun w part h hlink => exec_hostWritten (·.rewriteWindow w part v.toNat) h hlink rfl,
      fun host off enables hhost hcore => ?_, fun bar host off size => exec_registerRead bar host off size s,
      fun off size => exec_bar4Read off size s⟩
    rw [exec_registerWrite]
    cases host
    · exact congrArg _ (if_pos (hcore rfl))
    · exact congrArg _ (if_pos (hhost rfl))

end Sys2Proof.Machine
end

section
/-! A freeze goes on: what every command and every idle tick leave of a frozen part, and that only a reset ends it (R439-R441, R444,
R449, R450). -/

namespace Sys2Proof.Machine

/-! ## What stays as it was -/

/-- `t` is frozen as `s` is, and holds everything that the clocks drive as `s` does. -/
structure StaysStill (s t : State) : Prop where
  frozen : t.frozen = s.frozen
  core : CoreStill s t

theorem CoreStill.trans {s t u : State} (h : CoreStill s t) (h' : CoreStill t u) : CoreStill s u :=
  ⟨h'.cycle.trans h.cycle, h'.now.trans h.now, h'.strokes.trans h.strokes, h'.queues.trans h.queues, h'.floats.trans h.floats,
    h'.evt.trans h.evt, h'.intake.trans h.intake, h'.flow.trans h.flow, h'.banks.trans h.banks, h'.egress.trans h.egress,
    h'.mems.trans h.mems, h'.capture.trans h.capture, h'.matrix.trans h.matrix, h'.seqs.trans h.seqs, h'.models.trans h.models,
    h'.luapo.trans h.luapo, h'.routes.trans h.routes, h'.sec.trans h.sec, h'.nv.trans h.nv⟩

theorem StaysStill.trans {s t u : State} (h : StaysStill s t) (h' : StaysStill t u) : StaysStill s u :=
  ⟨h'.frozen.trans h.frozen, h.core.trans h'.core⟩

/-- What no core clock drives: the phase, the part's running time and the timebase, the host's side but for the queues, the floats and
the events, pairs and links, power, pins, the debug port and the management endpoint. -/
theorem staysStill_outside (s : State) (phase : Phase) (time real : Nat) (readLatch writeHold : SMap Nat) (config : PciConfig)
    (mem : Mem) (pairs : SMap Pair) (power : Power) (pins : Pins) (dbg : Debug) (mgmt : Mgmt) (dbgClock trigger : Bool)
    (out : List Out) (fresh : Nat) (pending : List Instr) :
    StaysStill s { s with
      phase := phase
      clk := { s.clk with time := time, real := real }
      host := { s.host with readLatch := readLatch, writeHold := writeHold, config := config, mem := mem }
      pairs := pairs
      power := power
      pins := pins
      dbg := dbg
      mgmt := mgmt
      dbgClock := dbgClock
      trigger := trigger
      out := out
      fresh := fresh
      pending := pending } :=
  ⟨rfl, ⟨rfl, rfl, rfl, rfl, rfl, rfl, rfl, rfl, rfl, rfl, rfl, rfl, rfl, rfl, rfl, rfl, rfl, rfl, rfl⟩⟩

theorem StaysStill.refl (s : State) : StaysStill s s := staysStill_outside ..

section
variable {s t : State} (h : StaysStill s t)
include h

theorem StaysStill.withDbg (dbg : Debug) (out : List Out) (fresh : Nat) : StaysStill s { t with dbg := dbg, out := out, fresh := fresh } :=
  h.trans (staysStill_outside t ..)

end

/-- A register other than GLB_STATUS. -/
theorem staysStill_setWord (s : State) {off : Nat} (v : Word) (h : R.GLB_STATUS ≠ off) : StaysStill s (s.setWord off v) :=
  ⟨by rw [State.frozen, State.on, get_setWord_other s F.GLB_STATUS_FROZEN v h]; rfl,
    ⟨rfl, rfl, rfl, rfl, rfl, rfl, rfl, rfl, rfl, rfl, rfl, rfl, rfl, rfl, rfl, rfl, rfl, rfl, rfl⟩⟩

theorem staysStill_put (s : State) {f : Fld} (v : Nat) (h : R.GLB_STATUS ≠ f.reg) : StaysStill s (s.put f v) :=
  staysStill_setWord s _ h

theorem staysStill_ready (s : State) (b : Bool) : StaysStill s (s.putB F.GLB_STATUS_READY b) :=
  ⟨on_putB_other s _ _ b (by decide) (by decide),
    ⟨rfl, rfl, rfl, rfl, rfl, rfl, rfl, rfl, rfl, rfl, rfl, rfl, rfl, rfl, rfl, rfl, rfl, rfl, rfl⟩⟩

theorem StaysStill.put {s t : State} (ht : StaysStill s t) {f : Fld} (v : Nat) (h : R.GLB_STATUS ≠ f.reg) : StaysStill s (t.put f v) :=
  ht.trans (staysStill_put t v h)

theorem StaysStill.putB {s t : State} (ht : StaysStill s t) {f : Fld} (b : Bool) (h : R.GLB_STATUS ≠ f.reg) :
    StaysStill s (t.putB f b) :=
  ht.put _ h

theorem StaysStill.foldl {α : Type} {g : State → α → State} (h : ∀ t a, t.frozen = true → StaysStill t (g t a)) (l : List α) :
    ∀ s : State, s.frozen = true → StaysStill s (l.foldl g s) := by
  induction l with
  | nil => exact fun s _ => .refl s
  | cons a l ih => exact fun s hs => (h s a hs).trans (ih _ ((h s a hs).frozen.trans hs))

/-! ## Readout and the debug port (R443, R444, R448) -/

theorem capStatus_apart : R.GLB_STATUS ≠ R.DBG_CAP_STATUS := by decide

theorem sendRecord_stays (s : State) (space inst addr seed : Nat) (units : List (List Byte × Bool)) :
    StaysStill s (s.sendRecord space inst addr seed units) := by
  unfold State.sendRecord State.bumpSat
  exact ((staysStill_outside s ..).put _ capStatus_apart).withDbg ..

theorem sendReadout_stays (s : State) (space inst addr len k : Nat) : StaysStill s (s.sendReadout space inst addr len k) := by
  unfold State.sendReadout
  exact (sendRecord_stays s _ _ _ _ _).withDbg ..

theorem sendRecords_succ (s : State) (space inst addr len n : Nat) : s.sendRecords space inst addr len (n + 1)
    = (s.sendReadout space inst addr len s.dbg.sent).sendRecords space inst addr len n := by
  conv_lhs => unfold State.sendRecords

theorem sendRecords_stays (space inst addr len n : Nat) : ∀ s : State, StaysStill s (s.sendRecords space inst addr len n) := by
  induction n with
  | zero => exact fun s => .refl s
  | succ n ih =>
    intro s
    rw [sendRecords_succ]
    exact (sendReadout_stays s ..).trans (ih _)

theorem readoutDone_stays (s : State) : StaysStill s s.readoutDone := by
  unfold State.readoutDone
  split
  · exact .refl s
  · rename_i space inst addr len _
    have hsent := sendRecords_stays space inst addr len (ceilDiv len 4096 - s.dbg.sent) s
    exact ((hsent.putB false capStatus_apart).putB true capStatus_apart).withDbg ..

theorem tickPort_stays (s : State) : StaysStill s s.tickPort := by
  unfold State.tickPort
  split
  · exact .refl s
  · dsimp only
    split
    · exact .refl s
    · split
      · exact (sendReadout_stays s ..).trans (readoutDone_stays _)
      · exact sendReadout_stays s ..

theorem capGo_stays (s : State) : StaysStill s s.capGo := by
  have refused (why : Nat) : StaysStill s ((s.putB F.DBG_CAP_STATUS_REFUSED true).put F.DBG_CAP_STATUS_REASON why) :=
    (staysStill_put s _ capStatus_apart).put _ capStatus_apart
  unfold State.capGo
  dsimp only
  repeat' split
  · exact refused 1
  · exact refused 2
  · exact refused 3
  · exact refused 4
  · exact (((staysStill_put s _ capStatus_apart).putB _ capStatus_apart).put _ capStatus_apart).withDbg ..

theorem scanDump_stays (s : State) (chain : Nat) : StaysStill s (s.scanDump chain) := by
  unfold State.scanDump
  split
  · exact .refl s
  · exact (sendRecord_stays s _ _ _ _ _).withDbg ..

theorem loadInstr_stays (s : State) (code : Nat) : StaysStill s (s.loadInstr code) := staysStill_outside ..

theorem scanBoundary_stays (s : State) (levels shift : List Bool) : StaysStill s (s.scanBoundary levels shift) :=
  staysStill_outside ..

/-! ## Register reads (R10, R62, R441) -/

theorem emit_stays (s : State) (o : Out) : StaysStill s (s.emit o) := staysStill_outside ..

theorem abortRead_stays (s : State) : StaysStill s s.abortRead := staysStill_outside ..

theorem readEffect_stays (s : State) (row : RegRow) (off : Nat) : StaysStill s (s.readEffect row off) := by
  have latched : StaysStill s (match row.half with
    | .lo => { s with host := { s.host with readLatch := sset 0 s.host.readLatch (off + 4) (2 ^ 32 + s.regValue (off + 4)) } }
    | _ => s) := by
    split
    · exact staysStill_outside ..
    · exact .refl s
  unfold State.readEffect
  dsimp only
  split
  · exact latched.trans (staysStill_put _ _ (by decide))
  · split
    · exact latched.trans (staysStill_outside ..)
    · exact latched

theorem readReg_stays (s : State) (off : Nat) : StaysStill s (s.readReg off).1 := by
  unfold State.readReg
  split
  · exact .refl s
  · dsimp only
    split
    · exact staysStill_outside ..
    · exact readEffect_stays ..

theorem readBar0_stays (s : State) (off : Nat) : StaysStill s (s.readBar0 off) := by
  unfold State.readBar0
  dsimp only
  split
  · exact (readReg_stays s _).trans (emit_stays ..)
  · exact emit_stays ..
  · exact emit_stays ..
  · exact abortRead_stays s

theorem registerRead_stays {s : State} (h : s.frozen = true) (bar : Bar) (host : Bool) (off size : Nat) :
    StaysStill s (s.registerRead bar host off size) := by
  unfold State.registerRead
  split
  · exact .refl s
  · split
    · exact .refl s
    · split
      · exact readBar0_stays s off
      · rw [readBar2_abort (.inl h)]
        exact abortRead_stays s
      · exact .refl s

/-! ## Register writes (R9, R10, R441) -/

/-- What a frozen part may become: still frozen, as still as before; or just reset. -/
def FreezeAnswer (s t : State) : Prop := StaysStill s t ∨ JustReset t

theorem dbgBlock_below {off : Nat} (h : off < 0x1B00000) : dbgBlock off = false := by
  simp [dbgBlock, Nat.not_le.2 h]

theorem dbgBlock_iff {off : Nat} : dbgBlock off = true ↔ 0x1B00000 ≤ off ∧ off < 0x1C00000 := by
  simp [dbgBlock]

/-- No row of the map but those of the DBG block reaches into it. -/
theorem regRows_dbgBlock : ∀ r ∈ regRows, r.outside 0x1B00000 0x1C00000 = false → 0x1B00000 ≤ r.base := by
  decide +kernel

theorem findRow_dbgBlock {off : Nat} (h : dbgBlock off = true) {row : RegRow} {ix : List Nat}
    (hrow : findRow regRows off = some (row, ix)) : 0x1B00000 ≤ row.base := by
  obtain ⟨hlo, hhi⟩ := dbgBlock_iff.1 h
  obtain ⟨hmem, hbase, hix⟩ := findRow_eq_some hrow
  refine regRows_dbgBlock row hmem (Bool.eq_false_iff.2 fun hout => ?_)
  rw [splitIndex_of_outside hout hbase hlo hhi] at hix
  cases hix

theorem store_stays (s : State) (row : RegRow) {off : Nat} (hoff : 0x1B00000 ≤ off) (isOpen : Nat → FieldRow → Bool) (v : Nat) :
    StaysStill s (s.store row off isOpen v) := by
  have hreg : R.GLB_STATUS ≠ off := Nat.ne_of_lt (Nat.lt_of_lt_of_le (by decide) hoff)
  have hlow : R.GLB_STATUS ≠ off - 4 := Nat.ne_of_lt (Nat.lt_of_lt_of_le (by decide) (Nat.sub_le_sub_right hoff 4))
  have released : StaysStill s { s with host := { s.host with writeHold := sset 0 s.host.writeHold (off - 4) 0 } } :=
    staysStill_outside ..
  unfold State.store
  split
  · exact staysStill_setWord s _ hreg
  · exact staysStill_outside ..
  · dsimp only
    split
    · split
      · exact released.trans (staysStill_setWord _ _ hreg)
      · exact released.trans ((staysStill_setWord _ _ hlow).trans (staysStill_setWord _ _ hreg))
    · exact released.trans (staysStill_setWord _ _ hreg)

/-- A write to a register of the DBG block starts what that block's table says, and nothing else. -/
theorem writeWord_dbgBlock (s : State) {row : RegRow} (i : Nat) {off : Nat} (v : Nat) (hbase : 0x1B00000 ≤ row.base)
    (hoff : 0x1B00000 ≤ off) :
    s.writeWord true row i off v = (s.writeDbg row off v).getD (s.plainWrite true row i off v) := by
  have hne {x : Nat} (hx : x < 0x1B00000) : row.base ≠ x := by omega
  have hstk : s.writeStk true row off v = none := by
    simp (disch := decide) only [State.writeStk, hne, if_false]
  have hhif : s.writeHif row i off v = none := by
    simp (disch := decide) only [State.writeHif, hne, if_false]
  have hwh : s.writeWh true row i off v = none := by
    have hstaging : stagingOff off = false := by
      simp [stagingOff]
      omega
    simp (disch := decide) [State.writeWh, hstaging, hne, wordRefused]
  have hgcl : s.writeGcl true row i off v = none := by
    simp (disch := decide) [State.writeGcl, hne, gclStaging]
  have hmem : s.writeMem row v = none := by
    simp (disch := decide) [State.writeMem, hne]
  have hlk : s.writeLk true row i off v = none := by
    simp (disch := decide) only [State.writeLk, hne, if_false]
  have hsec : s.writeSec row off v = none := by
    simp (disch := decide) only [State.writeSec, hne, if_false]
  have hrv : s.writeRv row off v = none := by
    simp (disch := decide) only [State.writeRv, hne, if_false]
  rw [State.writeWord, if_neg (by simp), hstk, hhif, hwh, hgcl, hmem, hlk, hsec, hrv]
  cases s.writeDbg row off v <;> rfl

/-- No freeze is accepted in a freeze: the trigger's request goes, and nothing else (R437). -/
theorem freeze_again {s : State} (h : s.frozen = true) (source : Nat) : s.freeze source = { s with trigger := false } :=
  if_pos (by simp [State.freezable, h])

theorem freeze_again_stays {s : State} (h : s.frozen = true) (source : Nat) : StaysStill s (s.freeze source) := by
  rw [freeze_again h]
  exact staysStill_outside ..

theorem plainWrite_stays (s : State) (host : Bool) (row : RegRow) (i : Nat) {off : Nat} (hoff : 0x1B00000 ≤ off) (v : Nat) :
    StaysStill s (s.plainWrite host row i off v) := store_stays s row hoff _ v

theorem writeDbg_answers {s : State} (h : s.frozen = true) {row : RegRow} {off v : Nat} (hoff : 0x1B00000 ≤ off) {t : State}
    (ht : s.writeDbg row off v = some t) : FreezeAnswer s t := by
  unfold State.writeDbg at ht
  split at ht
  · cases ht
    have hplain := plainWrite_stays s true row 0 hoff v
    split
    · exact .inl (hplain.trans (freeze_again_stays (hplain.frozen.trans h) 2))
    · exact .inl hplain
  · split at ht
    · cases ht
      split
      · exact .inr (resetWith_justReset s 3 (.inr rfl))
      · exact .inl (.refl s)
    · split at ht
      · cases ht
        split
        · exact .inl (capGo_stays s)
        · exact .inl (.refl s)
      · cases ht

theorem takesWrite_frozen_dbg {s : State} {off : Nat} (hfrozen : s.frozen = true) (h : s.takesWrite off = true) :
    dbgBlock off = true := by
  by_contra hdbg
  rw [takesWrite_frozen hfrozen (by simpa using hdbg)] at h
  cases h

/-- A write by the host or the JTAG port reaches a frozen part's DBG block alone: a register there is stored, or its control starts
a readout, or its key resets the part (R441, R444, R449). -/
theorem writeReg_answers {s : State} (h : s.frozen = true) (off enables v : Nat) : FreezeAnswer s (s.writeReg true off enables v) := by
  unfold State.writeReg
  split
  · exact .inl (.refl s)
  · rename_i hopen
    have htakes : s.takesWrite off = true := by
      by_contra hno
      simp [hno] at hopen
    have hdbg := takesWrite_frozen_dbg h htakes
    obtain ⟨hoff, -⟩ := dbgBlock_iff.1 hdbg
    split
    · exact .inl (.refl s)
    · rename_i row ix hrow
      rw [writeWord_dbgBlock s _ v (findRow_dbgBlock hdbg hrow) hoff]
      cases ht : s.writeDbg row off v with
      | none => exact .inl (plainWrite_stays s true row _ hoff v)
      | some t => exact writeDbg_answers h hoff ht

theorem dbgPort_answers {s : State} (h : s.frozen = true) (v off : Nat) (write : Bool) : FreezeAnswer s (s.dbgPort v off write) := by
  unfold State.dbgPort
  dsimp only
  repeat' split
  · exact .inl (.refl s)
  · exact writeReg_answers h _ _ _
  · exact .inl (.refl s)
  · exact .inl ((readReg_stays s _).trans (emit_stays ..))
  · exact .inl (staysStill_outside ..)

/-! ## Rails, heat and the bypass (R361, R408, R431, R432, R440, R450) -/

theorem pairStatus_apart (p : Nat) : R.GLB_STATUS ≠ R.LK_PAIR_STATUS p :=
  Nat.ne_of_lt (Nat.lt_of_lt_of_le (by decide) (Nat.le_add_right 0x1008140 _))

theorem rail_apart (r : Nat) : R.GLB_STATUS ≠ R.PWR_RAIL r :=
  Nat.ne_of_lt (Nat.lt_of_lt_of_le (by decide) (Nat.le_add_right 0x1a00100 _))

theorem modPair_stays (s : State) (p : Nat) (f : Pair → Pair) : StaysStill s (s.modPair p f) := staysStill_outside ..

/-- In a freeze only the switches of a pair move (R440, R450). -/
theorem toBypass_stays {s : State} (h : s.frozen = true) (p cause reason : Nat) : StaysStill s (s.toBypass p cause reason) := by
  unfold State.toBypass
  dsimp only
  rw [if_pos h]
  exact ((staysStill_put s _ (pairStatus_apart p)).put _ (pairStatus_apart p)).trans (modPair_stays ..)

theorem leavePair_stays {s : State} (h : s.frozen = true) (p cause reason : Nat) : StaysStill s (s.leavePair p cause reason) := by
  unfold State.leavePair
  dsimp only
  repeat' split
  · exact modPair_stays ..
  · exact toBypass_stays h ..
  · exact .refl s

theorem allToBypass_stays {s : State} (h : s.frozen = true) (cause reason : Nat) : StaysStill s (s.allToBypass cause reason) :=
  StaysStill.foldl (fun _ _ ht => leavePair_stays ht ..) _ s h

theorem sample_stays {s : State} (h : s.frozen = true) (tj : Nat) : StaysStill s (s.sample tj) := by
  unfold State.sample
  dsimp only
  split
  · exact staysStill_outside ..
  · rw [if_neg (by simp [h])]
    exact (((staysStill_outside s ..).put _ (by decide)).put _ (by decide)).putB _ (by decide)

/-- The safe state: READY gone, ALERT_N asserted (R432). -/
def State.madeSafe (s : State) : State := { (s.putB F.GLB_STATUS_READY false).putB F.PWR_STATUS_ALERT true with phase := .safe }

theorem thermalTrip_eq (s : State) (tj : Nat) : s.thermalTrip tj
    = (if s.frozen then (s.sample tj).allToBypass 3 1
      else ((s.sample tj).allToBypass 3 1).raise 0x0801 (tripPayload 6 0 0)).madeSafe := rfl

theorem madeSafe_stays (s : State) : StaysStill s s.madeSafe :=
  ((staysStill_ready s false).putB true (by decide)).trans (staysStill_outside ..)

theorem thermalTrip_stays {s : State} (h : s.frozen = true) (tj : Nat) : StaysStill s (s.thermalTrip tj) := by
  have hsample := sample_stays h tj
  rw [thermalTrip_eq, if_pos h]
  exact (hsample.trans (allToBypass_stays (hsample.frozen.trans h) 3 1)).trans (madeSafe_stays _)

theorem noteLow_stays (s : State) (r mv : Nat) : StaysStill s (s.noteLow r mv) := by
  unfold State.noteLow
  dsimp only
  split
  · exact staysStill_outside ..
  · exact ((staysStill_put s _ (rail_apart r)).putB _ (rail_apart r)).trans (staysStill_outside ..)

theorem setDip_stays (s : State) (r : Nat) (d : Option Dip) : StaysStill s (s.setDip r d) := staysStill_outside ..

theorem railRises_stays (s : State) (r mv : Nat) : StaysStill s (s.railRises r mv) := by
  have shown : StaysStill s (if s.phase == .reset then s
      else (s.put (F.PWR_RAIL_MV r) mv).putB (F.PWR_RAIL_BELOW_WARN r) false) := by
    split
    · exact .refl s
    · exact (staysStill_put s _ (rail_apart r)).putB _ (rail_apart r)
  unfold State.railRises
  dsimp only
  split
  · split
    · exact (shown.trans (staysStill_outside ..)).trans (setDip_stays ..)
    · exact shown.trans (staysStill_outside ..)
  · exact shown.trans (staysStill_outside ..)

theorem railReset_answers (s : State) (r mv : Nat) : FreezeAnswer s (s.railReset r mv) := by
  by_cases hphase : s.phase = .reset
  · rw [railReset_held hphase, padsOff_eq]
    exact .inl (staysStill_outside ..)
  · obtain ⟨depth, heq⟩ := railReset_begins hphase r mv
    have hreset : JustReset (s.railCause r depth) :=
      ((resetWith_justReset s 4 (.inl rfl)).put (by decide) r).put (by decide) depth
    rw [heq, padsOff_eq]
    generalize s.railCause r depth = t at hreset
    exact .inr (hreset.withRest hreset.phase _ _ _)

theorem clockLost_answers (s : State) : FreezeAnswer s s.clockLost := by
  by_cases hphase : s.phase = .reset
  · rw [clockLost_held hphase]
    exact .inl (staysStill_outside ..)
  · have hreset := resetWith_justReset s 7 (.inr rfl : Phase.startup = .reset ∨ _)
    rw [clockLost_begins hphase]
    generalize s.resetWith 7 .startup = t at hreset
    exact .inr (hreset.withRest (.inl rfl) _ _ _)

theorem firePending_stays {s : State} (h : s.frozen = true) : StaysStill s s.firePending := by
  rw [firePending_frozen h]
  exact .refl s

theorem configWrite_answers {s : State} (h : s.frozen = true) (field : ConfigField) (v : Nat) :
    FreezeAnswer s (s.configWrite field v) := by
  have pending (c : PciConfig) : StaysStill s ({ s with host := { s.host with config := c } } : State).firePending :=
    (staysStill_outside s ..).trans (firePending_stays h)
  cases field with
  | msixEnable => exact .inl (pending _)
  | msixMask => exact .inl (pending _)
  | initiateFlr =>
    unfold State.configWrite
    dsimp only
    split
    · exact .inr (resetWith_justReset s 2 (.inr rfl))
    · exact .inl (.refl s)
  | _ => exact .inl (staysStill_outside ..)

/-! ## Commands that do not reach a frozen part (R439-R441) -/

section
variable {s : State} (h : s.frozen = true)
include h

theorem live_frozen : s.live = false := by simp [State.live, h]

theorem clocked_frozen : s.clocked = false := by simp [State.clocked, h]

theorem barsOpen_frozen : s.barsOpen = false := by simp [State.barsOpen, h]

theorem clocksRun_frozen : s.clocksRun = false := by simp [State.clocksRun, h]

theorem whenClocked_frozen (f : State → State) : whenClocked s f = .next s := by simp [whenClocked, clocked_frozen h]

theorem whenWritable_frozen {off : Nat} (hoff : off < 0x1B00000) (f : State → State) : whenWritable s off f = .next s := by
  simp [whenWritable, takesWrite_frozen h (dbgBlock_below hoff)]

theorem whenHost_frozen {off : Nat} (hoff : off < 0x1B00000) (f : State → State) : whenHost s off f = .next s := by
  simp [whenHost, takesWrite_frozen h (dbgBlock_below hoff)]

/-- A command that host software's stores come before: they alone are made. -/
theorem whenLive_stores_frozen (stores : List (Nat × List Byte)) (f : State → State) :
    ∃ t, whenLive (s.hostStores stores) f = .next t ∧ FreezeAnswer s t := by
  obtain ⟨m, hm⟩ := State.hostStores_eq stores s
  refine ⟨_, whenLive_false (live_frozen ?_) f, .inl ?_⟩
  · rw [hm]
    exact h
  · rw [hm]
    exact staysStill_outside ..

theorem writeStaging_answers {off : Nat} (v : Nat) : ∃ t, whenWritable s off (·.writeStaging off v) = .next t ∧ FreezeAnswer s t := by
  by_cases hoff : off < 0x1B00000
  · exact ⟨s, whenWritable_frozen h hoff _, .inl (.refl s)⟩
  · have hstaging : stagingOff off = false := by
      simp [stagingOff]
      omega
    have hnone : s.writeStaging off v = s := if_pos (by simp [hstaging])
    refine ⟨s, ?_, .inl (.refl s)⟩
    simp [whenWritable, hnone]

end

/-- The registers of an array that ends below an offset. -/
theorem indexed_below {base stride n b : Nat} (i : Fin n) (h : base + stride * n < b) : base + stride * i < b :=
  Nat.lt_of_le_of_lt (Nat.add_le_add_left (Nat.mul_le_mul_left _ (Nat.le_of_lt i.isLt)) _) h

/-- The endpoint's reply, from a state that nothing but a free value or an ID sets apart. -/
theorem reply_freezeAnswer {s u : State} (h : StaysStill s u) (m : List Byte) : ∃ t, u.reply m = .next t ∧ FreezeAnswer s t := by
  refine ⟨_, rfl, .inl ?_⟩
  split
  · exact h.trans (emit_stays ..)
  · exact h

/-! ## Every command and every tick -/

/-- No command ends a freeze but by a reset. -/
theorem exec_frozen {s : State} (h : s.frozen = true) (c : Instr) : ∃ t, exec c s = .next t ∧ FreezeAnswer s t := by
  have same (hexec : exec c s = .next s) : ∃ t, exec c s = .next t ∧ FreezeAnswer s t := ⟨s, hexec, .inl (.refl s)⟩
  by_cases hservice : serviceOnly c = true
  · exact same (nothingRunsOutOfService c s hservice (live_frozen h))
  have stays {t : State} (ht : StaysStill s t) (hexec : exec c s = .next t) : ∃ t, exec c s = .next t ∧ FreezeAnswer s t :=
    ⟨t, hexec, .inl ht⟩
  have answers {t : State} (ht : FreezeAnswer s t) (hexec : exec c s = .next t) : ∃ t, exec c s = .next t ∧ FreezeAnswer s t :=
    ⟨t, hexec, ht⟩
  cases c with
  | strokeBoundary | openingBoundary | ppsEdge | holdoverEntry | holdoverExpiry =>
    refine same ?_
    rw [exec]
    exact whenClocked_frozen h _
  | stkEnableSet | stkEnableClear | hifLock | ciRemapWord | ciRetireBank | aqRemapPage | mxRetire | fwReplace | fwRecoveryLoad
  | recStart | recData | lcConsent | lcGo | ownerEnrol | attestationGo | rvLock | linkAllowWrite | glbReset | fullBistRequest =>
    refine same ?_
    rw [exec]
    exact whenHost_frozen h (by decide) _
  | faultInjectArm mem value =>
    refine same ?_
    rw [exec_faultInjectArm]
    exact whenHost_frozen h (Nat.lt_of_lt_of_le (injReg_below (memNo mem)).1 (by decide)) _
  | dmaWindowWrite i | linkEnable i | linkDisable i | clampClr i | engage i | release i =>
    refine same ?_
    rw [exec]
    exact whenHost_frozen h (indexed_below i (by decide)) _
  | evtRingEnable | evtHeadWrite | evtHaltClear | flowEndRingEnable | fbankArm | fbankDisarm | fbankCopy | rbankArm | rbankDisarm
  | rbankCopy | ebankArm | ebankDisarm | ebankCopy | stkPeriodWrite =>
    refine same ?_
    rw [exec]
    exact whenWritable_frozen h (by decide) _
  | queueEnable i | queueDisable i | queueStop i | queueResume i | queueReset i | dmaHaltClear i | msixUnmask i | standpipeFlush i
  | linkModeWrite i | gclCommit i | park i | recal i =>
    refine same ?_
    rw [exec]
    exact whenWritable_frozen h (indexed_below i (by decide)) _
  | stagingBankWrite off v => exact writeStaging_answers h v.toNat
  | descriptorFetch q stores | copy q stores | ruleLoad q stores | ensLoad q stores | policerWrite q stores
  | capMapLoad q stores | prime q stores | routeWrite q stores =>
    rw [exec]
    exact whenLive_stores_frozen h stores _
  | sqTailWrite q off size v stores =>
    obtain ⟨m, hm⟩ := State.hostStores_eq stores s
    have hstored : StaysStill s (s.hostStores stores) := by
      rw [hm]
      exact staysStill_outside ..
    have hclosed := barsOpen_frozen (hstored.frozen.trans h)
    refine stays hstored ?_
    rw [exec]
    simp [execSqTailWrite, hclosed]
  | cqHeadWrite q off size v => exact same (by simp [exec, execCqHeadWrite, barsOpen_frozen h])
  | floatSetWrite f off size v => exact same (by simp [exec, execFloatSetWrite, floatWrite, barsOpen_frozen h])
  | floatAddWrite f off size v => exact same (by simp [exec, execFloatAddWrite, floatWrite, barsOpen_frozen h])
  | bar4Write off data => exact same (by simp [exec_bar4Write, barsOpen_frozen h])
  | bar4Read off size =>
    refine stays (abortRead_stays s) ?_
    rw [exec_bar4Read, doBar4Read_frozen h]
  | registerRead bar host off size => exact stays (registerRead_stays h bar host off size) (exec_registerRead ..)
  | registerWrite host off enables v =>
    refine answers ?_ (exec_registerWrite host off enables v s)
    cases host with
    | false => exact .inl (by simp [live_frozen h, StaysStill.refl])
    | true =>
      simp only [if_true]
      split
      · exact writeReg_answers h off _ _
      · exact .inl (.refl s)
  | configSpaceWrite field v =>
    refine answers ?_ (exec_configSpaceWrite field v s)
    split
    · exact configWrite_answers h field v
    · exact .inl (.refl s)
  | eventLoss => exact same (by simp [exec_eventLoss, h])
  | irqHoldoffExpiry ring => exact same (by simp [exec_irqHoldoffExpiry, h])
  | bypassMoveDone p => exact same (by simp [exec_bypassMoveDone, h])
  | bypassSenseTimeout p => exact same (by simp [exec_bypassSenseTimeout, h])
  | prefreezeEnd => exact same (by simp [exec, execPrefreezeEnd, h])
  | brownoutHalving r => exact same (by simp [exec, execBrownoutHalving, clocksRun_frozen h])
  | brownout r => exact same (by simp [exec, execBrownout, clocksRun_frozen h])
  | fullBistEnd failed mv => exact same (by simp [exec_fullBistEnd, State.endBist, h])
  | startup found =>
    refine same ?_
    rw [exec, execStartup]
    split
    · rfl
    · simp [h]
  | railWarnCross r mv =>
    refine stays ?_ rfl
    rw [clocksRun_frozen h]
    split
    · exact .refl s
    · exact noteLow_stays s r mv
  | railAboveWarning r mv =>
    refine stays ?_ rfl
    split
    · exact .refl s
    · exact railRises_stays s r mv
  | railResetLevel r mv =>
    refine answers ?_ (exec_railResetLevel r mv s)
    split
    · exact railReset_answers s r mv
    · exact .inl (.refl s)
  | junctionSample tj => exact stays (sample_stays h tj.toNat) rfl
  | thermalTrip tj =>
    refine stays ?_ rfl
    split
    · exact .refl s
    · exact thermalTrip_stays h tj.toNat
  | clkRefLoss => exact answers (clockLost_answers s) (exec_clkRefLoss s)
  | clkRefRestored =>
    refine stays ?_ (exec_clkRefRestored s)
    split
    · exact .refl s
    · exact staysStill_outside ..
  | peRefclkLoss =>
    refine stays ?_ (exec_peRefclkLoss s)
    exact (((staysStill_put s 0 (by decide)).put 0 (by decide)).put 0 (by decide)).trans (staysStill_outside ..)
  | dbgClkLoss => exact stays (staysStill_outside ..) rfl
  | powerOn =>
    obtain ⟨t, hexec, -, hjust, -⟩ := exec_powerOn_justReset s
    exact answers (.inr hjust) hexec
  | resetN low =>
    rcases Nat.lt_or_ge low 1000 with hlow | hlow
    · obtain ⟨t, hexec, rfl | hjust⟩ := exec_resetN_short hlow s
      · exact stays (staysStill_outside ..) hexec
      · exact answers (.inr hjust) hexec
    · exact answers (.inr (pinReset_justReset s)) (exec_resetN_long hlow s)
  | functionLevelReset =>
    refine answers ?_ (exec_functionLevelReset s)
    split
    · exact .inr (resetWith_justReset s 2 (.inr rfl))
    · exact .inl (.refl s)
  | dbgRelease key =>
    refine answers ?_ (exec_dbgRelease key s)
    split
    · dsimp only
      split
      · exact .inr (resetWith_justReset s 3 (.inr rfl))
      · exact .inl (.refl s)
    · exact .inl (.refl s)
  | freezePin =>
    refine stays ?_ rfl
    split
    · exact freeze_again_stays h 1
    · exact .refl s
  | freeze =>
    refine stays ?_ rfl
    split
    · exact freeze_again_stays h 2
    · exact .refl s
  | freezeEventTrigger =>
    refine stays ?_ rfl
    split
    · exact freeze_again_stays h 3
    · exact .refl s
  | dbgCapGo =>
    refine stays ?_ rfl
    split
    · exact capGo_stays s
    · exact .refl s
  | captureReadoutDone =>
    refine stays ?_ rfl
    split
    · exact readoutDone_stays s
    · exact .refl s
  | extest levels shift =>
    refine stays ?_ rfl
    have hscan := (loadInstr_stays s 0).trans (scanBoundary_stays _ levels shift)
    split
    · exact hscan.trans (staysStill_outside ..)
    · exact hscan
  | samplePreload levels shift => exact stays ((loadInstr_stays s 2).trans (scanBoundary_stays _ levels shift)) rfl
  | idcode => exact stays ((loadInstr_stays s 1).trans (emit_stays ..)) rfl
  | jtagBypass code shift => exact stays ((loadInstr_stays s code).trans (emit_stays ..)) rfl
  | scanDump chain => exact stays ((loadInstr_stays s 0x21).trans (scanDump_stays _ chain)) rfl
  | dbgAccess v off write =>
    have hload := loadInstr_stays s 0x20
    refine answers ?_ rfl
    rcases dbgPort_answers (hload.frozen.trans h) v.toNat off write with hstays | hjust
    · exact .inl (hload.trans hstays)
    · exact .inr hjust
  | setEndpointId inst op eid =>
    simp only [exec, execSetEndpointId]
    split
    · exact ⟨s, rfl, .inl (.refl s)⟩
    · split
      · exact reply_freezeAnswer (staysStill_outside s ..) _
      · exact reply_freezeAnswer (.refl s) _
  | getEndpointId | getMessageTypeSupport | gettid | getpldmversion | getpldmtypes | getpldmcommands | getpdrrepositoryinfo =>
    rw [exec]
    exact reply_freezeAnswer (.refl s) _
  | getMctpVersionSupport inst type =>
    simp only [exec, execGetMctpVersionSupport]
    split <;> exact reply_freezeAnswer (.refl s) _
  | unsupportedPldmCmd inst type cmd =>
    simp only [exec, execUnsupportedPldmCmd]
    split
    · exact ⟨s, rfl, .inl (.refl s)⟩
    · exact reply_freezeAnswer (.refl s) _
  | getsensorreading inst sensor =>
    simp only [exec, execGetsensorreading]
    split
    · exact reply_freezeAnswer (.refl s) _
    · exact reply_freezeAnswer (staysStill_outside s ..) _
  | getstatesensorreadings inst sensor =>
    simp only [exec, execGetstatesensorreadings]
    split
    · exact reply_freezeAnswer (.refl s) _
    · exact reply_freezeAnswer (staysStill_outside s ..) _
  | getpdr inst record handle flag count change =>
    simp only [exec, execGetpdr]
    split <;> exact reply_freezeAnswer (.refl s) _
  | _ => exact absurd rfl hservice

/-- Settles O4: what any command leaves of a frozen part, and an idle tick with it, stays still or is just reset. -/
theorem freezeEndsOnlyByReset : Obligations.FreezeEndsOnlyByReset := by
  intro s h
  have goesOn {u t : State} (hu : StaysStill s u) (ht : FreezeAnswer u t) : (t.frozen = true ∧ CoreStill s t) ∨ JustReset t :=
    ht.imp_left fun hstays => ⟨(hu.trans hstays).frozen.trans h, (hu.trans hstays).core⟩
  cases hpending : s.pending with
  | nil =>
    refine ⟨_, step_nothingWaiting hpending, ?_⟩
    rw [idle_frozen h]
    exact goesOn (staysStill_outside s ..) (.inl (tickPort_stays s.countedTick))
  | cons c rest =>
    have hstep : step s = exec c { s with pending := rest } := by simp only [step, hpending]
    obtain ⟨t, hexec, ht⟩ := exec_frozen (s := { s with pending := rest }) h c
    exact ⟨t, hstep.trans hexec, goesOn (staysStill_outside s ..) ht⟩

end Sys2Proof.Machine
end

section
/-! Freezes: what stopping the clocks leaves and shows, the pre-freeze step, and each source of a freeze (R437-R439, R442; log 27). -/

namespace Sys2Proof.Machine

/-! ## The clocks stop (R439) -/

/-- The bits that show a freeze, and no longer show service, a pre-freeze step or a BIST. -/
def State.freezeBits (s : State) : State :=
  ((((s.putB F.GLB_STATUS_FROZEN true).putB F.DBG_STATUS_FROZEN true).putB F.DBG_STATUS_PRE false).putB
    F.GLB_STATUS_READY false).putB F.PWR_BIST_STATUS_RUNNING false

/-- A freeze's time and stroke. -/
def State.freezeTimed (s : State) : State := (s.put64 R.DBG_FREEZE_TIME_LO s.clk.time).put64 R.DBG_FREEZE_STROKE_LO s.nowReg

/-- The state with its registers kept for the readout, and no pre-freeze step or trigger left. -/
def State.freezeKept (s : State) : State :=
  { s with trigger := false, dbg := { s.dbg with preFrom := none, frozenRegs := s.regs, seq := 0 } }

/-- The state once its clocks have stopped. -/
def State.clocksStopped (s : State) : State := s.freezeBits.freezeTimed.freezeKept

theorem stopClocks_eq (s : State) : s.stopClocks = (if s.phase == .safe then s else s.elapse 8).clocksStopped := by
  unfold State.stopClocks State.clocksStopped State.freezeBits
  rfl

theorem get_put64_apart (s : State) {lo : Nat} (v : Nat) {f : Fld} (h : f.reg ≠ lo) (h' : f.reg ≠ lo + 4) :
    (s.put64 lo v).get f = s.get f := by
  simp only [State.get, word_put64_other s v h h']

theorem freezeKept_get (s : State) (f : Fld) : s.freezeKept.get f = s.get f := rfl

theorem freezeKept_get64 (s : State) (lo : Nat) : s.freezeKept.get64 lo = s.get64 lo := rfl

/-- The registers of a freeze's time and stroke. -/
def freezeStamps : List Nat := [R.DBG_FREEZE_TIME_LO, R.DBG_FREEZE_TIME_HI, R.DBG_FREEZE_STROKE_LO, R.DBG_FREEZE_STROKE_HI]

theorem freezeTimed_get (s : State) {f : Fld} (h : f.reg ∉ freezeStamps) : s.freezeTimed.get f = s.get f := by
  simp only [freezeStamps, List.mem_cons, List.not_mem_nil, or_false, not_or] at h
  obtain ⟨htime, htime', hstroke, hstroke'⟩ := h
  rw [State.freezeTimed, get_put64_apart _ _ hstroke hstroke', get_put64_apart _ _ htime htime']

theorem freezeTimed_time (s : State) : s.freezeTimed.get64 R.DBG_FREEZE_TIME_LO = s.clk.time % 2 ^ 64 := by
  rw [State.freezeTimed, get64_put64_other _ _ (by decide), get64_put64]

theorem freezeTimed_stroke (s : State) : s.freezeTimed.get64 R.DBG_FREEZE_STROKE_LO = s.nowReg % 2 ^ 64 := by
  rw [State.freezeTimed, get64_put64]

theorem freezeBits_clk (s : State) : s.freezeBits.clk = s.clk := by simp only [State.freezeBits, State.putB_clk]

theorem nowReg_congr {s t : State} (h : t.clk = s.clk) : t.nowReg = s.nowReg := by simp only [State.nowReg, h]

theorem freezeTimed_clk (s : State) : s.freezeTimed.clk = s.clk := by
  rw [State.freezeTimed, State.put64_clk, State.put64_clk]

theorem freezeKept_clk (s : State) : s.freezeKept.clk = s.clk := rfl

theorem clocksStopped_clk (s : State) : s.clocksStopped.clk = s.clk := by
  rw [State.clocksStopped, freezeKept_clk, freezeTimed_clk, freezeBits_clk]

theorem clocksStopped_kept (s : State) : s.clocksStopped.dbg.frozenRegs = s.clocksStopped.regs
    ∧ s.clocksStopped.dbg.preFrom = none ∧ s.clocksStopped.trigger = false := by
  rw [State.clocksStopped]
  generalize s.freezeBits.freezeTimed = u
  exact ⟨rfl, rfl, rfl⟩

/-- A field of neither the freeze time nor the freeze stroke. -/
theorem clocksStopped_get (s : State) {f : Fld} (h : f.reg ∉ freezeStamps) : s.clocksStopped.get f = s.freezeBits.get f := by
  rw [State.clocksStopped, freezeKept_get, freezeTimed_get _ h]

theorem clocksStopped_on (s : State) {f : Fld} (h : f.reg ∉ freezeStamps) : s.clocksStopped.on f = s.freezeBits.on f := by
  simp only [State.on, clocksStopped_get s h]

theorem clocksStopped_frozen (s : State) : s.clocksStopped.frozen = true := by
  rw [State.frozen, clocksStopped_on s (by decide), State.freezeBits, on_putB_other _ _ _ _ (by decide) (by decide),
    on_putB_other _ _ _ _ (by decide) (by decide), on_putB_other _ _ _ _ (by decide) (by decide),
    on_putB_other _ _ _ _ (by decide) (by decide), on_putB_same _ _ _ rfl (by decide)]

theorem clocksStopped_shown (s : State) : s.clocksStopped.on F.DBG_STATUS_FROZEN = true := by
  rw [clocksStopped_on s (by decide), State.freezeBits, on_putB_other _ _ _ _ (by decide) (by decide),
    on_putB_other _ _ _ _ (by decide) (by decide), on_putB_other _ _ _ _ (by decide) (by decide),
    on_putB_same _ _ _ rfl (by decide)]

theorem clocksStopped_notReady (s : State) : s.clocksStopped.on F.GLB_STATUS_READY = false := by
  rw [clocksStopped_on s (by decide), State.freezeBits, on_putB_other _ _ _ _ (by decide) (by decide),
    on_putB_same _ _ _ rfl (by decide)]

theorem clocksStopped_source (s : State) : s.clocksStopped.get F.DBG_STATUS_SOURCE = s.get F.DBG_STATUS_SOURCE := by
  rw [clocksStopped_get s (by decide), State.freezeBits, get_putB_other _ _ _ _ (by decide) (by decide),
    get_putB_other _ _ _ _ (by decide) (by decide), get_putB_other _ _ _ _ (by decide) (by decide),
    get_putB_other _ _ _ _ (by decide) (by decide), get_putB_other _ _ _ _ (by decide) (by decide)]

theorem clocksStopped_time (s : State) : s.clocksStopped.get64 R.DBG_FREEZE_TIME_LO = s.clk.time % 2 ^ 64 := by
  rw [State.clocksStopped, freezeKept_get64, freezeTimed_time, freezeBits_clk]

theorem clocksStopped_stroke (s : State) : s.clocksStopped.get64 R.DBG_FREEZE_STROKE_LO = s.nowReg % 2 ^ 64 := by
  rw [State.clocksStopped, freezeKept_get64, freezeTimed_stroke, nowReg_congr (freezeBits_clk s)]

theorem stopClocks_safe {s : State} (h : s.phase = .safe) : s.stopClocks = s.clocksStopped := by
  rw [stopClocks_eq, if_pos (by simp [h])]

theorem stopClocks_running {s : State} (h : s.phase ≠ .safe) : s.stopClocks = (s.elapse 8).clocksStopped := by
  rw [stopClocks_eq, if_neg (by simpa using h)]

theorem stopClocks_stopped (s : State) : s.stopClocks.frozen = true ∧ s.stopClocks.dbg.preFrom = none := by
  rw [stopClocks_eq]
  exact ⟨clocksStopped_frozen _, (clocksStopped_kept _).2.1⟩

theorem elapse_get (s : State) (n : Nat) (f : Fld) : (s.elapse n).get f = s.get f := rfl

theorem elapse_cycle (s : State) (n : Nat) : (s.elapse n).clk.cycle = s.clk.cycle + n := rfl

theorem elapse_nowReg (s : State) (n : Nat) : (s.elapse n).nowReg = s.nowReg := rfl

/-! ## A source acts (R437, R442) -/

theorem freeze_refused {s : State} (h : s.freezable = false) (source : Nat) : s.freeze source = { s with trigger := false } :=
  if_pos (by simp [h])

/-- Without the pre-freeze step the clocks stop 8 core cycles later for the source. -/
theorem freeze_stops {s : State} (h : s.freezable = true) (hpre : s.on F.DBG_CTRL_PREBYPASS = false) (hsafe : s.phase ≠ .safe)
    (source : Nat) : s.freeze source = ((s.put F.DBG_STATUS_SOURCE source).elapse 8).clocksStopped := by
  have hphase : (s.put F.DBG_STATUS_SOURCE source).phase ≠ .safe := by rwa [State.put_phase]
  rw [← stopClocks_running hphase, State.freeze, if_neg (by simp [h])]
  exact if_neg (by simp [hpre])

/-- In the safe state they stop at once. -/
theorem freeze_safe {s : State} (h : s.freezable = true) (hsafe : s.phase = .safe) (source : Nat) :
    s.freeze source = (s.put F.DBG_STATUS_SOURCE source).clocksStopped := by
  have hphase : (s.put F.DBG_STATUS_SOURCE source).phase = .safe := by rwa [State.put_phase]
  rw [← stopClocks_safe hphase, State.freeze, if_neg (by simp [h])]
  exact if_neg (by simp [hsafe])

/-- The pre-freeze step under way since a core cycle. -/
def State.prefreezeFrom (s : State) (c : Nat) : State := { s with trigger := false, dbg := { s.dbg with preFrom := some c } }

theorem prefreezeFrom_on (s : State) (c : Nat) (f : Fld) : (s.prefreezeFrom c).on f = s.on f := rfl

/-- With PREBYPASS the pre-freeze step begins, from now on (R442). -/
theorem freeze_prebypass {s : State} (h : s.freezable = true) (hpre : s.on F.DBG_CTRL_PREBYPASS = true) (hsafe : s.phase ≠ .safe)
    (source : Nat) : ∃ u : State, s.freeze source = (u.putB F.DBG_STATUS_PRE true).prefreezeFrom s.clk.cycle := by
  rw [State.freeze, if_neg (by simp [h])]
  exact ⟨_, if_pos (by simp [hpre, hsafe])⟩

theorem endPrefreeze_ends {s u : State} {c0 : Nat} (hsafe : s.phase ≠ .safe) (hfrom : s.dbg.preFrom = some c0)
    (hreach : s.reach (c0 + 250000) = some u) :
    s.endPrefreeze = ((List.range 40).foldl (fun t n => State.linkDown t n 4) u).stopClocks := by
  simp [State.endPrefreeze, hfrom, hsafe, hreach]

/-! ## The statement -/

theorem exec_freezePin (s : State) : exec .freezePin s = .next (if s.on F.DBG_CTRL_PIN_EN then s.freeze 1 else s) := rfl

theorem exec_freeze (s : State) : exec .freeze s = whenWritable s R.DBG_CTRL fun s => s.freeze 2 := rfl

theorem exec_freezeEventTrigger (s : State) : exec .freezeEventTrigger s = .next (if s.trigger then s.freeze 3 else s) := rfl

theorem exec_prefreezeEnd {s : State} (hfrozen : s.frozen = false) (hphase : s.phase ≠ .reset) :
    exec .prefreezeEnd s = .next s.endPrefreeze := congrArg _ (if_neg (by simp [hfrozen, hphase]))

/-- What a freeze shows once the clocks have stopped for a source (R439). -/
theorem freeze_shows {s : State} (h : s.freezable = true) (hpre : s.on F.DBG_CTRL_PREBYPASS = false) (hsafe : s.phase ≠ .safe)
    {source : Nat} (hsource : source < 8) :
    let t := s.freeze source
    t.frozen = true ∧ t.on F.DBG_STATUS_FROZEN = true ∧ t.get F.DBG_STATUS_SOURCE = source ∧ t.on F.GLB_STATUS_READY = false
      ∧ t.clk.cycle = s.clk.cycle + 8 ∧ t.get64 R.DBG_FREEZE_TIME_LO = t.clk.time % 2 ^ 64
      ∧ t.get64 R.DBG_FREEZE_STROKE_LO = s.nowReg % 2 ^ 64 ∧ t.dbg.frozenRegs = t.regs ∧ t.trigger = false := by
  rw [freeze_stops h hpre hsafe]
  obtain ⟨hregs, -, htrigger⟩ := clocksStopped_kept ((s.put F.DBG_STATUS_SOURCE source).elapse 8)
  refine ⟨clocksStopped_frozen _, clocksStopped_shown _, ?_, clocksStopped_notReady _, ?_, ?_, ?_, hregs, htrigger⟩
  · rw [clocksStopped_source, elapse_get, get_put_fits s (by decide) hsource]
  · rw [clocksStopped_clk, elapse_cycle, State.put_clk]
  · rw [clocksStopped_time, clocksStopped_clk]
  · rw [clocksStopped_stroke, elapse_nowReg, nowReg_congr (State.put_clk s _ _)]

/-- Settles O56: each source is a `State.freeze`, which is refused, begins the pre-freeze step, or stops the clocks. -/
theorem freezesStopTheClocks : Obligations.FreezesStopTheClocks := by
  refine ⟨fun s => ⟨fun hpin => ?_, fun htakes => ?_, fun htrigger => ?_, exec_prefreezeEnd,
    fun k hsafe hfreezable => ?_⟩, fun s hsafe htakes => ?_⟩
  · rw [exec_freezePin, if_pos hpin]
  · rw [exec_freeze, whenWritable_true htakes]
  · rw [exec_freezeEventTrigger, if_pos htrigger]
  · rw [freeze_safe hfreezable hsafe, clocksStopped_clk]
    exact ⟨clocksStopped_frozen _, State.put_clk ..⟩
  · intro via
    have acts {c : Instr} {source : Nat} (hsource : source < 8) (hexec : exec c s = .next (s.freeze source)) : via c source := by
      refine ⟨fun hfreezable hpre => ⟨_, hexec, freeze_shows hfreezable hpre hsafe hsource⟩,
        fun hfreezable hpre => ⟨_, hexec, ?_⟩, fun hno => ?_⟩
      · obtain ⟨u, hu⟩ := freeze_prebypass hfreezable hpre hsafe source
        rw [hu]
        exact ⟨rfl, (prefreezeFrom_on ..).trans (on_putB_same u _ _ rfl (by decide)), rfl⟩
      · rw [hexec, freeze_refused hno]
    refine ⟨fun hpin => acts (by decide) ?_, fun hpin => ?_, acts (by decide) ?_,
      fun htrigger => acts (by decide) ?_, fun htrigger => ?_, fun c0 u hfrozen hphase hfrom hreach => ?_⟩
    · rw [exec_freezePin, if_pos hpin]
    · rw [exec_freezePin, if_neg (by simp [hpin])]
    · rw [exec_freeze, whenWritable_true htakes]
    · rw [exec_freezeEventTrigger, if_pos htrigger]
    · rw [exec_freezeEventTrigger, if_neg (by simp [htrigger])]
    · rw [exec_prefreezeEnd hfrozen hphase, endPrefreeze_ends hsafe hfrom hreach]
      exact ⟨_, rfl, stopClocks_stopped _⟩

end Sys2Proof.Machine
end

section
/-! The capture readout and the JTAG port: what GO starts or refuses, what a readout sends, and what each JTAG instruction shifts out
(R443, R444, R448; log 30, log 40). -/

namespace Sys2Proof.Machine

/-! ## DBG_CAP_GO (R444) -/

theorem exec_dbgCapGo {s : State} (htakes : s.takesWrite R.DBG_CAP_GO = true) (hlink : s.pcieUp = true) :
    exec .dbgCapGo s = .next s.capGo := whenHost_true htakes hlink _

/-- A readout refused for a reason. -/
def State.capRefused (s : State) (why : Nat) : State := (s.putB F.DBG_CAP_STATUS_REFUSED true).put F.DBG_CAP_STATUS_REASON why

/-- The state with another debug part. -/
def State.withDbg (s : State) (dbg : Debug) : State := { s with dbg := dbg }

theorem withDbg_on (s : State) (dbg : Debug) (f : Fld) : (s.withDbg dbg).on f = s.on f := rfl

theorem withDbg_out (s : State) (dbg : Debug) : (s.withDbg dbg).out = s.out := rfl

theorem withDbg_dbg (s : State) (dbg : Debug) : (s.withDbg dbg).dbg = dbg := rfl

/-- A state with other registers and another debug part alone. -/
theorem withDbg_rest {s t : State} (h : t = s.withRegsOf t) (dbg : Debug) :
    t.withDbg dbg = { s with regs := (t.withDbg dbg).regs, dbg := (t.withDbg dbg).dbg } :=
  congrArg (fun x => State.withDbg x dbg) h

/-- A readout of a space begun. -/
def State.capStarted (s : State) (request : Nat × Nat × Nat × Nat) : State :=
  (((s.putB F.DBG_CAP_STATUS_BUSY true).putB F.DBG_CAP_STATUS_REFUSED false).put F.DBG_CAP_STATUS_REASON 0).withDbg
    { s.dbg with readout := some request, sent := 0, sentAt := s.clk.real }

/-- The request that the readout's registers hold. -/
def State.capRequest (s : State) : Nat × Nat × Nat × Nat :=
  (s.get F.DBG_CAP_SPACE_SPACE, s.get F.DBG_CAP_SPACE_INSTANCE, s.get64 R.DBG_CAP_ADDR_LO, s.get F.DBG_CAP_LEN)

/-- That request is aligned and in the range of its space, of which there is that one. -/
def State.capFits (s : State) : Bool :=
  capRangeOk (s.get F.DBG_CAP_SPACE_SPACE) (s.get F.DBG_CAP_SPACE_INSTANCE) (s.get64 R.DBG_CAP_ADDR_LO) (s.get F.DBG_CAP_LEN)

/-- That request's space may be read in this life cycle and with these controls. -/
def State.capAllowed (s : State) : Bool := s.spaceAllowed (s.get F.DBG_CAP_SPACE_SPACE)

theorem capGo_eq (s : State) : s.capGo =
    if !s.frozen then s.capRefused 1
    else if !s.capAllowed then s.capRefused 2
    else if !s.capFits then s.capRefused 3
    else if s.on F.DBG_CAP_STATUS_BUSY then s.capRefused 4
    else s.capStarted s.capRequest := rfl

theorem capRefused_refused (s : State) (why : Nat) : (s.capRefused why).on F.DBG_CAP_STATUS_REFUSED = true := by
  rw [State.capRefused, on_put_other _ _ _ _ (by decide) (by decide), on_putB_same _ _ _ rfl (by decide)]

theorem capRefused_reason (s : State) {why : Nat} (h : why < 8) : (s.capRefused why).get F.DBG_CAP_STATUS_REASON = why :=
  get_put_fits _ (by decide) h

theorem capRefused_dbg (s : State) (why : Nat) : (s.capRefused why).dbg = s.dbg := by
  rw [State.capRefused, State.put_dbg, State.putB_dbg]

theorem capRefused_eq_withRegsOf (s : State) (why : Nat) : s.capRefused why = s.withRegsOf (s.capRefused why) :=
  withRegsOf_trans (putB_eq_withRegsOf ..) (put_eq_withRegsOf ..)

theorem capStarted_busy (s : State) (r : Nat × Nat × Nat × Nat) : (s.capStarted r).on F.DBG_CAP_STATUS_BUSY = true := by
  rw [State.capStarted, withDbg_on, on_put_other _ _ _ _ (by decide) (by decide), on_putB_other _ _ _ _ (by decide) (by decide),
    on_putB_same _ _ _ rfl (by decide)]

theorem capStarted_notRefused (s : State) (r : Nat × Nat × Nat × Nat) :
    (s.capStarted r).on F.DBG_CAP_STATUS_REFUSED = false := by
  rw [State.capStarted, withDbg_on, on_put_other _ _ _ _ (by decide) (by decide), on_putB_same _ _ _ rfl (by decide)]

theorem capStarted_readout (s : State) (r : Nat × Nat × Nat × Nat) : (s.capStarted r).dbg.readout = some r := by
  rw [State.capStarted, withDbg_dbg]

theorem capStarted_rest (s : State) (r : Nat × Nat × Nat × Nat) :
    s.capStarted r = { s with regs := (s.capStarted r).regs, dbg := (s.capStarted r).dbg } :=
  withDbg_rest (withRegsOf_trans (withRegsOf_trans (putB_eq_withRegsOf ..) (putB_eq_withRegsOf ..)) (put_eq_withRegsOf ..)) _

/-! ## Records on the capture port (R443, R444, R446) -/

theorem exec_captureReadoutDone {s : State} (hclock : s.dbgClock = true) (hfrozen : s.frozen = true) :
    exec .captureReadoutDone s = .next s.readoutDone := congrArg _ (if_pos (by simp [hclock, hfrozen]))

theorem exec_captureReadoutDone_running {s : State} (hrun : s.frozen = false) : exec .captureReadoutDone s = .next s :=
  congrArg _ (if_neg (by simp [hrun]))

theorem emit_out (s : State) (o : Out) : (s.emit o).out = o :: s.out := rfl

/-- A record's bytes and its lines of the port have left. -/
def State.recordLeft (s : State) (space inst addr seed : Nat) (units : List (List Byte × Bool)) : State :=
  (s.emit (.capture (capRecord space inst addr s.dbg.seq units))).emit
    (.capturePort (portLines seed (capRecord space inst addr s.dbg.seq units)))

theorem recordLeft_out (s : State) (space inst addr seed : Nat) (units : List (List Byte × Bool)) :
    (s.recordLeft space inst addr seed units).out.length = s.out.length + 2 := rfl

/-- A record sent is its bytes and its lines left, counted. -/
theorem sendRecord_eq (s : State) (space inst addr seed : Nat) (units : List (List Byte × Bool)) :
    ∃ dbg, s.sendRecord space inst addr seed units
        = ((s.recordLeft space inst addr seed units).bumpSat F.DBG_CAP_STATUS_RECORDS).withDbg dbg
      ∧ dbg.instr = s.dbg.instr := ⟨_, rfl, rfl⟩

theorem sendRecord_out (s : State) (space inst addr seed : Nat) (units : List (List Byte × Bool)) :
    (s.sendRecord space inst addr seed units).out.length = s.out.length + 2 := by
  obtain ⟨dbg, heq, -⟩ := sendRecord_eq s space inst addr seed units
  rw [heq, withDbg_out, State.bumpSat_out]
  exact recordLeft_out ..

theorem sendRecord_instr (s : State) (space inst addr seed : Nat) (units : List (List Byte × Bool)) :
    (s.sendRecord space inst addr seed units).dbg.instr = s.dbg.instr := by
  obtain ⟨dbg, heq, hinstr⟩ := sendRecord_eq s space inst addr seed units
  rw [heq]
  exact hinstr

/-- A readout's record is one record sent. -/
theorem sendReadout_eq (s : State) (space inst addr len k : Nat) :
    ∃ seed units dbg, s.sendReadout space inst addr len k
      = (s.sendRecord space inst (addr + 4096 * k) seed units).withDbg dbg := ⟨_, _, _, rfl⟩

theorem sendReadout_out (s : State) (space inst addr len k : Nat) :
    (s.sendReadout space inst addr len k).out.length = s.out.length + 2 := by
  obtain ⟨seed, units, dbg, heq⟩ := sendReadout_eq s space inst addr len k
  rw [heq, withDbg_out, sendRecord_out]

/-- Each record of a readout not sent yet leaves. -/
theorem sendRecords_out (space inst addr len n : Nat) :
    ∀ s : State, (s.sendRecords space inst addr len n).out.length = s.out.length + 2 * n := by
  induction n with
  | zero => exact fun s => rfl
  | succ n ih =>
    intro s
    rw [sendRecords_succ, ih, sendReadout_out]
    omega

/-- The state with another number of free values used. -/
def State.withFresh (s : State) (fresh : Nat) : State := { s with fresh := fresh }

theorem withFresh_on (s : State) (fresh : Nat) (f : Fld) : (s.withFresh fresh).on f = s.on f := rfl

theorem withFresh_out (s : State) (fresh : Nat) : (s.withFresh fresh).out = s.out := rfl

theorem withFresh_dbg (s : State) (fresh : Nat) : (s.withFresh fresh).dbg = s.dbg := rfl

/-- The state with no readout running. -/
def State.noReadout (s : State) (fresh : Nat) : State := { s with dbg := { s.dbg with readout := none }, fresh := fresh }

theorem noReadout_on (s : State) (fresh : Nat) (f : Fld) : (s.noReadout fresh).on f = s.on f := rfl

theorem noReadout_out (s : State) (fresh : Nat) : (s.noReadout fresh).out = s.out := rfl

theorem noReadout_readout (s : State) (fresh : Nat) : (s.noReadout fresh).dbg.readout = none := rfl

/-- The state once the last record of a readout has left. -/
def State.readoutEnded (s : State) (fresh : Nat) : State :=
  ((s.putB F.DBG_CAP_STATUS_BUSY false).putB F.DBG_CAP_STATUS_DONE true).noReadout fresh

theorem readoutEnded_busy (s : State) (fresh : Nat) : (s.readoutEnded fresh).on F.DBG_CAP_STATUS_BUSY = false := by
  rw [State.readoutEnded, noReadout_on, on_putB_other _ _ _ _ (by decide) (by decide), on_putB_same _ _ _ rfl (by decide)]

theorem readoutEnded_done (s : State) (fresh : Nat) : (s.readoutEnded fresh).on F.DBG_CAP_STATUS_DONE = true := by
  rw [State.readoutEnded, noReadout_on, on_putB_same _ _ _ rfl (by decide)]

theorem readoutEnded_readout (s : State) (fresh : Nat) : (s.readoutEnded fresh).dbg.readout = none := noReadout_readout ..

theorem readoutEnded_out (s : State) (fresh : Nat) : (s.readoutEnded fresh).out = s.out := by
  rw [State.readoutEnded, noReadout_out, State.putB_out, State.putB_out]

theorem readoutDone_eq {s : State} {space inst addr len : Nat} (h : s.dbg.readout = some (space, inst, addr, len)) :
    s.readoutDone = (s.sendRecords space inst addr len (ceilDiv len 4096 - s.dbg.sent)).readoutEnded
      (s.fresh + 17 * (len / 16) + 1 + ceilDiv len 4096) := by
  rw [State.readoutDone, h]
  simp only [State.readoutEnded, State.noReadout]

/-- A scan dump is one record. -/
theorem scanDump_eq {s : State} (hclock : s.dbgClock = true) (hfrozen : s.frozen = true) (hfield : s.get F.GLB_STATUS_LIFECYCLE ≠ 2)
    (hidle : s.on F.DBG_CAP_STATUS_BUSY = false) (chain : Nat) :
    ∃ seed units fresh, s.scanDump chain = (s.sendRecord 7 chain 0 seed units).withFresh fresh :=
  ⟨_, _, _, if_neg (by simp [hclock, hfrozen, hfield, hidle])⟩

/-! ## JTAG (R448) -/

theorem exec_scanDump (code : Fin 256) (s : State) : exec (.scanDump code) s = .next ((s.loadInstr 0x21).scanDump code) := rfl

theorem exec_samplePreload (levels shift : List Bool) (s : State) :
    exec (.samplePreload levels shift) s = .next ((s.loadInstr 2).scanBoundary levels shift) := rfl

/-- The boundary register drives the pins. -/
def State.driving (s : State) : State := { s with pins := { s.pins with driven := some s.dbg.boundary } }

theorem exec_extest (levels shift : List Bool) (s : State) :
    exec (.extest levels shift) s = .next (if s.extestDrives then ((s.loadInstr 0).scanBoundary levels shift).driving
      else (s.loadInstr 0).scanBoundary levels shift) := rfl

theorem loadInstr_sampled (s : State) (code : Nat) (levels : List Bool) : (s.loadInstr code).sampled levels = s.sampled levels := rfl

/-- A scan shifts out what the boundary register samples, and leaves in it what is shifted in. -/
theorem scanBoundary_out (s : State) (levels shift : List Bool) :
    (s.scanBoundary levels shift).out = .tdo ((s.sampled levels ++ shift).take shift.length) :: s.out := rfl

theorem scanBoundary_boundary (s : State) (levels shift : List Bool) :
    (s.scanBoundary levels shift).dbg.boundary = (s.sampled levels ++ shift).drop shift.length := rfl

theorem scanBoundary_instr (s : State) (levels shift : List Bool) : (s.scanBoundary levels shift).dbg.instr = s.dbg.instr := rfl

theorem scanBoundary_pins (s : State) (levels shift : List Bool) : (s.scanBoundary levels shift).pins = s.pins := rfl

theorem samplePreload_shifts (s : State) (levels shift : List Bool) :
    ∃ t, exec (.samplePreload levels shift) s = .next t ∧ t.dbg.instr = 2 ∧ t.pins.driven = none
      ∧ t.out = .tdo ((s.sampled levels ++ shift).take shift.length) :: s.out
      ∧ t.dbg.boundary = (s.sampled levels ++ shift).drop shift.length :=
  ⟨(s.loadInstr 2).scanBoundary levels shift, exec_samplePreload .., scanBoundary_instr .., by rw [scanBoundary_pins]; rfl,
    scanBoundary_out .., scanBoundary_boundary ..⟩

theorem extestDrives_iff (s : State) : s.extestDrives = true ↔ s.frozen = true ∨ s.phase = .reset := by
  simp [State.extestDrives]

/-- EXTEST drives the pins with the boundary register where the part is frozen or in reset, and nowhere else. -/
theorem extest_shifts (s : State) (levels shift : List Bool) :
    ∃ t, exec (.extest levels shift) s = .next t ∧ t.dbg.instr = 0
      ∧ t.out = .tdo ((s.sampled levels ++ shift).take shift.length) :: s.out
      ∧ t.dbg.boundary = (s.sampled levels ++ shift).drop shift.length
      ∧ t.pins.driven = (if s.frozen = true ∨ s.phase = .reset then some t.dbg.boundary else none) := by
  by_cases hdrives : s.extestDrives = true
  · refine ⟨((s.loadInstr 0).scanBoundary levels shift).driving, by rw [exec_extest, if_pos hdrives], scanBoundary_instr ..,
      scanBoundary_out .., scanBoundary_boundary .., ?_⟩
    rw [if_pos ((extestDrives_iff s).mp hdrives)]
    rfl
  · refine ⟨(s.loadInstr 0).scanBoundary levels shift, by rw [exec_extest, if_neg hdrives], scanBoundary_instr ..,
      scanBoundary_out .., scanBoundary_boundary .., ?_⟩
    rw [if_neg (mt (extestDrives_iff s).mpr hdrives), scanBoundary_pins]
    rfl

/-! ## The debug port's registers (R448) -/

theorem exec_dbgAccess (v : Word) (offset : Fin 65536) (write : Bool) (s : State) :
    exec (.dbgAccess v offset write) s = .next ((s.loadInstr 0x20).dbgPort v.toNat offset write) := rfl

/-- An open port writes a register. -/
theorem dbgPort_write {s : State} (hclock : s.dbgClock = true) (hen : s.on F.DBG_CTRL_CAPTURE_EN = true)
    (hheld : s.retiredHold = false) (value offset : Nat) :
    s.dbgPort value offset true = s.writeReg true (R.DBG_CTRL + offset) 15 value := by
  simp only [State.dbgPort, hclock, hen, hheld]
  rfl

/-- An open port reads a register. -/
theorem dbgPort_read {s : State} (hclock : s.dbgClock = true) (hen : s.on F.DBG_CTRL_CAPTURE_EN = true)
    (hheld : s.retiredHold = false) (value offset : Nat) :
    s.dbgPort value offset false = (s.readReg ((R.DBG_CTRL + offset) / 4 * 4)).1.emit
      (.tdo (dbgBits (s.readReg ((R.DBG_CTRL + offset) / 4 * 4)).2 offset false)) := by
  simp only [State.dbgPort, hclock, hen, hheld]
  rfl

/-- A port that CAPTURE_EN does not open takes no write. -/
theorem dbgPort_closed {s : State} (hclock : s.dbgClock = true) (hen : s.on F.DBG_CTRL_CAPTURE_EN = false) (value offset : Nat) :
    s.dbgPort value offset true = s := by
  simp only [State.dbgPort, hclock, hen]
  rfl

theorem dbgPort_clockLost {s : State} (hclock : s.dbgClock = false) (value offset : Nat) (write : Bool) :
    s.dbgPort value offset write = s := if_pos (by simp [hclock])

/-! ## The obligation -/

/-- GO is refused with the least reason that applies, and else begins the readout (R444). -/
theorem dbgCapGo_answers {s : State} (htakes : s.takesWrite R.DBG_CAP_GO = true) (hlink : s.pcieUp = true) :
    let refused := fun (why : Nat) => ∃ t, exec .dbgCapGo s = .next t ∧ t.on F.DBG_CAP_STATUS_REFUSED = true
      ∧ t.get F.DBG_CAP_STATUS_REASON = why ∧ t.dbg = s.dbg ∧ t = { s with regs := t.regs }
    (s.frozen = false → refused 1)
    ∧ (s.frozen = true → s.capAllowed = false → refused 2)
    ∧ (s.frozen = true → s.capAllowed = true → s.capFits = false → refused 3)
    ∧ (s.frozen = true → s.capAllowed = true → s.capFits = true → s.on F.DBG_CAP_STATUS_BUSY = true → refused 4)
    ∧ (s.frozen = true → s.capAllowed = true → s.capFits = true → s.on F.DBG_CAP_STATUS_BUSY = false → ∃ t, exec .dbgCapGo s = .next t
        ∧ t.on F.DBG_CAP_STATUS_BUSY = true ∧ t.on F.DBG_CAP_STATUS_REFUSED = false
        ∧ t.dbg.readout = some s.capRequest ∧ t = { s with regs := t.regs, dbg := t.dbg }) := by
  intro refused
  have hrefuses (why : Nat) (hlt : why < 8) (h : s.capGo = s.capRefused why) : refused why :=
    ⟨s.capRefused why, (exec_dbgCapGo htakes hlink).trans (congrArg _ h), capRefused_refused s why, capRefused_reason s hlt,
      capRefused_dbg s why, capRefused_eq_withRegsOf s why⟩
  refine ⟨fun hrun => hrefuses 1 (by decide) ?_, fun hf ha => hrefuses 2 (by decide) ?_,
    fun hf ha hfits => hrefuses 3 (by decide) ?_, fun hf ha hfits hbusy => hrefuses 4 (by decide) ?_, fun hf ha hfits hidle => ?_⟩
  · simp [capGo_eq, hrun]
  · simp [capGo_eq, hf, ha]
  · simp [capGo_eq, hf, ha, hfits]
  · simp [capGo_eq, hf, ha, hfits, hbusy]
  · have hgo : s.capGo = s.capStarted s.capRequest := by simp [capGo_eq, hf, ha, hfits, hidle]
    exact ⟨_, (exec_dbgCapGo htakes hlink).trans (congrArg _ hgo), capStarted_busy .., capStarted_notRefused .., capStarted_readout ..,
      capStarted_rest ..⟩

/-- A frozen part's readout ends with its last record (R444; log 40). -/
theorem captureReadoutDone_ends {s : State} (hclock : s.dbgClock = true) (hfrozen : s.frozen = true) {sp i a n : Nat}
    (hreadout : s.dbg.readout = some (sp, i, a, n)) :
    ∃ t, exec .captureReadoutDone s = .next t ∧ t.on F.DBG_CAP_STATUS_BUSY = false ∧ t.on F.DBG_CAP_STATUS_DONE = true
      ∧ t.dbg.readout = none ∧ t.out.length = s.out.length + 2 * (ceilDiv n 4096 - s.dbg.sent) :=
  ⟨_, (exec_captureReadoutDone hclock hfrozen).trans (congrArg _ (readoutDone_eq hreadout)), readoutEnded_busy .., readoutEnded_done ..,
    readoutEnded_readout .., by rw [readoutEnded_out, sendRecords_out]⟩

/-- A scan dump leaves the capture port as one record (log 30). -/
theorem scanDump_sends {s : State} (hclock : s.dbgClock = true) (hfrozen : s.frozen = true) (hfield : s.get F.GLB_STATUS_LIFECYCLE ≠ 2)
    (hidle : s.on F.DBG_CAP_STATUS_BUSY = false) (chain : Fin 256) :
    ∃ t, exec (.scanDump chain) s = .next t ∧ t.out.length = s.out.length + 2 ∧ t.dbg.instr = 0x21 := by
  obtain ⟨seed, units, fresh, hdump⟩ := scanDump_eq (s := s.loadInstr 0x21) hclock hfrozen hfield hidle chain
  refine ⟨_, (exec_scanDump chain s).trans (congrArg _ hdump), ?_, ?_⟩
  · rw [withFresh_out, sendRecord_out]
    rfl
  · rw [withFresh_dbg, sendRecord_instr]
    rfl

/-- Settles O57: GO's answers are the branches of `State.capGo`; a readout sends a record for each one not sent yet, by induction on
their number; the JTAG instructions are each one scan, and DBG_ACCESS one access of a register. -/
theorem readoutAndDebugPort : Obligations.ReadoutAndDebugPort := by
  unfold Obligations.ReadoutAndDebugPort
  constructor
  · intro s chain htakes hlink hclock
    obtain ⟨hrun, hspace, hrange, hbusy, hgo⟩ := dbgCapGo_answers htakes hlink
    exact ⟨hrun, hspace, hrange, hbusy, hgo, fun sp i a n hfrozen => captureReadoutDone_ends hclock hfrozen,
      exec_captureReadoutDone_running, fun hfrozen hfield hidle => scanDump_sends hclock hfrozen hfield hidle chain⟩
  · intro s levels shift code v offset
    refine ⟨rfl, rfl, fun _ => rfl, rfl, samplePreload_shifts s levels shift, extest_shifts s levels shift, fun hclock hen hheld => ?_,
      fun hclock hen => congrArg _ (dbgPort_closed (s := s.loadInstr 0x20) hclock hen ..),
      fun hclock write => congrArg _ (dbgPort_clockLost (s := s.loadInstr 0x20) hclock ..)⟩
    exact ⟨s.loadInstr 0x20, rfl, congrArg _ (dbgPort_write (s := s.loadInstr 0x20) hclock hen hheld ..),
      congrArg _ (dbgPort_read (s := s.loadInstr 0x20) hclock hen hheld v.toNat ..)⟩

end Sys2Proof.Machine
end

section
/-! The management endpoint: what each request is answered with (R466-R468; log 29). -/

namespace Sys2Proof.Machine

/-! ## Replies -/

theorem reply_on {s : State} (hclock : s.dbgClock = true) (m : List Byte) : s.reply m = .next (s.emit (.mgmt m)) :=
  congrArg _ (if_pos hclock)

theorem reply_off {s : State} (hclock : s.dbgClock = false) (m : List Byte) : s.reply m = .next s :=
  congrArg _ (if_neg (by simp [hclock]))

/-- A command that replies changes nothing without DBG_CLK. -/
theorem silent_of_reply {c : Instr} {s : State} (h : ∃ m, exec c s = s.reply m) (hclock : s.dbgClock = false) :
    exec c s = .next s := by
  obtain ⟨m, hm⟩ := h
  exact hm.trans (reply_off hclock m)

/-! ## MCTP control -/

theorem exec_setEndpointId_off {s : State} (hclock : s.dbgClock = false) (inst : Fin 32) (op : Fin 4) (eid : BitVec 8) :
    exec (.setEndpointId inst op eid) s = .next s := if_pos (by simp [hclock])

theorem exec_setEndpointId_accepted {s : State} (hclock : s.dbgClock = true) (inst : Fin 32) {op : Fin 4} {eid : BitVec 8}
    (hok : eidAccepted op eid = true) :
    exec (.setEndpointId inst op eid) s
      = .next (({ s with mgmt := { s.mgmt with eid := eid.toNat } } : State).emit (.mgmt (mctpReply inst 1 0 [0, eid, 0]))) := by
  rw [exec, execSetEndpointId, if_neg (by simp [hclock]), if_pos hok]
  exact reply_on (s := { s with mgmt := { s.mgmt with eid := eid.toNat } }) hclock _

theorem exec_setEndpointId_invalid {s : State} (hclock : s.dbgClock = true) (inst : Fin 32) {op : Fin 4} {eid : BitVec 8}
    (hbad : eidAccepted op eid = false) : exec (.setEndpointId inst op eid) s = s.reply (mctpReply inst 1 2 []) := by
  rw [exec, execSetEndpointId, if_neg (by simp [hclock]), if_neg (by simp [hbad])]

theorem exec_getEndpointId (inst : Fin 32) (s : State) :
    exec (.getEndpointId inst) s = s.reply (mctpReply inst 2 0 (natBytes 1 s.mgmt.eid ++ [0, 0])) := rfl

theorem exec_getMctpVersionSupport (inst : Fin 32) {type : BitVec 8} (s : State) (h : type = 0xFF ∨ type.toNat ≤ 1) :
    exec (.getMctpVersionSupport inst type) s
      = s.reply (mctpReply inst 4 0 (natBytes 1 1 ++ natBytes 4 (Config.mctpVersion type.toNat).toNat)) := if_pos (by simpa using h)

theorem exec_getMctpVersionSupport_unsupported (inst : Fin 32) {type : BitVec 8} (s : State) (hall : type ≠ 0xFF)
    (h : 1 < type.toNat) : exec (.getMctpVersionSupport inst type) s = s.reply (mctpReply inst 4 0x80 []) :=
  if_neg (by simpa using ⟨hall, h⟩)

theorem exec_getMessageTypeSupport (inst : Fin 32) (s : State) :
    exec (.getMessageTypeSupport inst) s = s.reply (mctpReply inst 5 0 [1, 1]) := rfl

/-! ## PLDM base -/

theorem pldmCommands_none {type : BitVec 8} (h0 : type ≠ 0) (h2 : type ≠ 2) : pldmCommands type.toNat = [] := by
  have h0' : type.toNat ≠ 0 := fun h => h0 (BitVec.eq_of_toNat_eq h)
  have h2' : type.toNat ≠ 2 := fun h => h2 (BitVec.eq_of_toNat_eq h)
  rw [pldmCommands.eq_def]
  split
  · contradiction
  · contradiction
  · rfl

theorem pldmCommands_some {type : BitVec 8} (h : type = 0 ∨ type = 2) : (pldmCommands type.toNat).isEmpty = false := by
  rcases h with rfl | rfl <;> rfl

theorem exec_gettid (inst : Fin 32) (s : State) : exec (.gettid inst) s = s.reply (pldmReply inst 0 2 0 [0]) := rfl

/-- The completion code of GetPLDMVersion. -/
def versionCode (flag type : BitVec 8) : Nat :=
  if (pldmCommands type.toNat).isEmpty then 0x83
  else if flag = 1 then 0
  else if flag = 0 then 0x80
  else 0x81

theorem exec_getpldmversion (inst : Fin 32) (handle : BitVec 32) (flag type : BitVec 8) (s : State) :
    ∃ d, exec (.getpldmversion inst handle flag type) s
      = s.reply (pldmReply inst 0 3 (versionCode flag type) (if versionCode flag type = 0 then d else [])) := ⟨_, rfl⟩

theorem versionCode_unsupported {type : BitVec 8} (h0 : type ≠ 0) (h2 : type ≠ 2) (flag : BitVec 8) :
    versionCode flag type = 0x83 := if_pos (by rw [pldmCommands_none h0 h2]; rfl)

theorem versionCode_part {type : BitVec 8} (h : type = 0 ∨ type = 2) {flag : BitVec 8} (hflag : flag ≠ 1) :
    versionCode flag type = if flag = 0 then 0x80 else 0x81 := by
  rw [versionCode, if_neg (by simp [pldmCommands_some h]), if_neg hflag]

theorem versionCode_ok {type : BitVec 8} (h : type = 0 ∨ type = 2) : versionCode 1 type = 0 := by
  rw [versionCode, if_neg (by simp [pldmCommands_some h]), if_pos rfl]

/-- GetPLDMVersion that fails is answered with its code alone. -/
theorem exec_getpldmversion_fails (inst : Fin 32) (handle : BitVec 32) {flag type : BitVec 8} (s : State) {code : Nat}
    (hcode : versionCode flag type = code) (hfails : code ≠ 0) :
    exec (.getpldmversion inst handle flag type) s = s.reply (pldmReply inst 0 3 code []) := by
  obtain ⟨d, h⟩ := exec_getpldmversion inst handle flag type s
  rw [h, hcode, if_neg hfails]

theorem exec_getpldmversion_ok (inst : Fin 32) (handle : BitVec 32) {type : BitVec 8} (s : State) (h : type = 0 ∨ type = 2) :
    ∃ d, exec (.getpldmversion inst handle 1 type) s = s.reply (pldmReply inst 0 3 0 d) := by
  obtain ⟨d, hd⟩ := exec_getpldmversion inst handle 1 type s
  rw [versionCode_ok h, if_pos rfl] at hd
  exact ⟨d, hd⟩

theorem exec_getpldmtypes (inst : Fin 32) (s : State) :
    exec (.getpldmtypes inst) s = s.reply (pldmReply inst 0 4 0 [5, 0, 0, 0, 0, 0, 0, 0]) := by
  have htypes : natBytes 8 (bitSet [0, 2]) = [5, 0, 0, 0, 0, 0, 0, 0] := by decide
  rw [exec, execGetpldmtypes, htypes]

/-- The completion code of GetPLDMCommands. -/
def commandsCode (type : BitVec 8) (version : BitVec 32) : Nat :=
  if (pldmCommands type.toNat).isEmpty then 0x83 else if version = Config.pldmVersion type.toNat then 0 else 0x84

theorem exec_getpldmcommands (inst : Fin 32) (type : BitVec 8) (version : BitVec 32) (s : State) :
    exec (.getpldmcommands inst type version) s = s.reply (pldmReply inst 0 5 (commandsCode type version)
      (if commandsCode type version = 0 then natBytes 32 (bitSet (pldmCommands type.toNat)) else [])) := rfl

theorem exec_getpldmcommands_unsupported (inst : Fin 32) {type : BitVec 8} (version : BitVec 32) (s : State) (h0 : type ≠ 0)
    (h2 : type ≠ 2) : exec (.getpldmcommands inst type version) s = s.reply (pldmReply inst 0 5 0x83 []) := by
  have hcode : commandsCode type version = 0x83 := if_pos (by rw [pldmCommands_none h0 h2]; rfl)
  rw [exec_getpldmcommands, hcode, if_neg (by decide)]

theorem exec_getpldmcommands_version (inst : Fin 32) {type : BitVec 8} {version : BitVec 32} (s : State) (h : type = 0 ∨ type = 2)
    (hother : version ≠ Config.pldmVersion type.toNat) :
    exec (.getpldmcommands inst type version) s = s.reply (pldmReply inst 0 5 0x84 []) := by
  have hcode : commandsCode type version = 0x84 := by rw [commandsCode, if_neg (by simp [pldmCommands_some h]), if_neg hother]
  rw [exec_getpldmcommands, hcode, if_neg (by decide)]

theorem exec_getpldmcommands_ok (inst : Fin 32) {type : BitVec 8} (s : State) (h : type = 0 ∨ type = 2) :
    exec (.getpldmcommands inst type (Config.pldmVersion type.toNat)) s
      = s.reply (pldmReply inst 0 5 0 (natBytes 32 (bitSet (pldmCommands type.toNat)))) := by
  have hcode : commandsCode type (Config.pldmVersion type.toNat) = 0 := by
    rw [commandsCode, if_neg (by simp [pldmCommands_some h]), if_pos rfl]
  rw [exec_getpldmcommands, hcode, if_pos rfl]

/-- The commands of PLDM base, as the answer lists them. -/
theorem baseCommands_bytes : natBytes 32 (bitSet (pldmCommands 0)) = 0x3C :: zeros 31 := by decide

/-- The commands of PLDM for platform monitoring, as bits. -/
theorem platformCommands_bits : bitSet (pldmCommands 2) = 2 ^ 0x11 + 2 ^ 0x21 + 2 ^ 0x50 + 2 ^ 0x51 := by decide

theorem exec_unsupportedPldmCmd (inst : Fin 32) {type cmd : BitVec 8} (s : State)
    (h : (pldmCommands type.toNat).contains cmd.toNat = false) :
    exec (.unsupportedPldmCmd inst type cmd) s = s.reply (pldmReply inst (type.toNat % 64) cmd.toNat 5 []) :=
  if_neg (ne_true_of_eq_false h)

/-! ## Sensors (R467) -/

/-- The next two free bytes. -/
theorem freeBytes_two (s : State) : ∃ p q, (s.freeBytes 2).1 = [p, q] := ⟨_, _, rfl⟩

theorem freeBytes_four_take (s : State) : ∃ p q, (s.freeBytes 4).1.take 2 = [p, q] := ⟨_, _, rfl⟩

/-- A reply after free values were taken. -/
theorem reply_freeBytes {s : State} (hclock : s.dbgClock = true) (n : Nat) (m : List Byte) :
    ∃ t, (s.freeBytes n).2.reply m = .next t ∧ t.out = .mgmt m :: s.out ∧ t.regs = s.regs :=
  ⟨_, reply_on (s := (s.freeBytes n).2) hclock m, rfl, rfl⟩

theorem reply_freeBytes_off {s : State} (hclock : s.dbgClock = false) (n : Nat) (m : List Byte) :
    ∃ t, (s.freeBytes n).2.reply m = .next t ∧ t.out = s.out :=
  ⟨_, reply_off (s := (s.freeBytes n).2) hclock m, rfl⟩

theorem exec_getsensorreading_none (inst : Fin 32) {sensor : BitVec 16} {s : State} (h : s.numeric sensor.toNat = none) :
    exec (.getsensorreading inst sensor) s = s.reply (pldmReply inst 2 0x11 0x80 []) := by
  rw [exec, execGetsensorreading, h]

/-- A numeric sensor's answer after its size and its operational state. -/
def State.sensorTail (s : State) (id v : Nat) : List Byte :=
  [0] ++ natBytes 1 (if s.sensorUp id then s.numericState id v else 0) ++ (s.freeBytes 4).1.take 2
    ++ (if s.sensorUp id then natBytes 2 v else (s.freeBytes 4).1.drop 2)

theorem exec_getsensorreading_some (inst : Fin 32) {sensor : BitVec 16} {s : State} {v : Nat} {signed : Bool}
    (h : s.numeric sensor.toNat = some (v, signed)) :
    exec (.getsensorreading inst sensor) s = (s.freeBytes 4).2.reply (pldmReply inst 2 0x11 0
      (natBytes 1 (if signed then 3 else 2) ++ natBytes 1 (if s.sensorUp sensor.toNat then 0 else 2)
        ++ s.sensorTail sensor.toNat v)) := by
  rw [exec, execGetsensorreading, h]
  simp only [State.sensorTail, List.append_assoc]

theorem exec_getstatesensorreadings_none (inst : Fin 32) {sensor : BitVec 16} {s : State} (h : s.stateOf sensor.toNat = none) :
    exec (.getstatesensorreadings inst sensor) s = s.reply (pldmReply inst 2 0x21 0x80 []) := by
  rw [exec, execGetstatesensorreadings, h]

theorem exec_getstatesensorreadings_some (inst : Fin 32) {sensor : BitVec 16} {s : State} {v n : Nat}
    (h : s.stateOf sensor.toNat = some (v, n)) :
    exec (.getstatesensorreadings inst sensor) s
      = (s.freeBytes 2).2.reply (pldmReply inst 2 0x21 0 ([1, 0] ++ natBytes 1 v ++ (s.freeBytes 2).1)) := by
  rw [exec, execGetstatesensorreadings, h]

/-- There are 22 numeric sensors. -/
theorem numeric_none (s : State) {id : Nat} (h : 22 < id) : s.numeric id = none := by
  simp [State.numeric, show id ≠ 1 by omega, show id ≠ 2 by omega, show ¬ id ≤ 11 by omega, show id ≠ 12 by omega,
    show ¬ id ≤ 22 by omega]

/-- The state sensors are 100 to 115. -/
theorem stateOf_none (s : State) {id : Nat} (h : id < 100 ∨ 115 < id) : s.stateOf id = none := by
  have hpairs : ¬ (102 ≤ id ∧ id ≤ 113) := by omega
  simp [State.stateOf, show id ≠ 100 by omega, show id ≠ 101 by omega, hpairs, show id ≠ 114 by omega, show id ≠ 115 by omega]

theorem stateOf_lifecycle (s : State) : s.stateOf 101 = some (s.get F.GLB_STATUS_LIFECYCLE, 4) := rfl

theorem numeric_power (s : State) : s.numeric 2 = some (s.get F.PWR_NOW_WATTS, false) := rfl

theorem numericState_power (s : State) (v : Nat) : s.numericState 2 v = if s.get F.PWR_LIMIT_WATTS ≤ v then 8 else 1 := rfl

theorem sensorUp_power {s : State} (h : s.get F.GLB_STATUS_STAGE ≠ 0) : s.sensorUp 2 = true := by
  simp [State.sensorUp, State.coreSensors, h]

/-- A numeric sensor's answer begins with its size and whether its source runs. -/
theorem getsensorreading_answers (inst : Fin 32) {sensor : BitVec 16} {s : State} (hclock : s.dbgClock = true) {v : Nat}
    {signed : Bool} (h : s.numeric sensor.toNat = some (v, signed)) :
    ∃ (rest : List Byte) (t : State), exec (.getsensorreading inst sensor) s = .next t ∧ t.regs = s.regs
      ∧ t.out = .mgmt (pldmReply inst 2 0x11 0 (natBytes 1 (if signed = true then 3 else 2)
          ++ natBytes 1 (if s.sensorUp sensor.toNat = true then 0 else 2) ++ rest)) :: s.out := by
  obtain ⟨t, ht, hout, hregs⟩ := reply_freeBytes hclock 4 _
  exact ⟨s.sensorTail sensor.toNat v, t, (exec_getsensorreading_some inst h).trans ht, hregs, hout⟩

/-- The package power's answer. -/
theorem getsensorreading_power (inst : Fin 32) {s : State} (hclock : s.dbgClock = true) (hstage : s.get F.GLB_STATUS_STAGE ≠ 0) :
    ∃ (p q : Byte) (t : State), exec (.getsensorreading inst 2) s = .next t
      ∧ t.out = .mgmt (pldmReply inst 2 0x11 0 ([2, 0, 0] ++ natBytes 1 (if s.get F.PWR_LIMIT_WATTS ≤ s.get F.PWR_NOW_WATTS then 8 else 1)
          ++ [p, q] ++ natBytes 2 (s.get F.PWR_NOW_WATTS))) :: s.out ∧ t.regs = s.regs := by
  obtain ⟨p, q, hbytes⟩ := freeBytes_four_take s
  have hexec := exec_getsensorreading_some inst (sensor := 2) (numeric_power s)
  rw [show (2 : BitVec 16).toNat = 2 from rfl, State.sensorTail, sensorUp_power hstage, numericState_power, hbytes] at hexec
  obtain ⟨t, ht, hout, hregs⟩ := reply_freeBytes hclock 4 _
  exact ⟨p, q, t, hexec.trans ht, hout, hregs⟩

/-- A state sensor's answer begins with its count, its operational state and its state. -/
theorem getstatesensorreadings_answers (inst : Fin 32) {sensor : BitVec 16} {s : State} (hclock : s.dbgClock = true) {v n : Nat}
    (h : s.stateOf sensor.toNat = some (v, n)) :
    ∃ (p q : Byte) (t : State), exec (.getstatesensorreadings inst sensor) s = .next t
      ∧ t.out = .mgmt (pldmReply inst 2 0x21 0 ([1, 0] ++ natBytes 1 v ++ [p, q])) :: s.out ∧ t.regs = s.regs := by
  obtain ⟨p, q, hbytes⟩ := freeBytes_two s
  have hexec := exec_getstatesensorreadings_some inst h
  rw [hbytes] at hexec
  obtain ⟨t, ht, hout, hregs⟩ := reply_freeBytes hclock 2 _
  exact ⟨p, q, t, hexec.trans ht, hout, hregs⟩

theorem getsensorreading_off (inst : Fin 32) (sensor : BitVec 16) {s : State} (hclock : s.dbgClock = false) :
    ∃ t, exec (.getsensorreading inst sensor) s = .next t ∧ t.out = s.out := by
  cases h : s.numeric sensor.toNat with
  | none => exact ⟨s, (exec_getsensorreading_none inst h).trans (reply_off hclock _), rfl⟩
  | some reading =>
    rw [exec_getsensorreading_some inst h]
    exact reply_freeBytes_off hclock ..

theorem getstatesensorreadings_off (inst : Fin 32) (sensor : BitVec 16) {s : State} (hclock : s.dbgClock = false) :
    ∃ t, exec (.getstatesensorreadings inst sensor) s = .next t ∧ t.out = s.out := by
  cases h : s.stateOf sensor.toNat with
  | none => exact ⟨s, (exec_getstatesensorreadings_none inst h).trans (reply_off hclock _), rfl⟩
  | some reading =>
    rw [exec_getstatesensorreadings_some inst h]
    exact reply_freeBytes_off hclock ..

/-! ## The PDR repository (R467) -/

theorem exec_getpdrrepositoryinfo (inst : Fin 32) (s : State) :
    ∃ d, exec (.getpdrrepositoryinfo inst) s = s.reply (pldmReply inst 2 0x50 0 d) := ⟨_, rfl⟩

/-- The record that GetPDR names: record 0 is the first. -/
def pdrRecord (record : BitVec 32) : Nat := if record = 0 then 1 else record.toNat

theorem pdrSensor_none {h : Nat} (hh : 38 < h) : pdrSensor h = none := by
  simp [pdrSensor, show ¬ h ≤ 22 by omega, show ¬ h ≤ 38 by omega]

theorem pdrSensor_some {h : Nat} (hpos : 1 ≤ h) (hle : h ≤ 38) : ∃ id, pdrSensor h = some id := by
  rcases Nat.lt_or_ge 22 h with hstate | hnumeric
  · exact ⟨h + 77, by simp [pdrSensor, show ¬ h ≤ 22 by omega, show 23 ≤ h by omega, hle]⟩
  · exact ⟨h, by simp [pdrSensor, hpos, hnumeric]⟩

theorem pdrRecord_past {record : BitVec 32} (h : 38 < record.toNat) : pdrRecord record = record.toNat :=
  if_neg fun h0 => by simp [h0] at h

theorem pdrRecord_sensor {record : BitVec 32} (h : record.toNat ≤ 38) : ∃ id, pdrSensor (pdrRecord record) = some id := by
  rw [pdrRecord]
  split
  · exact pdrSensor_some (by decide) (by decide)
  next hne =>
    have hpos : record.toNat ≠ 0 := fun h0 => hne (BitVec.eq_of_toNat_eq h0)
    exact pdrSensor_some (by omega) h

theorem exec_getpdr_none (inst : Fin 32) {record : BitVec 32} (handle : BitVec 32) (flag : BitVec 8) (count change : BitVec 16)
    (s : State) (h : 38 < record.toNat) :
    exec (.getpdr inst record handle flag count change) s = s.reply (pldmReply inst 2 0x51 0x82 []) := by
  have hnone : pdrSensor (if record = 0 then 1 else record.toNat) = none := pdrSensor_none (by rw [← pdrRecord, pdrRecord_past h]; exact h)
  rw [exec, execGetpdr]
  simp only [hnone]

/-- GetPDR of a record there is: a first part is sent, and a flag above 1 is invalid. -/
theorem exec_getpdr_some (inst : Fin 32) {record : BitVec 32} (handle : BitVec 32) (flag : BitVec 8) (count change : BitVec 16)
    (s : State) (h : record.toNat ≤ 38) :
    ∃ code d, exec (.getpdr inst record handle flag count change) s = s.reply (pldmReply inst 2 0x51 code d)
      ∧ (1 < flag.toNat → code = 0x81) ∧ (flag = 1 → code = 0) := by
  obtain ⟨id, hid⟩ := pdrRecord_sensor h
  rw [pdrRecord] at hid
  rw [exec, execGetpdr]
  simp only [hid]
  refine ⟨_, _, rfl, fun hflag => if_neg (by omega), fun hflag => ?_⟩
  simp [hflag]

/-- GetPDR replies, whatever it is asked for. -/
theorem exec_getpdr_replies (inst : Fin 32) (record handle : BitVec 32) (flag : BitVec 8) (count change : BitVec 16) (s : State) :
    ∃ m, exec (.getpdr inst record handle flag count change) s = s.reply m := by
  rcases Nat.lt_or_ge 38 record.toNat with hpast | hthere
  · exact ⟨_, exec_getpdr_none inst handle flag count change s hpast⟩
  · obtain ⟨code, d, hexec, -⟩ := exec_getpdr_some inst handle flag count change s hthere
    exact ⟨_, hexec⟩

/-! ## The obligation -/

theorem exec_getMctpVersionSupport_replies (inst : Fin 32) (type : BitVec 8) (s : State) :
    ∃ m, exec (.getMctpVersionSupport inst type) s = s.reply m := by
  by_cases h : type = 0xFF ∨ type.toNat ≤ 1
  · exact ⟨_, exec_getMctpVersionSupport inst s h⟩
  · obtain ⟨hall, hpast⟩ := not_or.mp h
    exact ⟨_, exec_getMctpVersionSupport_unsupported inst s hall (Nat.lt_of_not_le hpast)⟩

/-- Without DBG_CLK no PLDM command is refused. -/
theorem exec_unsupportedPldmCmd_off {s : State} (hclock : s.dbgClock = false) (inst : Fin 32) (type cmd : BitVec 8) :
    exec (.unsupportedPldmCmd inst type cmd) s = .next s := by
  cases h : (pldmCommands type.toNat).contains cmd.toNat with
  | true => exact if_pos h
  | false => exact silent_of_reply ⟨_, exec_unsupportedPldmCmd inst s h⟩ hclock

/-- Settles O58: every request but the two of readings is one reply of the state, which leaves while DBG_CLK runs and not without it;
the two of readings reply after the free values they take. -/
theorem theEndpointAnswers : Obligations.TheEndpointAnswers := by
  unfold Obligations.TheEndpointAnswers
  intro s inst op eid type flag ver record handle sensor count change cmd answers
  refine ⟨fun hclock => ?_, fun hclock => ?_⟩
  · have sends {c : Instr} {m : List Byte} (h : exec c s = s.reply m) : answers c m := h.trans (reply_on hclock m)
    refine ⟨exec_setEndpointId_accepted hclock inst, fun hbad => sends (exec_setEndpointId_invalid hclock inst hbad),
      sends (exec_getEndpointId inst s), fun h => sends (exec_getMctpVersionSupport inst s (.inr h)),
      fun h hall => sends (exec_getMctpVersionSupport_unsupported inst s hall h), sends (exec_getMessageTypeSupport inst s),
      sends (exec_gettid inst s), fun h => sends (exec_getMctpVersionSupport inst s (.inl h)), ?_, ?_, ?_,
      sends (exec_getpldmtypes inst s), ?_, ?_, fun h hver => sends (exec_getpldmcommands_version inst s h hver),
      fun h => sends (exec_unsupportedPldmCmd inst s h), ?_, ?_, ?_, ?_, ?_,
      fun h => sends (exec_getpdr_none inst handle flag count change s h), ?_,
      fun h => sends (exec_getsensorreading_none inst (numeric_none s h)), ?_,
      fun h => sends (exec_getstatesensorreadings_none inst (stateOf_none s h))⟩
    · rintro htype rfl
      obtain ⟨d, hexec⟩ := exec_getpldmversion_ok inst handle s htype
      exact ⟨d, sends hexec⟩
    · intro htype hflag
      refine sends (exec_getpldmversion_fails inst handle s (versionCode_part htype hflag) ?_)
      split <;> decide
    · exact fun h0 h2 => ⟨sends (exec_getpldmversion_fails inst handle s (versionCode_unsupported h0 h2 flag) (by decide)),
        sends (exec_getpldmcommands_unsupported inst ver s h0 h2)⟩
    · rintro rfl rfl
      rw [← baseCommands_bytes]
      exact sends (exec_getpldmcommands_ok inst s (.inl rfl))
    · rintro rfl rfl
      rw [← platformCommands_bits]
      exact sends (exec_getpldmcommands_ok inst s (.inr rfl))
    · obtain ⟨d, hexec⟩ := exec_getpdrrepositoryinfo inst s
      exact ⟨d, sends hexec⟩
    · intro hrecord hflag
      obtain ⟨code, d, hexec, -, hcode⟩ := exec_getpdr_some inst handle flag count change s hrecord
      exact ⟨d, sends (hcode hflag ▸ hexec)⟩
    · intro hrecord
      obtain ⟨code, d, hexec, hcode, -⟩ := exec_getpdr_some inst handle flag count change s hrecord
      exact ⟨code, d, sends hexec, hcode⟩
    · exact fun x signed h => getsensorreading_answers inst hclock h
    · intro x n h
      obtain ⟨p, q, t, hexec, hout, hregs⟩ := getstatesensorreadings_answers inst hclock h
      exact ⟨[p, q], t, hexec, hregs, hout⟩
    · rintro rfl hstage
      exact getsensorreading_power inst hclock hstage
    · rintro rfl
      exact getstatesensorreadings_answers inst hclock (stateOf_lifecycle s)
  · have silent {c : Instr} (h : ∃ m, exec c s = s.reply m) : exec c s = .next s := silent_of_reply h hclock
    obtain ⟨d, hversion⟩ := exec_getpldmversion inst handle flag type s
    obtain ⟨info, hinfo⟩ := exec_getpdrrepositoryinfo inst s
    exact ⟨exec_setEndpointId_off hclock inst op eid, silent ⟨_, exec_getEndpointId inst s⟩,
      silent (exec_getMctpVersionSupport_replies inst type s), silent ⟨_, exec_gettid inst s⟩,
      silent ⟨_, exec_getMessageTypeSupport inst s⟩, silent ⟨_, hversion⟩, silent ⟨_, exec_getpldmtypes inst s⟩,
      silent ⟨_, exec_getpldmcommands inst type ver s⟩, exec_unsupportedPldmCmd_off hclock inst type cmd,
      silent ⟨_, hinfo⟩, getsensorreading_off inst sensor hclock, getstatesensorreadings_off inst sensor hclock,
      silent (exec_getpdr_replies inst record handle flag count change s)⟩

end Sys2Proof.Machine
end

section
/-! The rails: what the monitors see and show, how a window opens and closes, and how the clocks follow it (R408, R409, R419-R422). -/

namespace Sys2Proof.Machine

/-! ## Rails, windows and the clocks -/

/-- The state with another power part. -/
def State.withPower (s : State) (p : Power) : State := { s with power := p }

theorem withPower_get (s : State) (p : Power) (f : Fld) : (s.withPower p).get f = s.get f := rfl

theorem withPower_on (s : State) (p : Power) (f : Fld) : (s.withPower p).on f = s.on f := rfl

theorem withPower_power (s : State) (p : Power) : (s.withPower p).power = p := rfl

theorem withPower_phase (s : State) (p : Power) : (s.withPower p).phase = s.phase := rfl

/-- A rail's window reads as what was set for it. -/
theorem dip_setDip (s : State) (r : Nat) (d : Option Dip) : (s.setDip r d).dip r = d := by
  show sget none (sset none s.power.dips r d) r = d
  rw [sset]
  split
  next hnone => rw [sget_filter_same, hnone]
  · exact sget_sput_same ..

/-- Every other part of the power state stays as it is when a rail's window is set. -/
theorem setDip_eq (s : State) (r : Nat) (d : Option Dip) :
    s.setDip r d = s.withPower { s.power with dips := sset none s.power.dips r d } := rfl

theorem dip_congr {s t : State} (h : t.power.dips = s.power.dips) (r : Nat) : t.dip r = s.dip r :=
  congrArg (fun m => sget none m r) h

/-- The halving that the open windows ask for. -/
def State.dipHalved (s : State) : Bool := [0, 1].any fun r => (s.dip r).any (·.halved)

/-- A window is open. -/
def State.dipOpen (s : State) : Bool := (List.range 9).any fun r => (s.dip r).isSome

/-- The state with other clocks. -/
def State.withClk (s : State) (c : Clock) : State := { s with clk := c }

theorem setClocks_eq (s : State) :
    ∃ c, s.setClocks = ((s.putB F.PWR_STATUS_HALVED s.dipHalved).putB F.PWR_STATUS_WINDOW s.dipOpen).withClk c :=
  ⟨_, rfl⟩

theorem withClk_get (s : State) (c : Clock) (f : Fld) : (s.withClk c).get f = s.get f := rfl

theorem withClk_on (s : State) (c : Clock) (f : Fld) : (s.withClk c).on f = s.on f := rfl

theorem withClk_power (s : State) (c : Clock) : (s.withClk c).power = s.power := rfl

theorem withClk_out (s : State) (c : Clock) : (s.withClk c).out = s.out := rfl

theorem setClocks_power (s : State) : s.setClocks.power = s.power := by
  obtain ⟨c, h⟩ := setClocks_eq s
  rw [h, withClk_power, State.putB_power, State.putB_power]

theorem setClocks_out (s : State) : s.setClocks.out = s.out := by
  obtain ⟨c, h⟩ := setClocks_eq s
  rw [h, withClk_out, State.putB_out, State.putB_out]

theorem setClocks_get (s : State) {f : Fld} (h : f.reg ≠ R.PWR_STATUS) : s.setClocks.get f = s.get f := by
  obtain ⟨c, heq⟩ := setClocks_eq s
  rw [heq, withClk_get, get_putB_otherReg _ _ h, get_putB_otherReg _ _ h]

theorem setClocks_window (s : State) : s.setClocks.on F.PWR_STATUS_WINDOW = s.dipOpen := by
  obtain ⟨c, h⟩ := setClocks_eq s
  rw [h, withClk_on, on_putB_same _ _ _ rfl (by decide)]

theorem setClocks_halved (s : State) : s.setClocks.on F.PWR_STATUS_HALVED = s.dipHalved := by
  obtain ⟨c, h⟩ := setClocks_eq s
  rw [h, withClk_on, on_putB_other _ _ _ _ (by decide) (by decide), on_putB_same _ _ _ rfl (by decide)]

theorem dipOpen_of_dip {s : State} {r : Fin 9} {d : Dip} (h : s.dip r = some d) : s.dipOpen = true :=
  List.any_eq_true.mpr ⟨r, List.mem_range.mpr r.isLt, by rw [h]; rfl⟩

theorem dipHalved_of_dip {s : State} {r : Nat} {d : Dip} (hr : r < 2) (h : s.dip r = some d) (hd : d.halved = true) :
    s.dipHalved = true := by
  have hmem : r ∈ [0, 1] := by
    rw [List.mem_pair]
    omega
  exact List.any_eq_true.mpr ⟨r, hmem, by rw [h]; exact hd⟩

theorem flagStroke_get (s : State) (f : Fld) : s.flagStroke.get f = s.get f := rfl

theorem flagStroke_on (s : State) (f : Fld) : s.flagStroke.on f = s.on f := rfl

theorem flagStroke_out (s : State) : s.flagStroke.out = s.out := rfl

theorem flagStroke_power (s : State) : s.flagStroke.power = { s.power with flagged := true } := rfl

theorem flagStroke_dip (s : State) (r : Nat) : s.flagStroke.dip r = s.dip r := rfl

/-! ## A fall below the warning level (R408, R419, R422) -/

/-- The rails known to be low, with one more. -/
def State.lowWith (s : State) (r : Nat) : List Nat := if s.power.lowRails.contains r then s.power.lowRails else r :: s.power.lowRails

theorem mem_lowWith (s : State) (r : Nat) : r ∈ s.lowWith r := by
  rw [State.lowWith]
  split
  next h => exact List.contains_iff_mem.mp h
  · exact List.mem_cons_self

/-- A rail's value shown, and whether it is below its warning level. -/
def State.railShown (s : State) (r mv : Nat) (low : Bool) : State :=
  (s.put (F.PWR_RAIL_MV r) mv).putB (F.PWR_RAIL_BELOW_WARN r) low

theorem railShown_mv (s : State) (r mv : Nat) (low : Bool) : (s.railShown r mv low).get (F.PWR_RAIL_MV r) = mv % 65536 := by
  rw [State.railShown, get_putB_other _ _ _ _ (Nat.le_of_ble_eq_true rfl) (.inr (.inl (Nat.le_of_ble_eq_true rfl)))]
  exact get_put_same s (F.PWR_RAIL_MV r) mv (Nat.le_of_ble_eq_true rfl)

theorem railShown_below (s : State) (r mv : Nat) (low : Bool) : (s.railShown r mv low).on (F.PWR_RAIL_BELOW_WARN r) = low :=
  on_putB_same _ _ _ rfl (Nat.le_of_ble_eq_true rfl)

theorem railShown_windows (s : State) (r mv : Nat) (low : Bool) :
    (s.railShown r mv low).get (F.PWR_RAIL_WINDOWS r) = s.get (F.PWR_RAIL_WINDOWS r) := by
  rw [State.railShown, get_putB_other _ _ _ _ (Nat.le_of_ble_eq_true rfl) (.inr (.inl (Nat.le_of_ble_eq_true rfl))),
    get_put_other _ _ _ _ (Nat.le_of_ble_eq_true rfl) (.inr (.inr (Nat.le_of_ble_eq_true rfl)))]

theorem railShown_power (s : State) (r mv : Nat) (low : Bool) : (s.railShown r mv low).power = s.power := by
  rw [State.railShown, State.putB_power, State.put_power]

theorem railShown_out (s : State) (r mv : Nat) (low : Bool) : (s.railShown r mv low).out = s.out := by
  rw [State.railShown, State.putB_out, State.put_out]

/-- The state with other rails known to be low. -/
def State.withLows (s : State) (lows : List Nat) : State := s.withPower { s.power with lowRails := lows }

theorem withLows_power (s : State) (lows : List Nat) : (s.withLows lows).power = { s.power with lowRails := lows } := rfl

theorem withLows_get (s : State) (lows : List Nat) (f : Fld) : (s.withLows lows).get f = s.get f := rfl

theorem withLows_on (s : State) (lows : List Nat) (f : Fld) : (s.withLows lows).on f = s.on f := rfl

theorem withLows_out (s : State) (lows : List Nat) : (s.withLows lows).out = s.out := rfl

theorem noteLow_eq {s : State} (hphase : s.phase ≠ .reset) (r mv : Nat) :
    s.noteLow r mv = (s.railShown r mv true).withLows (s.lowWith r) := by
  rw [State.noteLow, if_neg (by simpa using hphase)]
  simp only [State.withLows, State.withPower, State.railShown, State.lowWith]

/-- A window opened: the rail's monitor has seen it low, and the window's record begins. -/
def State.windowOpened (s : State) (r mv : Nat) : State :=
  ((s.noteLow r mv).setDip r (some { low := mv, below := true, since := s.clk.real, first := s.nowReg })).bumpSat (F.PWR_RAIL_WINDOWS r)

/-- What follows the clocks' new rate: the tests that it takes out of range. -/
def State.rateFollowed (s t : State) : State :=
  if t.clk.num < t.clk.den then
    let u := t.istAbortAll 1 t.coreMHz
    if s.phase == .bist && !s.on F.PWR_BIST_STATUS_REFUSED_RANGE then
      (u.putB F.PWR_BIST_STATUS_REFUSED_RANGE true).rangeEvent 1 t.coreMHz
    else u
  else t

theorem railFalls_first {s : State} {r : Nat} (hdip : s.dip r = none) (mv : Nat) :
    s.railFalls r mv = s.rateFollowed (s.windowOpened r mv).setClocks.flagStroke := by
  rw [State.railFalls, hdip]
  rfl

theorem istAbortAll_none {s : State} (h : s.power.tests = []) (q v : Nat) : s.istAbortAll q v = s := if_pos (by simp [h])

/-- With no unit under test and no BIST, nothing else follows. -/
theorem rateFollowed_none {s t : State} (hphase : s.phase ≠ .bist) (htests : t.power.tests = []) : s.rateFollowed t = t := by
  simp [State.rateFollowed, istAbortAll_none htests, hphase]

theorem windowOpened_power {s : State} (hphase : s.phase ≠ .reset) (r mv : Nat) :
    (s.windowOpened r mv).power = { s.power with
      lowRails := s.lowWith r
      dips := sset none s.power.dips r (some { low := mv, below := true, since := s.clk.real, first := s.nowReg }) } := by
  rw [State.windowOpened, State.bumpSat_power, setDip_eq, withPower_power, noteLow_eq hphase, withLows_power, railShown_power]

theorem windowOpened_dip (s : State) (r mv : Nat) : (s.windowOpened r mv).dip r
    = some { low := mv, below := true, since := s.clk.real, first := s.nowReg } := by
  rw [State.windowOpened, dip_congr (congrArg Power.dips (State.bumpSat_power ..)), dip_setDip]

theorem windowOpened_mv {s : State} (hphase : s.phase ≠ .reset) (r mv : Nat) :
    (s.windowOpened r mv).get (F.PWR_RAIL_MV r) = mv % 65536 := by
  rw [State.windowOpened, State.bumpSat, get_put_other _ _ _ _ (Nat.le_of_ble_eq_true rfl) (.inr (.inl (Nat.le_of_ble_eq_true rfl))),
    setDip_eq, withPower_get, noteLow_eq hphase, withLows_get, railShown_mv]

theorem windowOpened_below {s : State} (hphase : s.phase ≠ .reset) (r mv : Nat) :
    (s.windowOpened r mv).on (F.PWR_RAIL_BELOW_WARN r) = true := by
  rw [State.windowOpened, State.bumpSat, on_put_other _ _ _ _ (Nat.le_of_ble_eq_true rfl) (.inr (.inr (Nat.le_of_ble_eq_true rfl))),
    setDip_eq, withPower_on, noteLow_eq hphase, withLows_on, railShown_below]

theorem windowOpened_windows {s : State} (hphase : s.phase ≠ .reset) (r mv : Nat) :
    (s.windowOpened r mv).get (F.PWR_RAIL_WINDOWS r) = min 255 (s.get (F.PWR_RAIL_WINDOWS r) + 1) := by
  rw [State.windowOpened, get_bumpSat_same _ _ _ (Nat.le_of_ble_eq_true rfl), setDip_eq, withPower_get, noteLow_eq hphase, withLows_get,
    railShown_windows]
  rfl

theorem windowOpened_out {s : State} (hphase : s.phase ≠ .reset) (r mv : Nat) : (s.windowOpened r mv).out = s.out := by
  rw [State.windowOpened, State.bumpSat_out, setDip_eq]
  show (s.noteLow r mv).out = s.out
  rw [noteLow_eq hphase, withLows_out, railShown_out]

theorem exec_railWarnCross {s : State} {r : Fin 9} {mv : Nat} (hlow : s.belowWarn r mv = true) (hlevel : s.atReset r mv = false) :
    exec (.railWarnCross r mv) s = .next (if s.clocksRun = true then s.railFalls r mv else s.noteLow r mv) := by
  rw [exec, execRailWarnCross, if_neg (by simp [hlow, hlevel])]

theorem exec_railWarnCross_outside {s : State} {r : Fin 9} {mv : Nat} (h : s.belowWarn r mv = false ∨ s.atReset r mv = true) :
    exec (.railWarnCross r mv) s = .next s := congrArg _ (if_pos (by simpa using h))

/-- In service a first fall below the warning level opens a window that keeps its lowest value, and flags the stroke. -/
theorem railWarnCross_opens {s : State} {r : Fin 9} {mv : Nat} (hlive : s.live = true) (htests : s.power.tests = [])
    (hlow : s.belowWarn r mv = true) (hlevel : s.atReset r mv = false) (hdip : s.dip r = none) :
    ∃ t, exec (.railWarnCross r mv) s = .next t
      ∧ t.dip r = some { low := mv, below := true, since := s.clk.real, first := s.nowReg }
      ∧ t.get (F.PWR_RAIL_MV r) = mv % 65536 ∧ t.on (F.PWR_RAIL_BELOW_WARN r) = true ∧ t.on F.PWR_STATUS_WINDOW = true
      ∧ t.get (F.PWR_RAIL_WINDOWS r) = min 255 (s.get (F.PWR_RAIL_WINDOWS r) + 1)
      ∧ r.val ∈ t.power.lowRails ∧ t.power.flagged = true ∧ t.out = s.out := by
  obtain ⟨hphase, hfrozen⟩ := live_iff.mp hlive
  have hruns : s.clocksRun = true := by simp [State.clocksRun, hphase, hfrozen]
  have hreset : s.phase ≠ .reset := by simp [hphase]
  have hpower := windowOpened_power hreset r mv
  have hdips := windowOpened_dip s r mv
  have htests' : (s.windowOpened r mv).setClocks.flagStroke.power.tests = [] := by
    rw [flagStroke_power, setClocks_power, hpower]
    exact htests
  have hexec : exec (.railWarnCross r mv) s = .next (s.windowOpened r mv).setClocks.flagStroke := by
    rw [exec_railWarnCross hlow hlevel, if_pos hruns, railFalls_first hdip, rateFollowed_none (by simp [hphase]) htests']
  have hapart : R.PWR_RAIL r ≠ R.PWR_STATUS := by
    show 0x1a00100 + 4 * r.val ≠ 0x1a00000
    omega
  refine ⟨_, hexec, ?dip, ?mv, ?below, ?window, ?windows, ?low, rfl, ?out⟩
  case dip => rw [flagStroke_dip, dip_congr (congrArg Power.dips (setClocks_power _)), hdips]
  case mv => rw [flagStroke_get, setClocks_get _ hapart, windowOpened_mv hreset]
  case below =>
    rw [State.on, flagStroke_get, setClocks_get _ hapart]
    exact windowOpened_below hreset r mv
  case window => rw [flagStroke_on, setClocks_window, dipOpen_of_dip hdips]
  case windows => rw [flagStroke_get, setClocks_get _ hapart, windowOpened_windows hreset]
  case low =>
    rw [flagStroke_power, setClocks_power, hpower]
    exact mem_lowWith s r
  case out => rw [flagStroke_out, setClocks_out, windowOpened_out hreset]

/-! ## A rise above the warning level (R408, R421) -/

theorem exec_railAboveWarning {s : State} {r : Fin 9} {mv : Nat} (habove : s.belowWarn r mv = false) :
    exec (.railAboveWarning r mv) s = .next (s.railRises r mv) := congrArg _ (if_neg (by simp [habove]))

/-- What a rail's monitor shows, wherever registers are not held in reset. -/
def State.railSeen (s : State) (r mv : Nat) (low : Bool) : State := if s.phase == .reset then s else s.railShown r mv low

theorem railSeen_eq_withRegsOf (s : State) (r mv : Nat) (low : Bool) : s.railSeen r mv low = s.withRegsOf (s.railSeen r mv low) := by
  rw [State.railSeen]
  split
  · rfl
  · exact withRegsOf_trans (put_eq_withRegsOf ..) (putB_eq_withRegsOf ..)

theorem railSeen_below {s : State} (hphase : s.phase ≠ .reset) (r mv : Nat) (low : Bool) :
    (s.railSeen r mv low).on (F.PWR_RAIL_BELOW_WARN r) = low := by
  rw [State.railSeen, if_neg (by simpa using hphase), railShown_below]

/-- A state with other registers and another power part alone. -/
theorem withPower_rest {s t : State} (h : t = s.withRegsOf t) (p : Power) :
    t.withPower p = { s with regs := (t.withPower p).regs, power := (t.withPower p).power } :=
  congrArg (fun x => State.withPower x p) h

/-- The rail is no longer known to be low. -/
def State.risen (s : State) (r : Nat) : Power :=
  { s.power with
    lowRails := s.power.lowRails.filter (· != r)
    roseAt := if s.power.lowRails.contains r then s.clk.real else s.power.roseAt }

theorem railSeen_power (s : State) (r mv : Nat) (low : Bool) : (s.railSeen r mv low).power = s.power := by
  rw [State.railSeen]
  split
  · rfl
  · exact railShown_power ..

/-- A rail that was below its warning level: its dip is over, and its time is kept. -/
theorem railRises_dip {s : State} {r : Nat} {d : Dip} (hdip : s.dip r = some d) (hbelow : d.below = true) (mv : Nat) :
    s.railRises r mv = (s.railSeen r mv false).withPower { s.risen r with
      dips := sset none s.power.dips r
        (some { d with below := false, since := s.clk.real, total := d.total + (s.clk.real - d.since) }) } := by
  rw [State.railRises, hdip]
  simp only [hbelow, if_true]
  show State.setDip ({ s.railSeen r mv false with power := { (s.railSeen r mv false).power with
    lowRails := s.power.lowRails.filter (· != r), roseAt := if s.power.lowRails.contains r then s.clk.real else s.power.roseAt } } : State)
    r _ = _
  rw [railSeen_power]
  rfl

theorem railAboveWarning_ends {s : State} {r : Fin 9} {mv : Nat} {d : Dip} (habove : s.belowWarn r mv = false) (hdip : s.dip r = some d)
    (hbelow : d.below = true) :
    ∃ t, exec (.railAboveWarning r mv) s = .next t
      ∧ t.dip r = some { d with below := false, since := s.clk.real, total := d.total + (s.clk.real - d.since) }
      ∧ r.val ∉ t.power.lowRails ∧ (s.phase ≠ .reset → t.on (F.PWR_RAIL_BELOW_WARN r) = false)
      ∧ t = { s with regs := t.regs, power := t.power } := by
  refine ⟨_, (exec_railAboveWarning habove).trans (congrArg _ (railRises_dip hdip hbelow mv)), ?dip, ?low,
    fun hphase => ?below, withPower_rest (railSeen_eq_withRegsOf ..) _⟩
  case dip => exact dip_setDip s r _
  case low =>
    rw [withPower_power]
    simp [State.risen]
  case below => rw [withPower_on, railSeen_below hphase]

/-! ## The halving and the end of a window (R420-R422) -/

theorem exec_brownoutHalving {s u : State} {r : Fin 9} {d : Dip} (hruns : s.clocksRun = true) (hr : r.val < 2) (hdip : s.dip r = some d)
    (hbelow : d.below = true) (hhalved : d.halved = false) (hreach : s.reachReal (d.since + 5000) = some u) :
    exec (.brownoutHalving r) s = .next (u.setDip r (some { d with halved := true })).setClocks := by
  rw [exec, execBrownoutHalving, if_pos hruns, State.halve, hdip]
  simp only [hreach]
  rw [if_neg (by simp [Nat.not_le.mpr hr, hbelow, hhalved])]

theorem brownoutHalving_halves {s : State} {r : Fin 9} {d : Dip} (hruns : s.clocksRun = true) (hr : r.val < 2) (hdip : s.dip r = some d)
    (hbelow : d.below = true) (hhalved : d.halved = false) (hdue : d.since + 5000 ≤ s.clk.real) :
    ∃ t, exec (.brownoutHalving r) s = .next t ∧ t.dip r = some { d with halved := true } ∧ t.on F.PWR_STATUS_HALVED = true := by
  have hset := dip_setDip s r (some { d with halved := true })
  refine ⟨_, exec_brownoutHalving hruns hr hdip hbelow hhalved (reachReal_now s _ hdue), ?_, ?_⟩
  · rw [dip_congr (congrArg Power.dips (setClocks_power _)), hset]
  · rw [setClocks_halved, dipHalved_of_dip hr hset rfl]

theorem exec_brownout {s u : State} {r : Fin 9} {d : Dip} (hruns : s.clocksRun = true) (hdip : s.dip r = some d)
    (habove : d.below = false) (hreach : s.reachReal (d.since + 125000) = some u) :
    exec (.brownout r) s = .next (((u.setDip r none).setClocks).raise 0x0901
      (payload 16 [(0, 1, r), (1, 1, depthOf (u.setPoint r) d.low), (4, 4, sat32 (d.total * 2 / 5)), (8, 8, d.first)])
      [payload 32 [(0, 8, u.nowReg)]]) := by
  rw [exec, execBrownout, if_pos hruns, State.closeWindow, hdip]
  simp only [hreach, habove]
  rfl

theorem brownout_closes {s : State} {r : Fin 9} {d : Dip} (hruns : s.clocksRun = true) (hdip : s.dip r = some d)
    (habove : d.below = false) (hdue : d.since + 125000 ≤ s.clk.real) :
    ∃ u : State, exec (.brownout r) s = .next (u.raise 0x0901
        (payload 16 [(0, 1, r), (1, 1, depthOf (s.setPoint r) d.low), (4, 4, sat32 (d.total * 2 / 5)), (8, 8, d.first)])
        [payload 32 [(0, 8, s.nowReg)]]) ∧ u.dip r = none :=
  ⟨_, exec_brownout hruns hdip habove (reachReal_now s _ hdue),
    (dip_congr (congrArg Power.dips (setClocks_power _)) r).trans (dip_setDip s r none)⟩

end Sys2Proof.Machine
end

section
/-! The power clamp, the set point of VDD_CORE, and heat (R45, R46, R409, R431, R432). -/

namespace Sys2Proof.Machine

/-! ## The power clamp (R45, R46) -/

/-- Measurements in a row below 97 % of the limit, with this one. -/
def State.below97After (s : State) (w : Nat) : Nat := if 100 * w < 97 * s.get F.PWR_LIMIT_WATTS then s.power.below97 + 1 else 0

/-- Measurements in a row below the limit, with this one. -/
def State.underAfter (s : State) (w : Nat) : Nat := if w < s.get F.PWR_LIMIT_WATTS then s.power.underLimit + 1 else 0

/-- The array's fraction in eighths after a measurement. -/
def State.arrayAfter (s : State) (w : Nat) : Nat :=
  if s.get F.PWR_LIMIT_WATTS < w then max 1 (s.get F.PWR_STATUS_ARRAY_FRACTION - 1)
  else if s.below97After w % 10 = 0 && 100 * w < 97 * s.get F.PWR_LIMIT_WATTS then min 8 (s.get F.PWR_STATUS_ARRAY_FRACTION + 1)
  else s.get F.PWR_STATUS_ARRAY_FRACTION

/-- Since when the array has stood at 1/8 with the power above the limit. -/
def State.eighthAfter (s : State) (w : Nat) : Option Nat :=
  if s.arrayAfter w = 1 && s.get F.PWR_LIMIT_WATTS < w then some (s.power.eighthFrom.getD s.clk.cycle) else none

/-- The clamp's counts after a measurement. -/
def State.clampCounts (s : State) (w : Nat) : State :=
  { s with
    power := { s.power with
      measured := s.clk.cycle, below97 := s.below97After w, underLimit := s.underAfter w, eighthFrom := s.eighthAfter w }
    clk := { s.clk with lowest := min s.clk.lowest (s.arrayAfter w) } }

/-- The measurement shown. -/
def State.powerShown (s : State) (f w peak : Nat) : State :=
  ((s.put F.PWR_STATUS_ARRAY_FRACTION f).put F.PWR_NOW_WATTS w).put F.PWR_NOW_PEAK peak

/-- A rail's measured value shown. -/
def showRail (rails : List Nat) (t : State) (r : Nat) : State :=
  match rails[r]? with
  | some v => t.put (F.PWR_RAIL_MV r) v
  | none => t

/-- The rails' measured values shown. -/
def State.railsShown (s : State) (rails : List Nat) : State := (List.range 9).foldl (showRail rails) s

/-- The clamp's step of one measurement. -/
def State.clampStep (s : State) (w : Nat) (rails : List Nat) : State :=
  ((s.clampCounts w).powerShown (s.arrayAfter w) (min 1023 w) (max (min 1023 w) (s.get F.PWR_NOW_PEAK))).railsShown rails

/-- The array has stood at 1/8 for 20 µs. -/
def State.eighthLong (s : State) (w : Nat) : Bool :=
  match s.eighthAfter w with
  | some t => decide (t + 50000 ≤ s.clk.cycle)
  | none => false

/-- ALERT_N after a measurement. -/
def State.clampAlert (s : State) (w : Nat) (t : State) : State :=
  if s.get F.PWR_LIMIT_WATTS < w && s.eighthLong w && !s.on F.PWR_STATUS_ALERT then (t.putB F.PWR_STATUS_ALERT true).trip 5 0 w
  else if 1000 ≤ s.underAfter w then t.putB F.PWR_STATUS_ALERT false else t

/-- In-service steps end where VDD_CORE is out of their range. -/
def State.rangeFollowed (t : State) (rails : List Nat) : State :=
  match rails[0]?.bind t.outOfRange with
  | some (q, v) => t.istAbortAll q v
  | none => t

theorem measurePower_eq (s : State) (w : Nat) (rails : List Nat) :
    s.measurePower w rails = (s.clampAlert w (s.clampStep w rails)).rangeFollowed rails := rfl

theorem rangeFollowed_none {t : State} {rails : List Nat} (h : t.power.tests = [] ∨ rails = []) : t.rangeFollowed rails = t := by
  rw [State.rangeFollowed]
  rcases h with htests | rfl
  · split
    · exact istAbortAll_none htests ..
    · rfl
  · rfl

theorem rail_ne_status (r : Nat) : R.PWR_STATUS ≠ R.PWR_RAIL r := by
  show 0x1a00000 ≠ 0x1a00100 + 4 * r
  omega

theorem rail_ne_now (r : Nat) : R.PWR_NOW ≠ R.PWR_RAIL r := by
  show 0x1a00008 ≠ 0x1a00100 + 4 * r
  omega

theorem showRail_get (rails : List Nat) (t : State) (r : Nat) {f : Fld} (h : f.reg ≠ R.PWR_RAIL r) :
    (showRail rails t r).get f = t.get f := by
  rw [showRail]
  split
  · exact get_put_otherReg t _ f _ h
  · rfl

theorem railsShown_get (s : State) (rails : List Nat) {f : Fld} (h : ∀ r, f.reg ≠ R.PWR_RAIL r) : (s.railsShown rails).get f = s.get f :=
  foldl_get_other (fun t r _ => showRail_get rails t r (h r)) s

theorem showRail_eq_withRegsOf (rails : List Nat) (t : State) (r : Nat) : showRail rails t r = t.withRegsOf (showRail rails t r) := by
  rw [showRail]
  split
  · exact put_eq_withRegsOf ..
  · rfl

theorem railsShown_eq_withRegsOf (s : State) (rails : List Nat) : s.railsShown rails = s.withRegsOf (s.railsShown rails) :=
  List.foldlRecOn (motive := fun t => t = s.withRegsOf t) (List.range 9) (showRail rails) rfl
    fun _ ht r _ => withRegsOf_trans ht (showRail_eq_withRegsOf rails _ r)

theorem powerShown_eq_withRegsOf (s : State) (f w peak : Nat) : s.powerShown f w peak = s.withRegsOf (s.powerShown f w peak) :=
  withRegsOf_trans (withRegsOf_trans (put_eq_withRegsOf ..) (put_eq_withRegsOf ..)) (put_eq_withRegsOf ..)

theorem clampStep_eq_withRegsOf (s : State) (w : Nat) (rails : List Nat) :
    s.clampStep w rails = (s.clampCounts w).withRegsOf (s.clampStep w rails) :=
  withRegsOf_trans (powerShown_eq_withRegsOf ..) (railsShown_eq_withRegsOf ..)

theorem withRegsOf_power (s t : State) : (s.withRegsOf t).power = s.power := rfl

theorem clampStep_power (s : State) (w : Nat) (rails : List Nat) : (s.clampStep w rails).power = (s.clampCounts w).power := by
  rw [clampStep_eq_withRegsOf, withRegsOf_power]

/-- The clamp's step changes registers, its counts and the lowest fraction of the stroke alone. -/
theorem clampStep_rest (s : State) (w : Nat) (rails : List Nat) :
    s.clampStep w rails = { s with
      regs := (s.clampStep w rails).regs, power := (s.clampStep w rails).power, clk := (s.clampStep w rails).clk } := by
  have h := clampStep_eq_withRegsOf s w rails
  generalize s.clampStep w rails = t at h
  rw [h]
  rfl

theorem clampStep_array (s : State) {w : Nat} (rails : List Nat) (h : s.arrayAfter w < 16) :
    (s.clampStep w rails).get F.PWR_STATUS_ARRAY_FRACTION = s.arrayAfter w := by
  rw [State.clampStep, railsShown_get _ _ rail_ne_status, State.powerShown, get_put_otherReg _ _ _ _ (by decide),
    get_put_otherReg _ _ _ _ (by decide), get_put_fits _ (by decide) h]

theorem clampStep_now (s : State) (w : Nat) (rails : List Nat) : (s.clampStep w rails).get F.PWR_NOW_WATTS = min 1023 w := by
  rw [State.clampStep, railsShown_get _ _ rail_ne_now, State.powerShown, get_put_other _ _ _ _ (by decide) (by decide),
    get_put_fits _ (by decide) (by show _ < 1024; omega)]

theorem clampStep_peak (s : State) (w : Nat) (rails : List Nat) :
    (s.clampStep w rails).get F.PWR_NOW_PEAK = max (min 1023 w) (s.get F.PWR_NOW_PEAK) := by
  have hpeak : s.get F.PWR_NOW_PEAK < 1024 := bits_lt _ _ _
  rw [State.clampStep, railsShown_get _ _ rail_ne_now, State.powerShown, get_put_fits _ (by decide) (by show _ < 1024; omega)]

/-- Above the limit no measurement counts as under it, so ALERT_N stays as it is, but for a long stay at 1/8. -/
theorem clampAlert_short {s : State} {w : Nat} (hshort : s.eighthLong w = false) (hunder : s.underAfter w < 1000) (t : State) :
    s.clampAlert w t = t := by
  rw [State.clampAlert, if_neg (by simp [hshort]), if_neg (by omega)]

theorem measurePower_step {s : State} {w : Nat} {rails : List Nat} (hshort : s.eighthLong w = false) (hunder : s.underAfter w < 1000)
    (htests : s.power.tests = [] ∨ rails = []) : s.measurePower w rails = s.clampStep w rails := by
  rw [measurePower_eq, clampAlert_short hshort hunder, rangeFollowed_none (by rw [clampStep_power]; exact htests)]

theorem eighthLong_none {s : State} {w : Nat} (h : s.arrayAfter w ≠ 1 ∨ ¬ s.get F.PWR_LIMIT_WATTS < w) : s.eighthLong w = false := by
  have hnone : s.eighthAfter w = none := if_neg (by simpa [imp_iff_not_or] using h)
  rw [State.eighthLong, hnone]

/-- Above the limit the array goes down by 1/8. -/
theorem measurePower_down {s : State} {w : Nat} {rails : List Nat} (habove : s.get F.PWR_LIMIT_WATTS < w)
    (hf : 2 < s.get F.PWR_STATUS_ARRAY_FRACTION) (htests : s.power.tests = [] ∨ rails = []) :
    s.arrayAfter w = s.get F.PWR_STATUS_ARRAY_FRACTION - 1 ∧ s.measurePower w rails = s.clampStep w rails := by
  have harray : s.arrayAfter w = s.get F.PWR_STATUS_ARRAY_FRACTION - 1 := by
    rw [State.arrayAfter, if_pos habove]
    omega
  have hunder : s.underAfter w = 0 := if_neg (by omega)
  exact ⟨harray, measurePower_step (eighthLong_none (.inl (by omega))) (by omega) htests⟩

/-- The tenth measurement in a row below 97 % of the limit takes the array up by 1/8. -/
theorem measurePower_up {s : State} {w : Nat} {rails : List Nat} (hlow : 100 * w < 97 * s.get F.PWR_LIMIT_WATTS)
    (hf : s.get F.PWR_STATUS_ARRAY_FRACTION < 8) (hten : s.power.below97 % 10 = 9) (hunder : s.power.underLimit < 999)
    (htests : s.power.tests = [] ∨ rails = []) :
    (s.measurePower w rails).get F.PWR_STATUS_ARRAY_FRACTION = s.get F.PWR_STATUS_ARRAY_FRACTION + 1 := by
  have hnot : ¬ s.get F.PWR_LIMIT_WATTS < w := by omega
  have hcount : s.below97After w % 10 = 0 := by
    rw [State.below97After, if_pos hlow]
    omega
  have harray : s.arrayAfter w = s.get F.PWR_STATUS_ARRAY_FRACTION + 1 := by
    rw [State.arrayAfter, if_neg hnot, if_pos (by simp [hcount, hlow])]
    omega
  have hfew : s.underAfter w < 1000 := by
    rw [State.underAfter]
    split <;> omega
  rw [measurePower_step (eighthLong_none (.inr hnot)) hfew htests, clampStep_array s rails (by omega), harray]

/-- At 1/8 for 20 µs and still above the limit: ALERT_N, and valve 5. -/
theorem measurePower_alert {s : State} {w t0 : Nat} (habove : s.get F.PWR_LIMIT_WATTS < w) (hf : s.get F.PWR_STATUS_ARRAY_FRACTION = 1)
    (hfrom : s.power.eighthFrom = some t0) (hlong : t0 + 50000 ≤ s.clk.cycle) (halert : s.on F.PWR_STATUS_ALERT = false) :
    s.measurePower w [] = ((s.clampStep w []).putB F.PWR_STATUS_ALERT true).trip 5 0 w := by
  have harray : s.arrayAfter w = 1 := by
    rw [State.arrayAfter, if_pos habove, hf]
    rfl
  have heighth : s.eighthAfter w = some t0 := by
    rw [State.eighthAfter, if_pos (by simp [harray, habove]), hfrom]
    rfl
  have hstays : s.eighthLong w = true := by
    rw [State.eighthLong, heighth]
    exact decide_eq_true hlong
  rw [measurePower_eq, rangeFollowed_none (.inr rfl), State.clampAlert, if_pos (by simp [habove, hstays, halert])]

/-! ## The set point of VDD_CORE (R409, R458) -/

theorem exec_vddcSetMove {s : State} (hlive : s.live = true) (mv : Nat) :
    exec (.vddcSetMove mv) s = .next (if s.coreState 7 = 1 then s.moveSet mv else s) := by
  rw [exec]
  exact whenLive_true hlive _

/-- A set point outside its bounds. -/
def setRefused (mv fused : Nat) : Prop := mv < 600 ∨ 800 < mv ∨ mv % 5 ≠ 0 ∨ mv + 20 < fused ∨ fused + 20 < mv

theorem moveSet_refused {s : State} {mv : Nat} (h : setRefused mv s.nv.coreMv) : s.moveSet mv = s := by
  refine if_pos ?_
  rcases h with h | h | h | h | h <;> simp [h]

/-- The set point moved, and VID with it. -/
def State.setMoved (s : State) (mv : Nat) (moved : Option (Nat × Nat)) : State :=
  { s with power := { s.power with moved := moved }, pins := { s.pins with vid := some (vidCode mv) } }

theorem moveSet_moves {s : State} {mv : Nat} (hfirst : s.power.moved = none) (hbounds : ¬ setRefused mv s.nv.coreMv)
    (hdown : s.coreSet ≤ mv + 5) (hup : mv ≤ s.coreSet + 5) :
    s.moveSet mv = (s.put F.PWR_VDDC_SET_SET_MV mv).setMoved mv (some (s.coreSet, s.clk.real)) := by
  simp only [setRefused, not_or] at hbounds
  obtain ⟨hmin, hmax, hstep, hlow, hhigh⟩ := hbounds
  rw [State.moveSet, hfirst]
  refine (if_neg ?_).trans rfl
  simp [hmin, hmax, hlow, hhigh, hdown, hup, not_not.mp hstep]

theorem setMoved_get (s : State) (mv : Nat) (moved : Option (Nat × Nat)) (f : Fld) : (s.setMoved mv moved).get f = s.get f := rfl

theorem setMoved_rest {s t : State} (h : t = s.withRegsOf t) (mv : Nat) (moved : Option (Nat × Nat)) : t.setMoved mv moved
    = { s with regs := (t.setMoved mv moved).regs, power := (t.setMoved mv moved).power, pins := (t.setMoved mv moved).pins } := by
  rw [h]
  rfl

theorem vddcSetMove_moves {s : State} (hlive : s.live = true) {mv : Nat} (hcore : s.coreState 7 = 1) (hfirst : s.power.moved = none)
    (hbounds : ¬ setRefused mv s.nv.coreMv) (hdown : s.coreSet ≤ mv + 5) (hup : mv ≤ s.coreSet + 5) :
    ∃ t, exec (.vddcSetMove mv) s = .next t ∧ t.get F.PWR_VDDC_SET_SET_MV = mv ∧ t.pins.vid = some (vidCode mv)
      ∧ t.power.moved = some (s.coreSet, s.clk.real) ∧ t = { s with regs := t.regs, power := t.power, pins := t.pins } := by
  have hle : mv ≤ 800 := by
    simp only [setRefused, not_or] at hbounds
    omega
  refine ⟨_, (exec_vddcSetMove hlive mv).trans (congrArg _ ((if_pos hcore).trans (moveSet_moves hfirst hbounds hdown hup))),
    ?_, rfl, rfl, setMoved_rest (put_eq_withRegsOf ..) ..⟩
  rw [setMoved_get, get_put_fits _ (by decide) (by show _ < 1024; omega)]

/-! ## Heat (R431, R432) -/

/-- The junction as sampled, and whether THERMAL_WARN is armed. -/
def State.heatSeen (s : State) (tj : Nat) (warned : Bool) : State := s.withPower { s.power with tj := tj, warned := warned }

/-- The junction shown. -/
def State.heatShown (s : State) (tj peak : Nat) (above : Bool) : State :=
  ((s.put F.PWR_TJ_NOW tj).put F.PWR_TJ_MAX peak).putB F.PWR_STATUS_TWARN above

theorem heatShown_now (s : State) {tj : Nat} (h : tj < 65536) (peak : Nat) (above : Bool) :
    (s.heatShown tj peak above).get F.PWR_TJ_NOW = tj := by
  rw [State.heatShown, get_putB_otherReg _ _ (by decide), get_put_other _ _ _ _ (by decide) (by decide),
    get_put_fits _ (by decide) h]

theorem heatShown_warn (s : State) (tj peak : Nat) (above : Bool) : (s.heatShown tj peak above).on F.PWR_STATUS_TWARN = above :=
  on_putB_same _ _ _ rfl (by decide)

theorem heatShown_eq_withRegsOf (s : State) (tj peak : Nat) (above : Bool) :
    s.heatShown tj peak above = s.withRegsOf (s.heatShown tj peak above) :=
  withRegsOf_trans (withRegsOf_trans (put_eq_withRegsOf ..) (put_eq_withRegsOf ..)) (putB_eq_withRegsOf ..)

theorem heatShown_power (s : State) (tj peak : Nat) (above : Bool) : (s.heatShown tj peak above).power = s.power := by
  rw [State.heatShown, State.putB_power, State.put_power, State.put_power]

/-- The junction is above the warning level. -/
def State.hot (s : State) (tj : Nat) : Bool := decide ((s.get F.PWR_TWARN_LEVEL : Int) < sInt 16 tj)

/-- The hottest sample yet. -/
def State.peakWith (s : State) (tj : Nat) : Nat := if sInt 16 (s.get F.PWR_TJ_MAX) < sInt 16 tj then tj else s.get F.PWR_TJ_MAX

/-- THERMAL_WARN has been raised, and the junction has not cooled by 5 °C since. -/
def State.warnedAfter (s : State) (tj : Nat) : Bool :=
  s.hot tj || (s.power.warned && decide ((s.get F.PWR_TWARN_LEVEL : Int) < sInt 16 tj + 50))

/-- A sample shown. -/
def State.sampleShown (s : State) (tj : Nat) : State := (s.heatSeen tj (s.warnedAfter tj)).heatShown tj (s.peakWith tj) (s.hot tj)

theorem sample_eq {s : State} (hphase : s.phase ≠ .reset) (tj : Nat) : s.sample tj =
    if s.hot tj && !s.power.warned && !s.frozen && s.phase != .safe then (s.sampleShown tj).raise 0x0904 (payload 16 [(0, 2, tj)])
    else s.sampleShown tj := by
  rw [State.sample, if_neg (by simpa using hphase)]
  rfl

theorem sampleShown_now (s : State) (tenths : BitVec 16) : (s.sampleShown tenths.toNat).get F.PWR_TJ_NOW = tenths.toNat :=
  heatShown_now _ tenths.isLt ..

theorem sampleShown_warn (s : State) (tj : Nat) : (s.sampleShown tj).on F.PWR_STATUS_TWARN = s.hot tj := heatShown_warn ..

theorem sampleShown_warned (s : State) (tj : Nat) : (s.sampleShown tj).power.warned = s.warnedAfter tj := by
  rw [State.sampleShown, heatShown_power]
  rfl

theorem sampleShown_rest (s : State) (tj : Nat) :
    s.sampleShown tj = { s with regs := (s.sampleShown tj).regs, power := (s.sampleShown tj).power } := by
  have h := heatShown_eq_withRegsOf (s.heatSeen tj (s.warnedAfter tj)) tj (s.peakWith tj) (s.hot tj)
  change s.sampleShown tj = (s.heatSeen tj (s.warnedAfter tj)).withRegsOf (s.sampleShown tj) at h
  generalize s.sampleShown tj = t at h
  rw [h]
  rfl

theorem hot_iff (s : State) (tenths : BitVec 16) : s.hot tenths.toNat = true ↔ (s.get F.PWR_TWARN_LEVEL : Int) < tenths.toInt := by
  rw [State.hot, decide_eq_true_iff, sInt_toNat]

/-- As the temperature rises through its level, THERMAL_WARN is raised. -/
theorem junctionSample_warns {s : State} (hlive : s.live = true) {tenths : BitVec 16}
    (hhot : (s.get F.PWR_TWARN_LEVEL : Int) < tenths.toInt) (hfirst : s.power.warned = false) :
    ∃ v : State, exec (.junctionSample tenths) s = .next (v.raise 0x0904 (payload 16 [(0, 2, tenths.toNat)]))
      ∧ v.get F.PWR_TJ_NOW = tenths.toNat ∧ v.on F.PWR_STATUS_TWARN = true ∧ v.power.warned = true := by
  obtain ⟨hphase, hfrozen⟩ := live_iff.mp hlive
  have hhot' := (hot_iff s tenths).mpr hhot
  refine ⟨s.sampleShown tenths.toNat, ?_, sampleShown_now s tenths, (sampleShown_warn ..).trans hhot', ?_⟩
  · rw [exec, execJunctionSample, sample_eq (by simp [hphase]), if_pos (by simp [hphase, hfrozen, hhot', hfirst])]
  · rw [sampleShown_warned, State.warnedAfter, hhot', Bool.true_or]

/-- At or below its level a sample is shown, and nothing else. -/
theorem junctionSample_cool {s : State} (hlive : s.live = true) {tenths : BitVec 16}
    (hcool : tenths.toInt ≤ (s.get F.PWR_TWARN_LEVEL : Int)) :
    ∃ t, exec (.junctionSample tenths) s = .next t ∧ t.get F.PWR_TJ_NOW = tenths.toNat ∧ t.on F.PWR_STATUS_TWARN = false
      ∧ t = { s with regs := t.regs, power := t.power } := by
  obtain ⟨hphase, -⟩ := live_iff.mp hlive
  have hcool' : s.hot tenths.toNat = false := by
    rw [← Bool.not_eq_true, hot_iff]
    omega
  refine ⟨s.sampleShown tenths.toNat, ?_, sampleShown_now s tenths, (sampleShown_warn ..).trans hcool', sampleShown_rest ..⟩
  rw [exec, execJunctionSample, sample_eq (by simp [hphase]), if_neg (by simp [hcool'])]

theorem exec_thermalTrip {s : State} (hreset : s.phase ≠ .reset) (hsafe : s.phase ≠ .safe) {tenths : BitVec 16}
    (h : 1150 ≤ tenths.toInt) : exec (.thermalTrip tenths) s = .next (s.thermalTrip tenths.toNat) := by
  have hhot : ¬ sInt 16 tenths.toNat < 1150 := by
    rw [sInt_toNat]
    omega
  rw [exec, execThermalTrip, if_neg (by simpa [hreset, hsafe] using hhot)]

theorem exec_thermalTrip_cool (s : State) {tenths : BitVec 16} (h : tenths.toInt < 1150) :
    exec (.thermalTrip tenths) s = .next s := by
  rw [← sInt_toNat] at h
  rw [exec, execThermalTrip, if_pos (by simp [h])]

theorem madeSafe_phase (s : State) : s.madeSafe.phase = .safe := rfl

theorem madeSafe_eq (s : State) :
    s.madeSafe = ((s.putB F.GLB_STATUS_READY false).putB F.PWR_STATUS_ALERT true).inPhase .safe := by
  rw [State.madeSafe]
  simp only [State.inPhase]

theorem madeSafe_on (s : State) (f : Fld) :
    s.madeSafe.on f = ((s.putB F.GLB_STATUS_READY false).putB F.PWR_STATUS_ALERT true).on f := by
  rw [madeSafe_eq, inPhase_on]

theorem madeSafe_ready (s : State) : s.madeSafe.on F.GLB_STATUS_READY = false := by
  rw [madeSafe_on, on_putB_other _ _ _ _ (by decide) (by decide), on_putB_same _ _ _ rfl (by decide)]

theorem madeSafe_alert (s : State) : s.madeSafe.on F.PWR_STATUS_ALERT = true := by
  rw [madeSafe_on, on_putB_same _ _ _ rfl (by decide)]

/-! ## The obligation -/

/-- Settles O54: each rail command is one step on the rail's record, from whose parts the clocks and the registers follow; a measurement
is the clamp's step, and a sample one of `sampleShown`, with what each raises. -/
theorem railsPowerAndHeat : Obligations.RailsPowerAndHeat := by
  unfold Obligations.RailsPowerAndHeat
  constructor
  · intro s r mv
    exact ⟨exec_railWarnCross, exec_railAboveWarning, fun tenths => ⟨rfl, fun hreset hsafe h => exec_thermalTrip hreset hsafe h⟩,
      railWarnCross_opens, exec_railWarnCross_outside, fun d => railAboveWarning_ends, fun d u => exec_brownoutHalving,
      fun d u => exec_brownout, fun d => brownoutHalving_halves, fun d => brownout_closes⟩
  · intro s u w mv rails tenths hlive limit f
    obtain ⟨hphase, -⟩ := live_iff.mp hlive
    refine ⟨fun hreach => ?reach, exec_vddcSetMove hlive mv, fun habove hf htests => ?down, measurePower_up, fun t0 habove hf hfrom hlong
      halert hrails => ?alert, fun v q x t _ _ htests => istAbortAll_none htests q x,
      fun hcore hfirst hmin hmax hstep hlow hhigh hdown hup => vddcSetMove_moves hlive hcore hfirst ?bounds hdown hup, fun hbad => ?refused, junctionSample_warns hlive, junctionSample_cool hlive,
      fun hhot => ⟨_, exec_thermalTrip (by simp [hphase]) (by simp [hphase]) hhot, madeSafe_phase _, madeSafe_ready _, madeSafe_alert _⟩,
      exec_thermalTrip_cool s⟩
    case reach =>
      rw [exec, execPowerMeasurement, whenLive_true hlive, hreach]
    case down =>
      obtain ⟨harray, hstep⟩ := measurePower_down habove hf htests
      have hfits : f < 16 := bits_lt _ _ _
      rw [hstep]
      exact ⟨s.clampStep w rails, rfl, (clampStep_array s rails (by omega)).trans harray, clampStep_now .., clampStep_peak ..,
        clampStep_rest ..⟩
    case alert =>
      subst hrails
      exact ⟨_, measurePower_alert habove hf hfrom hlong halert, on_putB_same _ _ _ rfl (by decide)⟩
    case bounds =>
      simp only [setRefused, not_or]
      omega
    case refused =>
      rw [exec_vddcSetMove hlive, moveSet_refused hbad, ite_self]

end Sys2Proof.Machine
end

section
/-! Start-up: the step at which it stops, and the one at which it ends (R386, R415-R417). -/

namespace Sys2Proof.Machine

/-! ## Where start-up stops -/

theorem holdAt_eq (s : State) (stage : Nat) :
    s.holdAt stage = ((s.put F.GLB_STATUS_STAGE stage).putB F.GLB_STATUS_FAULT_HOLD true).inPhase .hold := rfl

theorem holdAt_phase (s : State) (stage : Nat) : (s.holdAt stage).phase = .hold := rfl

theorem holdAt_stage (s : State) {stage : Nat} (h : stage < 16) : (s.holdAt stage).get F.GLB_STATUS_STAGE = stage := by
  rw [holdAt_eq, inPhase_get, get_putB_other _ _ _ _ (by decide) (by decide), get_put_fits _ (by decide) h]

theorem holdAt_faultHold (s : State) (stage : Nat) : (s.holdAt stage).on F.GLB_STATUS_FAULT_HOLD = true := by
  rw [holdAt_eq, inPhase_on, on_putB_same _ _ _ rfl (by decide)]

/-- A fault hold shows itself in GLB_STATUS alone. -/
theorem holdAt_on (s : State) (stage : Nat) {f : Fld} (h : f.reg ≠ R.GLB_STATUS) : (s.holdAt stage).on f = s.on f := by
  rw [State.on, holdAt_eq, inPhase_get, get_putB_otherReg _ _ h, get_put_otherReg _ _ _ _ h]
  rfl

theorem enterRecovery_phase (s : State) (role why : Nat) : (s.enterRecovery role why).phase = .recovery := rfl

theorem enterRecovery_recovery (s : State) (role why : Nat) : (s.enterRecovery role why).on F.SEC_BOOT_STATUS_RECOVERY = true := by
  rw [enterRecovery_eq, inPhase_on, on_put_other _ _ _ _ (by decide) (by decide), on_put_other _ _ _ _ (by decide) (by decide),
    on_put_other _ _ _ _ (by decide) (by decide), on_putB_same _ _ _ rfl (by decide)]

/-! ## The power-up BIST and READY (R415, R425, R426) -/

theorem powerUpBist_range {s : State} {f : Findings} (h : f.inRange = false) :
    s.powerUpBist f = ((((s.put F.GLB_STATUS_STAGE 2).bistClear.putB F.PWR_BIST_STATUS_RANGE true).put F.PWR_BIST_STATUS_RESULT 3).holdAt
      2) := if_pos (by simp [h])

theorem absorbAll_nil (s : State) : s.absorbAll [] = (s, true) := rfl

theorem powerUpBist_passes {s : State} {f : Findings} (hrange : f.inRange = true) (hfailed : f.failed = []) :
    s.powerUpBist f = ((s.put F.GLB_STATUS_STAGE 2).bistClear.put F.PWR_BIST_STATUS_RESULT 1).finishStartup f := by
  rw [State.powerUpBist, if_neg (by simp [hrange]), hfailed, absorbAll_nil]
  rfl

/-- READY, with the last step and the tiles shown. -/
def State.madeReady (s : State) : State := ((s.put F.GLB_STATUS_STAGE 7).putB F.GLB_STATUS_READY true).showTiles.inPhase .ready

theorem finishStartup_ready (s : State) (f : Findings) : ∃ t : State, s.finishStartup f = t.madeReady := ⟨_, rfl⟩

theorem showTiles_get (s : State) {f : Fld} (h : f.reg ≠ R.GLB_CAP) : s.showTiles.get f = s.get f := by
  rw [State.showTiles, get_put_otherReg _ _ _ _ h, get_put_otherReg _ _ _ _ h]

theorem madeReady_ready (s : State) : s.madeReady.on F.GLB_STATUS_READY = true := by
  rw [State.madeReady, State.on, inPhase_get, showTiles_get _ (by decide)]
  exact on_putB_same _ _ _ rfl (by decide)

theorem madeReady_stage (s : State) : s.madeReady.get F.GLB_STATUS_STAGE = 7 := by
  rw [State.madeReady, inPhase_get, showTiles_get _ (by decide), get_putB_other _ _ _ _ (by decide) (by decide),
    get_put_fits _ (by decide) (by decide)]

/-! ## The steps of start-up -/

/-- What step 1 loads: fuses, seeds and units. -/
def State.loaded (s : State) (f : Findings) : State := ((s.loadFuses f).loadSeeds).loadUnits

theorem startup_eq (s : State) (f : Findings) : s.startup f =
    if (s.loaded f).nv.lifecycle = 4 then (s.loaded f).holdAt 1
    else match (s.loaded f).badSlot with
      | some (role, reason) => (s.loaded f).enterRecovery role reason
      | none => (s.loaded f).startCores.powerUpBist f := rfl

theorem startup_retired {s : State} {f : Findings} (h : (s.loaded f).nv.lifecycle = 4) : s.startup f = (s.loaded f).holdAt 1 := by
  rw [startup_eq, if_pos h]

theorem startup_badSlot {s : State} {f : Findings} (hlife : (s.loaded f).nv.lifecycle ≠ 4) {role why : Nat}
    (hslot : (s.loaded f).badSlot = some (role, why)) : s.startup f = (s.loaded f).enterRecovery role why := by
  rw [startup_eq, if_neg hlife, hslot]

theorem startup_boots {s : State} {f : Findings} (hlife : (s.loaded f).nv.lifecycle ≠ 4) (hslot : (s.loaded f).badSlot = none) :
    s.startup f = (s.loaded f).startCores.powerUpBist f := by
  rw [startup_eq, if_neg hlife, hslot]

theorem exec_startup_held {s : State} (h : s.release = none) (f : Findings) : exec (.startup f) s = .next s := by
  rw [exec, execStartup, h]

theorem exec_startup {s u : State} {f : Findings} (hrun : s.frozen = false) (hrelease : s.release = some u)
    (helapse : u.canElapse (min f.cycles 6225000000) = true) :
    exec (.startup f) s = .next ((u.elapse (min f.cycles 6225000000)).startup f) := by
  rw [exec, execStartup, hrelease]
  exact congrArg _ (if_neg (by simp [hrun, helapse]))

/-- Settles O53: start-up is the first of the stops that applies, or else READY. -/
theorem startupEndsInReady : Obligations.StartupEndsInReady := by
  unfold Obligations.StartupEndsInReady
  intro s f
  refine ⟨fun h => exec_startup_held h f, fun u => exec_startup, ?_⟩
  intro u hrun hrelease helapse l
  have hexec := exec_startup hrun hrelease helapse
  refine ⟨fun hretired => ?retired, fun role why hlife hslot => ?slot, fun hlife hslot hrange => ?range,
    fun hlife hslot hrange hfailed => ?ready⟩
  case retired =>
    rw [startup_retired hretired] at hexec
    exact ⟨_, hexec, holdAt_phase .., holdAt_stage _ (by decide), holdAt_faultHold ..⟩
  case slot =>
    rw [startup_badSlot hlife hslot] at hexec
    exact ⟨_, hexec, enterRecovery_phase .., enterRecovery_recovery .., enterRecovery_role .., enterRecovery_reason ..⟩
  case range =>
    rw [startup_boots hlife hslot, powerUpBist_range hrange] at hexec
    refine ⟨_, hexec, holdAt_phase .., holdAt_stage _ (by decide), ?_⟩
    rw [holdAt_on _ _ (by decide), on_put_other _ _ _ _ (by decide) (by decide), on_putB_same _ _ _ rfl (by decide)]
  case ready =>
    rw [startup_boots hlife hslot, powerUpBist_passes hrange hfailed] at hexec
    obtain ⟨t, hready⟩ := finishStartup_ready _ f
    rw [hready] at hexec
    exact ⟨_, hexec, rfl, madeReady_ready t, madeReady_stage t⟩

end Sys2Proof.Machine
end
